-- ==== Sys2Proof/Word.lean ====
section
/-! DEFINITION. Words, bytes and fixed tables of registers.

Bit vectors stand for what the manual treats as bits: register contents, frames, addresses while
they are computed. Everything else is a Nat, an Int, a Bool, a name of an inductive type or a list.
A fixed number of like things is a `Vector`; the four operations below read and write it in a
form the kernel evaluates. -/

namespace Sys2Proof

/-- One byte of a frame or of memory. -/
abbrev Byte := BitVec 8
/-- A 16-bit field: a UID, a status word, a speed scale in U1.15. -/
abbrev W16 := BitVec 16
/-- A register word. -/
abbrev W32 := BitVec 32
/-- An error record, an ECC word. -/
abbrev W64 := BitVec 64

/-- Entry `i` of a table. -/
def vget {α : Type} {n : Nat} (v : Vector α n) (i : Fin n) : α := v[i.val]'i.isLt

/-- The table with entry `i` replaced. -/
def vset {α : Type} {n : Nat} (v : Vector α n) (i : Fin n) (x : α) : Vector α n :=
  v.set i.val x i.isLt

/-- The table with entry `i` rewritten by `f`. -/
def vupd {α : Type} {n : Nat} (v : Vector α n) (i : Fin n) (f : α → α) : Vector α n :=
  vset v i (f (vget v i))

/-- The table with every entry rewritten by `f`, which also sees the entry's number. -/
def vmap {α β : Type} {n : Nat} (v : Vector α n) (f : Nat → α → β) : Vector β n :=
  ⟨⟨v.toList.zipIdx.map (fun p => f p.2 p.1)⟩, by simp⟩

end Sys2Proof
end

