-- ==== Sys2Proof/Machine/Block/Basic.lean ====
section
/-! DEFINITION. The names every block shares: the two dies, severities, error records, access
results, memory cells and the messages the package drives out. -/

namespace Sys2Proof.Machine

/-- The two controller dies of a package (R11, R24). -/
inductive DieId where
  | a
  | b
  deriving DecidableEq, Repr

/-- The severities of R602; the number is field SEV of R601. -/
inductive Sev where
  | info
  | warn
  | degrade
  | stop
  | fatal
  deriving DecidableEq, Repr

/-- Who wrote a record: field ORIGIN of R601. -/
inductive Origin where
  | device
  | keeper
  | planner
  | host
  deriving DecidableEq, Repr

/-- An error record in the fields of R601. -/
structure ErrRec where
  sev : Sev
  ovf : Bool := false
  peer : Bool := false
  origin : Origin := .device
  uid : W16
  code : Byte
  cyc : W32
  deriving DecidableEq, Repr

/-- How the last management access of a die ended (R32, R37, R552, R565, R566, R571, R580). -/
inductive Access where
  | ok
  | stateConflict
  | badUid
  | domainAsleep
  | completerAbort
  | dropped
  | poisoned
  | held
  deriving DecidableEq, Repr

/-- Who makes a management access: the source rules of R529, R604 and R522 name them. -/
inductive Source where
  | keeper
  | planner
  | pcie
  | pcieRecovery
  | smbus
  deriving DecidableEq, Repr

/-- A byte memory in canonical form: cells by strictly rising address, none equal to the 0 that
an unlisted address reads as (R545: SRAM is cleared when its domain wakes). -/
structure Memory where
  cells : List Host.Cell
  deriving DecidableEq, Repr

/-- Something a die drives onto one of its interfaces. `Die.out` keeps them, newest first. -/
inductive OutMsg where
  /-- An MSI-X message of function 0 or 1 (R573, R574). -/
  | msix (fn : Nat) (vector : Nat)
  /-- A Mirrad frame sent on a lane, before line coding (R354). -/
  | mirrad (lane : Nat) (bytes : List Byte)
  /-- An Ethernet frame sent by a time port (R430, R431, R443). -/
  | eth (port : Nat) (bytes : List Byte)
  /-- A CAN frame handed to the bus: identifier, format bits, data (R407, R418). -/
  | can (ctrl : Nat) (id : Nat) (fmt : W32) (bytes : List Byte)
  /-- Bytes returned by the SMBus target (R579). -/
  | smbus (bytes : List Byte)
  /-- An AVSBus voltage command in mV (R598). -/
  | avs (mv : Nat)
  /-- The data a read access returned (R565, R566, R571). -/
  | read (bytes : List Byte)
  /-- A Memory Write of the DMA engine to host space (R586). -/
  | hostWrite (addr : Nat) (bytes : List Byte)
  /-- The SQUASH interrupt to a region's planner core (R87). -/
  | plannerSquash (region : Nat)
  /-- The event of a small axis to its owning engine (R239). -/
  | axisEvent (axis : Nat)
  /-- A heartbeat HB(k), or a handover token HO(k), on the die-to-die link with the low word of the
  image signature (R475, R482). -/
  | token (handover : Bool) (cyc : W32) (sig : W32)
  /-- The bits the JTAG controller shifted out (R533). -/
  | jtag (bits : List Bool)
  deriving DecidableEq, Repr

/-- A change of an input on its way through the synchroniser and the filter of R257: the tick at which the filtered
level of a channel (A, B, I of an encoder port; 0 of a capture) becomes `level`, and TIME_NS of the edge at the pin. -/
structure InEdge where
  due : Nat
  ch : Fin 3
  level : Bool
  ns : W32
  deriving DecidableEq, Repr

end Sys2Proof.Machine
end

