-- ==== Sys2Proof/Machine/Block/Can.lean ====
section
/-! DEFINITION. One CAN FD controller (chapter 13). -/

namespace Sys2Proof.Machine

/-- The protocol states; the order is the code of CAN_STATUS.STATE (R423, R426). -/
inductive CanSt where
  | off
  | init
  | integrate
  | active
  | passive
  | busoff
  deriving DecidableEq, Repr

/-- The states of the reference service; the order is the code of REF_ST (R419, R424). -/
inductive RefSt where
  | off
  | follow
  | master
  | stopped
  deriving DecidableEq, Repr

/-- What a controller sees go wrong on the bus (R408, R414, R417): errors in its own frame, errors
it finds as a receiver, and errors in a flag it sends. -/
inductive CanErr where
  /-- No acknowledge; `dominant`: a dominant bit stands in its passive error flag. -/
  | ack (dominant : Bool)
  /-- A bit error in its own frame; `inData`: in the data field. -/
  | bit (inData : Bool)
  /-- A stuff error during arbitration, which ISO 11898-1 exempts from TEC. -/
  | arbStuff
  /-- Another error in its own frame. -/
  | txOther
  /-- An error found as a receiver. -/
  | rx
  /-- The first bit after its error flag as a receiver is dominant. -/
  | rxDominant
  /-- A bit error in an active error flag or overload flag it sends, as transmitter or receiver. -/
  | inFlag (asTransmitter : Bool)
  deriving DecidableEq, Repr

/-- A frame in the fields of R412: identifier word, format word, data. -/
structure CanFrame where
  /-- Bits [28:0] ID, [29] IDE, [30] RTR. -/
  id : W32
  /-- Bits [3:0] DLC, [4] FDF, [5] BRS, [6] ESI. -/
  fmt : W32
  data : List Byte
  deriving DecidableEq, Repr

/-- An entry of the receive FIFO (R412). -/
structure CanEntry where
  id : W32
  fmt : W32
  time : W32
  data : List Byte
  deriving DecidableEq, Repr

/-- A transmit buffer (R407-R409, R424, R427). -/
structure TxBuf where
  /-- TXB_ID. -/
  id : W32 := 0
  /-- TXB_FMT. -/
  fmt : BitVec 7 := 0
  data : List Byte := List.replicate 64 0
  pending : Bool := false
  /-- TXB_CTRL.RESULT. -/
  result : BitVec 3 := 0
  /-- TXB_CTRL.DONE. -/
  done : Bool := false
  /-- ABORT was written while the frame is on the bus. -/
  aborting : Bool := false
  deriving DecidableEq, Repr

/-- An acceptance filter: CAN_FLT_ID and CAN_FLT_MASK (R410). -/
structure CanFilter where
  id : W32 := 0
  mask : W32 := 0
  deriving DecidableEq, Repr

/-- What is on the bus from this controller. -/
inductive CanOffer where
  | none
  | buf (b : Fin 3)
  | ref
  deriving DecidableEq, Repr

/-- The settings of a controller that come from the image (R421, R424, R425). -/
structure CanCfg where
  nbt : BitVec 27 := 0
  dbt : BitVec 18 := 0
  /-- CAN_TDC bits [14:0]. -/
  tdc : BitVec 15 := 0
  refEn : Bool := false
  refRank : BitVec 3 := 0
  refDly : BitVec 10 := 0
  refPeriod : W16 := 0
  /-- CAN_REF_ID. -/
  refId : BitVec 30 := 0
  filters : Vector CanFilter 32 := Vector.replicate 32 {}
  init : Bool := false
  txord : Bool := false
  pxd : Bool := false
  acceptAll : Bool := false
  deriving DecidableEq, Repr

/-- One controller. -/
structure Can where
  cfg : CanCfg := {}
  /-- The settings of the image, which direct mode leaves behind (R421). -/
  image : CanCfg := {}
  st : CanSt := .off
  /-- CAN_CTRL.ROM, MON, ALONE_SS and DIRECT as written. -/
  rom : Bool := false
  mon : Bool := false
  aloneSs : Bool := false
  direct : Bool := false
  /-- Restricted operation, bus monitoring and direct mode in force (R416, R421). -/
  romOn : Bool := false
  monOn : Bool := false
  directOn : Bool := false
  /-- CAN_STATUS.ALONE, TDC_RANGE, REF_SKEW. -/
  alone : Bool := false
  tdcRange : Bool := false
  refSkew : Bool := false
  tdcv : BitVec 7 := 0
  tec : Nat := 0
  rec' : Nat := 0
  /-- CAN_ERRCNT.BO_CNT. -/
  boCnt : Nat := 0
  /-- Consecutive acknowledge errors (R417). -/
  ackRun : Nat := 0
  bufs : Vector TxBuf 3 := Vector.replicate 3 {}
  offer : CanOffer := .none
  /-- A frame of another node is on the bus after a lost arbitration. -/
  receiving : Bool := false
  /-- The receive FIFO, oldest first, at most 32 entries. -/
  fifo : List CanEntry := []
  /-- CAN_RX_STAT.OVF. -/
  ovf : Bool := false
  ref : RefSt := .off
  /-- SEQ of the next reference message (R418). -/
  seq : Byte := 0
  /-- The reference message that is due and unsent: SEQ and CYC. -/
  refDue : Option (Byte × W16) := none
  /-- The reference message on the bus. -/
  refBus : Option (Byte × W16) := none
  /-- A due time has passed and no valid reference message has been received or sent since. -/
  refOpen : Bool := false
  /-- The CLK_PER count at the newest due time. -/
  refAt : Nat := 0
  /-- Consecutive missed due times. -/
  refMissed : Nat := 0
  /-- Consecutive bit errors in the data field of its own reference. -/
  refClash : Nat := 0
  /-- A master has been received since the last CAN_REF_TAKEOVER. -/
  refHeard : Bool := false
  /-- CAN_REF_OFS. -/
  refOfs : W32 := 0
  /-- CNT_TX_OK, CNT_RX_OK, CNT_ACK_ERR, CNT_BUS_OFF, CNT_ALONE, CNT_RX_OVF, CNT_REF_TX, CNT_REF_LATE,
  CNT_REF_RX. -/
  cnt : Vector W32 9 := Vector.replicate 9 0
  deriving DecidableEq, Repr

end Sys2Proof.Machine
end

