-- ==== Sys2Proof/Machine/Block/Joint.lean ====
section
/-! DEFINITION. A servo joint: registers, law, handover, stops, profile generator and supervisor
(chapter 06). A quantity of a Qm.f format that the law computes with is its integer content. -/

namespace Sys2Proof.Machine

/-- The writable joint registers of R213 that take effect at a cycle boundary. -/
structure JointRegs where
  pgTarget : W32 := 0
  pgVmax : W32 := 0
  pgAmax : W32 := 0
  pgDmax : W32 := 0
  pgJmax : W32 := 0
  qsDec : W32 := 0
  stillVel : W32 := 0
  forceSp : W32 := 0
  forceLim : W32 := 0
  forceVapp : W32 := 0
  forceRamp : W32 := 0
  forceStroke : W32 := 0
  plWarn : W32 := 0
  plFault : W32 := 0
  /-- JNT_PL_CFG.EN. -/
  plEn : Bool := false
  /-- JNT_PL_CFG.PERSIST. -/
  persist : Byte := 0
  plKacc : W32 := 0
  plKt : W32 := 0
  plBvisc : W32 := 0
  plFcoul : W32 := 0
  deltaMax : BitVec 24 := 0
  deriving DecidableEq, Repr

/-- A setpoint on plan time (R192): Q11.20 position, unit-scale velocity, velocity feed-forward,
Q15.16 acceleration feed-forward, and the DDQ it came from. -/
structure SetPt where
  q : Int := 0
  dq1 : Int := 0
  vff : Int := 0
  aff : Int := 0
  ddq : Int := 0
  deriving DecidableEq, Repr

/-- The control state of the library law (R181-R186, R650). -/
structure LawState where
  /-- Integrator, Q1.30. -/
  integ : Int := 0
  /-- Held position-loop output, Q11.20. -/
  vpos : Int := 0
  /-- Biquad states in accumulator units of 2^-59. -/
  bq : List (Int × Int) := []
  /-- The frozen HOLD position, Q11.20. -/
  hold : Int := 0
  /-- FORCE phase: 0 APPROACH, 1 PRESS, 2 HOLDING, 3 not in FORCE; 0 at reset (R215). -/
  phase : BitVec 2 := 0
  /-- u_ref of the press, Q1.30. -/
  uRef : Int := 0
  /-- Position at the entry of FORCE. -/
  entry : Int := 0
  /-- Consecutive cycles with |u| at FORCE_LIM. -/
  limCnt : Nat := 0
  /-- The velocity preload of R205: offset in Q11.20, first target, K. -/
  voff : Option (Int × W32 × Nat) := none
  deriving DecidableEq, Repr

/-- What a law gives for a target: u or feed-forward torque in Q1.30, vcmd in Q11.20. -/
structure LawOut where
  u : Int := 0
  vcmd : Int := 0
  ff : Int := 0
  deriving DecidableEq, Repr

/-- The old law of a blend, which runs in shadow (R206). -/
structure Blend where
  c : W32
  w : Nat
  mode : BitVec 2
  source : BitVec 2
  law : LawState
  sp : SetPt
  deriving DecidableEq, Repr

/-- What the cairn of a library program keeps of one joint (R650): its law with integrator, biquads, vpos,
HOLD position and FORCE state, the mode and source it ran in, the last fresh feedback with its cycle, and
the old law of a blend. -/
structure LawSave where
  joint : Nat
  mode : BitVec 2
  source : BitVec 2
  law : LawState
  fbPos : W32
  fbVel : W32
  fresh : Option W32
  blend : Option Blend
  deriving DecidableEq, Repr

/-- The control state that the cairn of a library program holds beside the declared bytes (R650): its
joints, and the coil temperature rise in 2^-20 K of each owned small axis (R235). -/
structure CairnState where
  joints : List LawSave := []
  temps : List (Nat × Int) := []
  deriving DecidableEq, Repr

/-- A handover request that waits for its target (R204). -/
structure HoReq where
  mode : BitVec 2
  source : BitVec 2
  w : Nat
  c : W32
  /-- The check at c - 1 has accepted it with this state of the new law. -/
  prep : Option LawState := none
  deriving DecidableEq, Repr

/-- The profile generator of a joint (R197, R198): the motion from `t0` on, as jerks held for
plan-time durations in 2^-16 ns, and the point of rest it ends at. -/
structure ProfGen where
  q : Int := 0
  dq : Int := 0
  ddq : Int := 0
  t0 : Nat := 0
  segs : List (Nat × Int) := []
  final : Int := 0
  /-- The generator drives or has been entered. -/
  on : Bool := false
  deriving DecidableEq, Repr

/-- A host path slowed by a PATH_STOP (R653): sigma in 2^-30, sigma times scale, stop time, E. -/
structure HostStop where
  sigma : Int
  sigmaS : Int
  tauH : Nat
  entry : List W32
  /-- The first cycle of the stop has run. -/
  begun : Bool := false
  deriving DecidableEq, Repr

/-- A plan slowed by a PATH_STOP (R100, R209): a cycle, the joint's time on the plan at its start in
2^-16 ns, its time-scale there in 2^-30 and the fall of the scale per cycle. A cycle still to come is the
last target queued when the stop began: the plan runs unslowed up to it. -/
structure PathStop where
  cyc : W32
  tau : Nat
  sigma : Int
  fall : Int
  deriving DecidableEq, Repr

/-- What the image says of a joint's service (R10-R15, R184, R187, R652). -/
structure JointCfg where
  arm : Nat := 0
  cluster : Nat := 0
  engine : Nat := 0
  slot : Nat := 0
  period : Nat := 1
  phase : Nat := 0
  classF : Bool := false
  /-- JNT_CLASS in units of 16 ns. -/
  fStart : BitVec 14 := 0
  fOut : BitVec 14 := 0
  /-- Drive output type is VELOCITY. -/
  outVel : Bool := false
  /-- Base of the library parameter block in the engine's data partition. -/
  lawBase : Nat := 0
  /-- The engine runs the Ittis library program for this joint (R181). -/
  library : Bool := false
  /-- QS_TMAX in ms (R210). -/
  qsTmaxMs : Nat := 10
  /-- Lane, node and JIDX of the drive (R375). -/
  lane : Nat := 0
  node : Nat := 0
  jidx : Nat := 0
  deriving DecidableEq, Repr

/-- A joint (R180-R219, R653, R654). -/
structure Joint where
  used : Bool := false
  cfg : JointCfg := {}
  /-- The registers as written, and as in force since the last boundary (R213). -/
  regs : JointRegs := {}
  act : JointRegs := {}
  /-- JNT_MODE_REQ.MODE, SOURCE and BLEND as last written. -/
  reqMode : BitVec 2 := 0
  reqSource : BitVec 2 := 0
  reqBlend : BitVec 5 := 8
  mode : BitVec 2 := 0
  source : BitVec 2 := 0
  stop : BitVec 2 := 0
  stopped : Bool := false
  atRest : Bool := false
  blending : Bool := false
  extrap : Bool := false
  contact : Bool := false
  forceOk : Bool := false
  pgBusy : Bool := false
  plausWarn : Bool := false
  handoverSat : Bool := false
  tauSkew : Bool := false
  persistCnt : Byte := 0
  /-- Position and velocity used this cycle, Q11.20 (JNT_POS, JNT_VEL). -/
  pos : W32 := 0
  vel : W32 := 0
  /-- JNT_U, JNT_RESID. -/
  u : W32 := 0
  resid : W32 := 0
  /-- CNT_HANDOVER, CNT_HO_REFUSED, CNT_PL_WARN, CNT_PL_FAULT, CNT_TAU_SKEW, CNT_EXTRAP,
  CNT_F_OVERRUN, CNT_STOPS. -/
  cnt : Vector W32 8 := Vector.replicate 8 0
  law : LawState := {}
  out : LawOut := {}
  sp : SetPt := {}
  blend : Option Blend := none
  req : Option HoReq := none
  pg : ProfGen := {}
  /-- The motion that the present one replaced: it holds for plan times before the present one's start (R197). -/
  pgPrev : Option ProfGen := none
  host : Option HostStop := none
  /-- The last committed host entry E (R653). -/
  hostE : List W32 := [0, 0, 0, 0]
  /-- Newest fresh feedback: position, velocity, current in Q1.14, and its cycle. -/
  fbPos : W32 := 0
  fbVel : W32 := 0
  fbCur : W16 := 0
  fresh : Option W32 := none
  /-- Cycle in which the law last ran. -/
  ran : Option W32 := none
  /-- Consecutive underruns of the feedback, k of R203. -/
  lost : Nat := 0
  /-- Drive enable (R652). -/
  en : Bool := false
  /-- Consecutive cycles with |v| at or below STILL_VEL (R208). -/
  restCnt : Nat := 0
  /-- The joint brakes outside plan time (R193). -/
  braking : Bool := false
  /-- Time of the start of the stop in force. -/
  stopNs : W32 := 0
  /-- The supervisor's prediction: cycle it is for and q_p (R200). -/
  pred : Option (W32 × Int) := none
  /-- Boundaries until the supervisor works again after a restart or takeover (R202). -/
  plSkip : Nat := 0
  /-- A PATH_STOP on a plan (R100, R209). -/
  path : Option PathStop := none
  /-- FB_LOST and PLAUS_FAULT have been taken for the condition in force. -/
  fbLostDone : Bool := false
  plausDone : Bool := false
  /-- A judgement has taken PERSIST_CNT to PERSIST (R201). -/
  plausDue : Bool := false
  /-- FORCE_SP has been written since the last boundary (R186). -/
  spWritten : Bool := false
  deriving DecidableEq, Repr

end Sys2Proof.Machine
end

