-- ==== Sys2Proof/Machine/Block/Payload.lean ====
section
/-! DEFINITION. The loop engine's instructions as decoded (chapter 10), and what else commands
carry. -/

namespace Sys2Proof.Machine

/-- The address modes of R307 and R328. The immediate is the 17-bit one of format M; formats V and
S hold 12 and 10 bits of it. -/
inductive AMode where
  | plain
  | offset (imm : BitVec 17)
  | postReg (mj : Fin 8)
  | postImm (imm : BitVec 17)
  deriving DecidableEq, Repr

/-- A memory operand: an address register and its mode. -/
structure MemOp where
  pk : Fin 8
  mode : AMode
  deriving DecidableEq, Repr

/-- The register classes of AMOV; the order is the code of field cls (R329). -/
inductive ACls where
  | p
  | m
  | b
  | l
  deriving DecidableEq, Repr

/-- An instruction of a loop engine (R329-R346). -/
inductive EngOp where
  | add (xd xa xb : Fin 16)
  | sub (xd xa xb : Fin 16)
  | and (xd xa xb : Fin 16)
  | or (xd xa xb : Fin 16)
  | xor (xd xa xb : Fin 16)
  | cmp (xa xb : Fin 16)
  | min (xd xa xb : Fin 16)
  | max (xd xa xb : Fin 16)
  | abs (xd xa : Fin 16)
  | neg (xd xa : Fin 16)
  | mov (xd xa : Fin 16)
  | sll (xd xa xb : Fin 16)
  | sra (xd xa xb : Fin 16)
  | srl (xd xa xb : Fin 16)
  | slli (xd xa : Fin 16) (sh : BitVec 6)
  | srai (xd xa : Fin 16) (sh : BitVec 6)
  | srli (xd xa : Fin 16) (sh : BitVec 6)
  | expx (xd xa : Fin 16)
  | norm (xd xc xa : Fin 16)
  | addi (xd xa : Fin 16) (imm : BitVec 18)
  | andi (xd xa : Fin 16) (imm : BitVec 18)
  | ori (xd xa : Fin 16) (imm : BitVec 18)
  | xori (xd xa : Fin 16) (imm : BitVec 18)
  | cmpi (xa : Fin 16) (imm : BitVec 18)
  | movi (xd : Fin 16) (imm : BitVec 22)
  | movh (xd : Fin 16) (imm : BitVec 16)
  | ld (xd : Fin 16) (mem : MemOp)
  | st (xs : Fin 16) (mem : MemOp)
  | pmod (mem : MemOp)
  | muln (xd xa xb : Fin 16) (sh : BitVec 6)
  /-- MAC, or MSU with `neg`; `z` is the suffix .Z. -/
  | mac (neg z : Bool) (accd : Fin 4) (xa xb : Fin 16)
  | qmac (neg z : Bool) (xa : Fin 16) (mem : MemOp)
  /-- DMAC, or DMSU with `neg`: the pair x(2·pair), x(2·pair+1); `hi` selects acc2 and acc3. -/
  | dmac (neg z : Bool) (hi : Bool) (pair : Fin 8) (mem : MemOp)
  | clra (accd : Fin 4)
  | mova (neg : Bool) (accd : Fin 4) (xa : Fin 16) (sh : BitVec 6)
  | adda (neg : Bool) (accd accs : Fin 4)
  | shra (accd : Fin 4) (sh : BitVec 6)
  | shla (accd : Fin 4) (sh : BitVec 6)
  | cpya (accd accs : Fin 4)
  | expxAcc (xd : Fin 16) (accd : Fin 4)
  | normAcc (accd : Fin 4) (xc : Fin 16)
  | nrw (xd : Fin 16) (acc : Fin 4) (sh : BitVec 6)
  | nst (acc : Fin 4) (sh : BitVec 6) (mem : MemOp)
  | amov (cls : ACls) (k : Fin 8) (imm : BitVec 20)
  | mfs (xd : Fin 16) (sreg : BitVec 6)
  | mts (sreg : BitVec 6) (xa : Fin 16)
  | branch (cond : BitVec 4) (target : BitVec 12)
  | call (target : BitVec 12)
  | ret
  | loop (lvl : Fin 2) (last : BitVec 12)
  | loopi (lvl : Fin 2) (cnt : BitVec 12) (last : BitVec 12)
  | waitq (qp : Fin 16)
  | getq (xd : Fin 16) (qp : Fin 16)
  | putq (xs : Fin 16) (qp : Fin 16) (last : Bool)
  | time (xd : Fin 16)
  | cairn
  | sig (imm : BitVec 16)
  | endRun (imm : BitVec 16)
  | nop
  deriving DecidableEq, Repr

end Sys2Proof.Machine
end

