-- ==== Sys2Proof/Machine/Block/Engine.lean ====
section
/-! DEFINITION. A loop engine: registers, run, ports and counters (chapter 09). -/

namespace Sys2Proof.Machine

/-- What a queue port of an engine holds during a run (R310, R344, R345). -/
structure PortRun where
  /-- WAITQ has delivered a group or a substitute in this run. -/
  waited : Bool := false
  /-- It was a substitute. -/
  sub : Bool := false
  /-- QAGE that WAITQ wrote. -/
  age : Byte := 0
  /-- The words of the group or substitute, and how many GETQ has read. -/
  words : List W32 := []
  next : Nat := 0
  /-- The words of the entry being built. -/
  build : List W32 := []
  /-- The credit taken for it: the epoch it carries. -/
  credit : Option Byte := none
  deriving DecidableEq, Repr

/-- What an engine waits for. -/
inductive EngWait where
  | none
  /-- In WAITQ on a port (R311). -/
  | group (qp : Fin 16)
  /-- In PUTQ without a credit (R156). -/
  | credit (xs qp : Fin 16) (last : Bool)
  /-- In PUTQ with an entry beyond the lookout window (R157). -/
  | lookout (qp : Fin 16) (last : Bool)
  /-- The library program has computed and its output groups wait for credits: queue, target and
  payloads of each (R156). -/
  | library (outs : List (Nat × W16 × List (List W32)))
  deriving DecidableEq, Repr

/-- The flags of R300. -/
structure Flg where
  z : Bool := false
  n : Bool := false
  v : Bool := false
  c : Bool := false
  s : Bool := false
  crv : Bool := false
  q : Bool := false
  deriving DecidableEq, Repr

/-- The registers a program sees (R299); after image load all 0 but EMODE.SAT (R296). -/
structure EngRegs where
  x : Vector W32 16 := Vector.replicate 16 0
  acc : Vector (BitVec 72) 4 := Vector.replicate 4 0
  p : Vector (BitVec 20) 8 := Vector.replicate 8 0
  m : Vector (BitVec 20) 8 := Vector.replicate 8 0
  b : Vector (BitVec 20) 8 := Vector.replicate 8 0
  l : Vector (BitVec 20) 8 := Vector.replicate 8 0
  lc : Vector W16 2 := Vector.replicate 2 0
  flg : Flg := {}
  /-- EMODE.RND: true truncates. -/
  rnd : Bool := false
  /-- EMODE.SAT: true saturates. -/
  sat : Bool := true
  qage : Byte := 0
  cfs : W16 := 0
  rcyc : W32 := 0
  /-- RINFO (R298). -/
  first : Bool := false
  resumed : Bool := false
  deriving DecidableEq, Repr

/-- When results become usable, as CLK_ENG cycles of the run (R320, R338). -/
structure Hazards where
  /-- Earliest issue cycle of the next instruction. -/
  now : Nat := 0
  x : Vector Nat 16 := Vector.replicate 16 0
  /-- Address generation with index k of the p, m, b and l registers. -/
  p : Vector Nat 8 := Vector.replicate 8 0
  m : Vector Nat 8 := Vector.replicate 8 0
  b : Vector Nat 8 := Vector.replicate 8 0
  l : Vector Nat 8 := Vector.replicate 8 0
  /-- An accumulator read by an accumulation, and read otherwise. -/
  accM : Vector Nat 4 := Vector.replicate 4 0
  accV : Vector Nat 4 := Vector.replicate 4 0
  emode : Nat := 0
  lc : Vector Nat 2 := Vector.replicate 2 0
  deriving DecidableEq, Repr

/-- An active loop level: first and last index of its body (R317, R342). -/
structure LoopRec where
  first : BitVec 12
  last : BitVec 12
  deriving DecidableEq, Repr

/-- A loop engine (R292-R326). -/
structure Engine where
  regs : EngRegs := {}
  pc : BitVec 12 := 0
  /-- A run is in progress. -/
  running : Bool := false
  /-- ENG_STATUS.REPLAY. -/
  replay : Bool := false
  /-- The run is a shadow run of a die takeover (R478). -/
  shadow : Bool := false
  /-- The tick at which the run started, and the one at which a PUTQ began to wait for its credit (R319, R321). -/
  startPer : Nat := 0
  stallAt : Nat := 0
  /-- The return stack, top first (R341). -/
  stack : List (BitVec 12) := []
  loop0 : Option LoopRec := none
  loop1 : Option LoopRec := none
  ports : Vector PortRun 16 := Vector.replicate 16 {}
  wait : EngWait := .none
  /-- The newest CAIRN snapshot of the run (R314). -/
  snapshot : Option (List Byte) := none
  /-- The control state of a library program in that snapshot (R650). -/
  snapLaw : CairnState := {}
  hz : Hazards := {}
  /-- The first run after image load has yet to come (R298). -/
  fresh : Bool := false
  /-- The next normal run is the first after a takeover (R298). -/
  resume : Bool := false
  /-- No run is made in the next cycle: its program or data are replaced in it (R507). -/
  skipRun : Bool := false
  /-- ENG_CFG.ENTRY and DL in units of 16 ns. -/
  entry : BitVec 12 := 0
  dl : BitVec 14 := 0
  /-- ENG_WRUN in ns. -/
  wRun : BitVec 24 := 0
  rm0 : W32 := 0
  rm1 : W32 := 0
  rng : Vector W32 4 := Vector.replicate 4 0
  /-- ENG_CAIRN_SIZE. -/
  size : BitVec 10 := 0
  stickyS : Bool := false
  stickyCrv : Bool := false
  faultPc : BitVec 12 := 0
  faultCause : BitVec 3 := 0
  runCyc : W32 := 0
  runMax : W32 := 0
  /-- CNT_RUNS, CNT_WAIT_CYC, CNT_BANK, CNT_ECC_CORR, CNT_REPLAY, CNT_REPLAY_SKIP. -/
  cnt : Vector W32 6 := Vector.replicate 6 0
  replaySkip : Bool := false
  /-- ENG_STATUS.ROLE, reset 0xFFFF. -/
  role : W16 := 0xFFFF
  /-- CYC of the last ENG_ECC_CORR record (R326). -/
  eccRec : Option W32 := none
  deriving DecidableEq, Repr

/-- What the image says of a queue port of a role (R310-R312, R496). -/
structure PortDecl where
  eng : Nat
  port : Nat
  queue : Nat
  waitNs : Nat
  tofs : Nat
  deriving DecidableEq, Repr

/-- A queue port binding of a role (R310-R312): its end, F_START and group size follow from the queue. -/
structure PortBind where
  /-- Role engine 0-79 and port 0-15. -/
  eng : Nat
  port : Nat
  queue : Nat
  /-- The engine is the consumer end. -/
  consumer : Bool
  waitNs : Nat
  tofs : Nat
  /-- F_START in ns of a class F port (R311). -/
  fStart : Option Nat
  /-- Entries of a group of the queue, for a substitute before any group (R310). -/
  entries : Nat
  deriving DecidableEq, Repr

end Sys2Proof.Machine
end

