-- ==== Sys2Proof/Machine/Block/Image.lean ====
section
/-! DEFINITION. The cell image as the loader parses it, and the loader's registers (chapter 16).

R493-R495, R497, R499 and R627 give the bytes of the container, the register records, the signature
block and the ball records. The manual gives no byte layout of the CELL, POWER, QUEUE and GEOM contents,
of the port functions in PINS, nor of the PROG header; what those sections say is the plain data below
(log entry 8). -/

namespace Sys2Proof.Machine

/-- One joint of the CELL section (R10, R12, R15, R187, R652). -/
structure JointDecl where
  joint : Nat
  arm : Nat
  cluster : Nat
  engine : Nat
  slot : Nat
  /-- Position loop period P in cycles (R15). -/
  period : Nat
  /-- Class F; false: class A (R187). -/
  classF : Bool
  /-- F_START and F_OUT in ns (R187). -/
  fStart : Nat
  fOut : Nat
  /-- Output type code of R652. -/
  outType : Nat
  /-- Lane, node and JIDX of its drive (R361, R379). -/
  lane : Nat
  node : Nat
  jidx : Nat
  /-- Base of the library law's parameter block (R184), and whether the engine runs that law. -/
  lawBase : Nat
  library : Bool
  /-- QS_TMAX in ms (R210). -/
  qsTmaxMs : Nat
  deriving DecidableEq, Repr

/-- One small axis of the CELL section (R13, R187). -/
structure AxisDecl where
  axis : Nat
  cluster : Nat
  engine : Nat
  fStart : Nat
  fOut : Nat
  /-- The owner's program is the Ittis library program, with the thermal parameters at this base (R235). -/
  library : Bool := false
  thermBase : Nat := 0
  deriving DecidableEq, Repr

/-- The CELL section (R496). -/
structure CellSec where
  /-- T_c in ns (R38). -/
  tc : Nat := 31250
  nodeId : Nat := 0
  joints : List JointDecl := []
  axes : List AxisDecl := []
  /-- Period family of each cluster: base period B and base phase (R15). -/
  families : List (Nat × Nat) := []
  deriving DecidableEq, Repr

/-- A ball record of the PINS section (R627). -/
structure BallRec where
  row : Nat
  col : Nat
  /-- USE: the ball carries its signal. -/
  use : Bool
  /-- PULL: 0 the pull of R623, 1 none, 2 PU, 3 PD. -/
  pull : Nat
  /-- DRIVE: 0 4 mA, 1 8 mA, 2 12 mA. -/
  drive : Nat
  /-- SLEW: fast. -/
  fast : Bool
  /-- The reserved bits of the record. -/
  rsvd : Nat
  deriving DecidableEq, Repr

/-- The PINS section: functions of ports and I/O options (R14, R496, R627). -/
structure PinsSec where
  lanes : List Nat := []
  cans : List Nat := []
  eths : List Nat := []
  axes : List Nat := []
  encs : List Nat := []
  /-- MAC addresses of the four time ports: die A ETH0, ETH1, die B ETH0, ETH1 (R431). -/
  macs : List (List Byte) := []
  /-- IPv4 addresses of the four time ports in the same order (R430). -/
  ips : List (List Byte) := []
  /-- domainNumber of PTP (R432). -/
  ptpDomain : Nat := 0
  /-- SEP_UDP_PORT (R430). -/
  sepUdpPort : Nat := 0
  /-- UIDs of the objects a node lane commands, by lane (R42, R363). -/
  nodeObjs : List (Nat × List W16) := []
  /-- Ports the section names more than once: a breach of R14. -/
  twice : List W16 := []
  /-- The ball records (R627). -/
  balls : List BallRec := []
  deriving DecidableEq, Repr

/-- One domain of the POWER section: state at load (code of REQ) and WOA (R496, R553). -/
structure PowerDecl where
  dom : Nat
  req : Nat
  woa : Bool
  deriving DecidableEq, Repr

/-- A role's PROG and DATA sections (R313, R496): the program header and what its partitions hold. -/
structure RoleProg where
  /-- Role engine 0-79. -/
  role : Nat
  entry : BitVec 12 := 0
  dl : BitVec 14 := 0
  wRun : BitVec 24 := 0
  rm0 : W32 := 0
  rm1 : W32 := 0
  rng : Vector W32 4 := Vector.replicate 4 0
  size : BitVec 10 := 0
  /-- The buffers the program declares: base and length (R309). -/
  bufs : List (Nat × Nat) := []
  /-- The instruction words, as bytes. -/
  code : List Byte := []
  /-- Initial data: offset in the data partition and bytes. -/
  data : List (Nat × List Byte) := []
  deriving DecidableEq, Repr

/-- The states of the loader; the order is the code of IMG_STATUS.STATE (R509, R513). -/
inductive ImgState where
  | empty
  | running
  | check
  | place
  | staged
  | applying
  deriving DecidableEq, Repr

/-- A section of an image: its place in the table, TYPE, INST, offset in the image, ADDR and content
(R494). -/
structure ImgSec where
  idx : Nat
  type : Nat
  inst : Nat
  ofs : Nat
  addr : Nat
  body : List Byte
  deriving DecidableEq, Repr

/-- The loader and its registers (R502-R514). -/
structure ImageUnit where
  state : ImgState := .empty
  /-- IMG_STATUS.PASS. -/
  pass2 : Bool := false
  pushReady : Bool := false
  /-- The die's clock when PUSH_READY was last set. -/
  readyAt : Nat := 0
  done : Bool := false
  result : Byte := 0
  errRule : W16 := 0
  errUid : W16 := 0
  errPos : BitVec 24 := 0
  errSec : Byte := 0
  /-- IMG_APPLY_CYC. -/
  applyCyc : W32 := 0
  /-- IMG_CTRL.AT. -/
  atCyc : Bool := false
  /-- IMG_CTRL.SRC. -/
  src : BitVec 2 := 0
  pushBase : BitVec 28 := 0
  /-- IMG_SVN. -/
  svn : BitVec 7 := 0
  /-- IMG_ID. -/
  id : List Byte := List.replicate 48 0
  /-- IMG_STAGED. -/
  stagedId : List Byte := List.replicate 48 0
  /-- CNT_LOADS, CNT_REFUSED, CNT_APPLIED. -/
  cnt : Vector W32 3 := Vector.replicate 3 0
  /-- T_c, node ID, joints, axes and families of the image in force. -/
  cell : CellSec := {}
  /-- Queue port bindings of the image in force (R310). -/
  ports : List PortBind := []
  /-- The pins of the image in force. -/
  pins : PinsSec := {}
  /-- The sections of the image in force, as placed and updated since (R505). -/
  secs : List ImgSec := []
  /-- The flash copy that a load from flash reads (R519, R522). -/
  copy : Bool := false
  /-- The bytes pushed in the pass that runs (R508). -/
  buf : List Byte := []
  /-- The POWER section of the image that pass 2 places. -/
  power : List PowerDecl := []
  /-- Digest and section CRCs that pass 1 found (R503). -/
  digest1 : List Byte := []
  crcs1 : List W32 := []
  /-- The staged update (R506). -/
  staged : List Byte := []
  /-- Cycle k of the APPLY in progress. -/
  applyK : W32 := 0
  /-- The GEOM section of an update, which the next monitor period takes (R507). -/
  geomNext : Option (List Byte) := none
  /-- The image copy of every role's partitions in shared die SRAM (R315, R468). -/
  progs : List RoleProg := []
  deriving DecidableEq, Repr

end Sys2Proof.Machine
end

