-- ==== Sys2Proof/Machine/Block/Power.lean ====
section
/-! DEFINITION. Power domains, clocks, boot, fuses and debug of one die (chapters 17 and 18). -/

namespace Sys2Proof.Machine

/-- The states of a power domain; the order is the code of PWR_DOM_STAT.STATE (R545, R560). -/
inductive DomState where
  | off
  | waking
  | on
  | ret
  | unavailable
  deriving DecidableEq, Repr

/-- Who made an access to a sleeping domain; the order is the code of PWR_ASLEEP_SRC (R556). -/
inductive Initiator where
  | pcie
  | core
  | smbus
  | dma
  deriving DecidableEq, Repr

/-- An access stalled on a wake-on-access (R553). -/
structure Stalled where
  initiator : Initiator
  /-- It came through the SMBus, the recovery function or a core: who is answered. -/
  src : Source
  /-- A BAR2 offset; false: a BAR0 offset. -/
  bar2 : Bool
  addr : W32
  /-- Bytes read. -/
  len : Nat
  /-- The bytes written, none where a byte enable is clear; none for a read. -/
  data : Option (List (Option Byte))
  /-- The DMA channel, for a DMA access. -/
  chan : Fin 4 := 0
  /-- The die's clock at the access. -/
  since : Nat := 0
  deriving DecidableEq, Repr

/-- One power domain (R545, R559, R560). -/
structure Domain where
  state : DomState := .off
  /-- PWR_DOM_CTRL.REQ. -/
  req : BitVec 2 := 0
  /-- PWR_DOM_CTRL.WOA. -/
  woa : Bool := false
  /-- PWR_DOM_STAT.LOST. -/
  lost : Bool := false
  /-- PWR_DOM_STAT.ATTEMPTS. -/
  attempts : BitVec 3 := 0
  /-- The power switch is closed (R545). -/
  closed : Bool := false
  /-- The die's clock when the switch closed or opened for the attempt in progress. -/
  since : Nat := 0
  /-- A return from RET to the core rail is in progress (R545: clocks restart within 50 µs). -/
  resuming : Bool := false
  /-- The clocks of the domain stand still after a loss of the clock root (R550). -/
  clockStopped : Bool := false
  /-- Accesses stalled by a wake-on-access, oldest first (R553). -/
  stalled : List Stalled := []
  deriving DecidableEq, Repr

/-- The PWR registers and the domains (R541-R546, R551-R560). -/
structure Power where
  doms : Vector Domain 36 := Vector.replicate 36 {}
  /-- Domains that a request for ON still has to wake after the one now waking (R544). -/
  wakeQueue : List Nat := []
  /-- PWR_CTRL.LP_REQ. -/
  lpReq : Bool := false
  /-- PWR_STATUS.LP. -/
  lp : Bool := false
  /-- PWR_STATUS.AON_BOR. -/
  aonBor : Bool := false
  /-- PWR_STATUS.HOLD_CAUSE. -/
  holdCause : BitVec 2 := 0
  /-- PWR_AON_ILOAD in mA. -/
  iLoad : BitVec 10 := 0
  /-- PWR_ASLEEP_LOG. -/
  logAddr : W32 := 0
  /-- PWR_ASLEEP_SRC domain index. -/
  logDom : BitVec 6 := 0
  /-- PWR_ASLEEP_SRC initiator. -/
  logInit : BitVec 2 := 0
  /-- PWR_ASLEEP_SRC.VALID. -/
  logValid : Bool := false
  /-- CNT_ASLEEP, CNT_WOA, CNT_WOA_TIMEOUT, CNT_WAKE_RETRY. -/
  cnt : Vector W32 4 := Vector.replicate 4 0
  deriving DecidableEq, Repr

/-- The clock root (R547-R550, R561, R562). -/
structure Clock where
  /-- CLK_CTRL.PLL_EN. -/
  pllEn : Bool := false
  /-- CLK_CTRL.SEL as written. -/
  selReq : Bool := false
  /-- CLK_STATUS.LOCK. -/
  lock : Bool := false
  /-- CLK_STATUS.SEL: true when the PLL is in force. -/
  sel : Bool := false
  /-- CLK_STATUS.PLL_FAIL. -/
  pllFail : Bool := false
  /-- CLK_STATUS.REF_LOSS. -/
  refLoss : Bool := false
  /-- CLK_STATUS.PLL_ATTEMPTS. -/
  attempts : BitVec 3 := 0
  /-- The PLL runs from REFCLK and has not locked yet, or has locked; false: stopped. -/
  pllRunning : Bool := false
  /-- The die's clock when the attempt in progress started or stopped. -/
  since : Nat := 0
  /-- The internal RC oscillator runs; LP mode stops it (R551). -/
  irc : Bool := false
  deriving DecidableEq, Repr

/-- What holds a die in reset (R640, R641). -/
structure ResetPins where
  /-- `POR_N` and `WRST_N` are low. -/
  por : Bool := false
  wrst : Bool := false
  /-- The detectors of VDD_CORE, VDD_SRAM and VDD_1V8 that read low. -/
  low : Vector Bool 3 := Vector.replicate 3 false
  /-- SYS_BOOT_CAUSE.RESET of the start that ends the reset: 0 cold, 1 by `WRST_N`. -/
  cause : Nat := 0
  deriving DecidableEq, Repr

/-- Where a die stands in R522. -/
inductive BootPhase where
  /-- Held in reset by `POR_N`, `WRST_N`, a supply detector or R546. -/
  | reset
  /-- A start has begun; its essential domains are waking (R541, R545). -/
  | starting
  /-- Steps 1 to 5: the boot ROM reads and verifies firmware. -/
  | rom
  /-- Steps 6 to 8: firmware runs under the boot watchdog. -/
  | firmware
  /-- BOOT_OK has been written. -/
  | complete
  /-- A failed start, before its self-restart (R524). -/
  | failed
  /-- Minimal mode (R526). -/
  | minimal
  deriving DecidableEq, Repr

/-- The boot registers (R522-R529). -/
structure Boot where
  phase : BootPhase := .reset
  /-- BOOT_TRIES (R525). -/
  tries : BitVec 3 := 0
  /-- SYS_BOOT_CAUSE.RESET. -/
  cause : BitVec 4 := 0
  /-- SYS_BOOT_CAUSE.MINIMAL. -/
  minimal : Bool := false
  /-- SYS_BOOT_CAUSE.LAST_FAIL. -/
  lastFail : Byte := 0
  /-- SYS_BOOT_CAUSE.TRIES. -/
  causeTries : BitVec 3 := 0
  /-- SYS_BOOT_CAUSE.FW_COPY. -/
  fwCopy : Bool := false
  /-- SYS_BOOT_CAUSE.SRC: `BOOT_SEL` at the last `POR_N`. -/
  src : Bool := false
  /-- SYS_FLASH_PAGE. -/
  flashPage : BitVec 12 := 0
  /-- The die's clock when the boot watchdog started (R522). -/
  wdAt : Nat := 0
  /-- SVN of the running firmware (R520, R535). -/
  fwSvn : Byte := 0
  /-- ENTRY of the running firmware (R520). -/
  fwEntry : W32 := 0
  /-- Slots whose keys signed the running firmware: ECDSA, then LMS. -/
  fwSlots : Nat × Nat := (0, 0)
  /-- The PCIe recovery function is open for a firmware push (R522 step 4b). -/
  fwPush : Bool := false
  /-- The firmware as the host has pushed it so far (R508, R522). -/
  fwBuf : List Byte := []
  /-- An AON brown-out awaits its DEGRADE record at BOOT_OK (R551). -/
  borPending : Bool := false
  /-- A reset met the start before BOOT_OK; recorded at the next start (R524). -/
  resetInBoot : Bool := false
  /-- Boot records that wait for a running QSPI command (R585). -/
  recWait : List (List Byte) := []
  deriving DecidableEq, Repr

/-- The operations of the security block; the order is the code of SEC_STATUS.STATE (R539). -/
inductive SecState where
  | idle
  | attest
  | token
  | burn
  | claim
  deriving DecidableEq, Repr

/-- Fuses, identity, attestation, tokens and debug scopes (R516-R518, R530-R540). -/
structure Security where
  /-- Key hash slots, ECDSA 0-3 then LMS 0-3; all zero: unprogrammed. -/
  keyHash : Vector (List Byte) 8 := Vector.replicate 8 (List.replicate 48 0)
  /-- Revocation bits, one per slot. -/
  revoked : Vector Bool 8 := Vector.replicate 8 false
  /-- Burned bits of the security version thermometer: the fused version (R517). -/
  fused : Nat := 0
  /-- Burned LMS claim bits (R536). -/
  claimed : Nat := 0
  /-- Leaves used of the current bottom tree; none: no current tree. -/
  leaves : Option Nat := none
  /-- SEC_SVN_TARGET. -/
  svnTarget : BitVec 7 := 0
  /-- SEC_CHALLENGE. -/
  challenge : List Byte := List.replicate 16 0
  /-- SEC_FW_ID. -/
  fwId : List Byte := List.replicate 48 0
  /-- SEC_ATT_NONCE. -/
  nonce : Vector Byte 32 := Vector.replicate 32 0
  /-- CNT_REPORTS, CNT_TOKENS, CNT_TOKEN_REFUSED, CNT_TREES_CLAIMED, CNT_TREES_ABANDONED. -/
  cnt : Vector W32 5 := Vector.replicate 5 0
  /-- SEC_TOKEN_BUF, 8 KiB; an unlisted byte reads 0. -/
  tokenBuf : Memory := ⟨[]⟩
  /-- SEC_ATT_BUF: the last report; bytes beyond it read 0. -/
  attBuf : List Byte := []
  /-- SEC_STATUS.STATE. -/
  state : SecState := .idle
  /-- SEC_STATUS.DONE. -/
  done : Bool := false
  /-- SEC_STATUS.RESULT. -/
  result : BitVec 4 := 0
  /-- SEC_STATUS.DBG_NONINV. -/
  nonInv : Bool := false
  /-- SEC_STATUS.DBG_INV. -/
  inv : Bool := false
  /-- SEC_STATUS.LMS_EXHAUSTED. -/
  lmsExhausted : Bool := false
  /-- The WARN record LMS_LOW has been written (R536). -/
  lmsLowDone : Bool := false
  /-- REPORT_SEQ: reports since the last reset (R535). -/
  reportSeq : W32 := 0
  /-- Bytes 0x000-0x0BF of the report being built. -/
  snapshot : List Byte := []
  deriving DecidableEq, Repr

/-- The boundary-scan instruction of a die's TAP controller (R533). -/
inductive JtagInstr where
  | bypass
  | idcode
  | samplePreload
  | extest
  | clamp
  deriving DecidableEq, Repr

/-- The TAP controller of a die (R533). -/
structure Jtag where
  instr : JtagInstr := .idcode
  /-- The boundary register, cell 0 first. -/
  boundary : List Bool := []
  /-- GRANT_REQ has been written on this die since `POR_N`. -/
  grantReqSeen : Bool := false
  deriving DecidableEq, Repr

/-- The directory of the flash (R519): ACTIVE, FW0_OFS, FW1_OFS, IMG0_OFS, IMG1_OFS, REC_OFS. -/
structure FlashDir where
  active : Nat
  fw : Nat × Nat
  img : Nat × Nat
  recOfs : Nat
  deriving DecidableEq, Repr

end Sys2Proof.Machine
end

