-- ==== Sys2Proof/Machine/Block/Solver.lean ====
section
/-! DEFINITION. What the solver array works on: the template record and vectors (R56, R62). -/

namespace Sys2Proof.Machine

/-- The template record of R62. -/
structure Tmpl where
  n : Nat
  m : Nat
  mv : Nat
  h : Nat
  ns : Nat
  nt : Nat
  rs : Nat
  rt : Nat
  vfmt : Nat
  resid : Bool
  warm : Bool
  iterCap : Nat
  checkInt : Nat
  shift : Nat
  deadlineNs : Nat
  epsAbs : W32
  epsRel : W32
  rho0 : W32
  rho1 : W32
  sigma : W32
  alpha : W32
  npb : Nat
  nab : Nat
  rhoInit : Nat
  sig : Nat
  /-- Block maps as bit lists: P by 16 i + j, A by 16 r + c. -/
  pmap : List Bool
  amap : List Bool
  fmt : List Nat
  /-- The array truncates: its unit is in RESET or SELFTEST (R60). -/
  trunc : Bool := false
  deriving DecidableEq, Repr

/-- A vector in block-exponent form (R56). -/
structure BVec where
  m : List Int
  e : Int
  deriving DecidableEq, Repr

/-- What the range monitors have seen (R73, R76). -/
structure SolveStat where
  degraded : Bool := false
  satCnt : Nat := 0
  underflow : Nat := 0
  /-- The array truncates in this solve (R60). -/
  trunc : Bool := false
  deriving DecidableEq, Repr

/-- What the solve record says of a solve's course (R76): iterations, last residuals, monitors. -/
structure SolveSum where
  iters : Nat := 0
  rp : W32 := 0
  rd : W32 := 0
  stat : SolveStat := {}
  converged : Bool := false
  cap : Bool := false
  deriving DecidableEq, Repr

/-- What the array keeps of a factor slot beside its validity (R67): the RHO_s, σ and signature it was
built with, and the cells of P and fixed A it was built from, whose later values act at the next
factorisation only (R66). -/
structure SlotBuild where
  rho : W32
  sigma : W32
  sig : W64
  mats : List Host.Cell
  deriving DecidableEq, Repr

/-- A factor: the lower triangle by rows of nb * 32 elements, and the reciprocals of its diagonal. -/
structure Factor where
  l : Array Int
  recips : Array W32
  deriving DecidableEq, Repr

/-- How a solve ended: the bits of STATUS it decides, its iterates and its factors. -/
structure SolveRes where
  valid : Bool := false
  converged : Bool := false
  cap : Bool := false
  range : Bool := false
  pivot : Bool := false
  boundOrder : Bool := false
  iters : Nat := 0
  stat : SolveStat := {}
  x : BVec := ⟨[], -128⟩
  z : BVec := ⟨[], -128⟩
  y : BVec := ⟨[], -128⟩
  /-- x~ and z~ of the last iteration. -/
  xt : BVec := ⟨[], -128⟩
  zt : BVec := ⟨[], -128⟩
  rp : Rat := 0
  rd : Rat := 0
  /-- Right-hand sides of the inequalities of R70. -/
  rpLim : Rat := 0
  rdLim : Rat := 0
  factor : Option Factor := none
  work : Option Factor := none

/-- Bounds: the finite values, and which are infinite (R47). -/
structure Bounds where
  v : BVec
  inf : List Bool
  deriving DecidableEq, Repr

/-- A solve's constant inputs: template, store words, variable-row bank, vectors, ρ and σ. -/
structure SolveIn where
  t : Tmpl
  s : Nat → Int
  bank : Bool
  q : BVec
  l : Bounds
  u : Bounds
  rho : Rat
  sigma : Rat

end Sys2Proof.Machine
end

