-- ==== Sys2Proof/Machine/Block/Region.lean ====
section
/-! DEFINITION. A region: template, solver array, plan in use (chapters 02 and 03). -/

namespace Sys2Proof.Machine

/-- The states of R105; the order is the code of RGN_STATUS.STATE. -/
inductive RegState where
  | off
  | idle
  | armed
  | solving
  | held
  | tail
  | host
  deriving DecidableEq, Repr

/-- The phases of a solve that R86 and R97 tell apart. -/
inductive SolvePhase where
  | start
  | factor
  | update
  | iterate
  deriving DecidableEq, Repr

/-- How a solve starts (R90). -/
inductive WarmKind where
  | cold
  | plain
  | shifted
  deriving DecidableEq, Repr

/-- A solve armed or running (R82, R84). -/
structure SolveRun where
  /-- Full period number. -/
  period : W32
  spec : Bool
  refactorCmd : Bool
  vbank : Bool
  /-- It has started. -/
  started : Bool := false
  slot : Bool := false
  refactor : Bool := false
  warm : WarmKind := .cold
  warmReject : Bool := false
  cycStart : W32 := 0
  nsStart : W32 := 0
  /-- The verify check has passed, or is not asked. -/
  verified : Bool := false
  /-- The verify check has failed; the squash waits for its squash point. -/
  failed : Bool := false
  /-- It has ended with a valid solution that waits for its check. -/
  ended : Bool := false
  /-- It is due and waits for the power cap (R599). -/
  due : Bool := false
  /-- The power cap has throttled it (R599, R76). -/
  stalled : Bool := false
  /-- Range monitors of its start (R61), and the course of a solve that has ended. -/
  stat : SolveStat := {}
  sum : SolveSum := {}
  deriving DecidableEq, Repr

/-- A plan: state at point -1 and the points 0 to H - 1 of each joint, as Q11.20 position and
velocity and Q15.16 acceleration (R196). -/
structure Plan where
  period : W32
  /-- Plan time at t_j in 2^-16 ns. -/
  tau : Nat
  /-- Steps of 1 ms. -/
  steps : Nat
  joints : List (Nat × List (Int × Int × Int))
  deriving DecidableEq, Repr

/-- The registers that take effect at the next period start (R106). -/
structure RegionCfg where
  specLead : BitVec 20 := 0
  specVmax : W16 := 20000
  tolPos : W32 := 0
  tolVel : W32 := 0
  pin : Bool := false
  pinSlot : Bool := false
  rhoK : BitVec 4 := 5
  minMs : BitVec 4 := 2
  hostReq : Bool := false
  deriving DecidableEq, Repr

/-- One region (R44-R112). -/
structure Region where
  state : RegState := .off
  /-- The registers as written, and as in force since the last period start. -/
  regs : RegionCfg := {}
  act : RegionCfg := {}
  /-- RGN_SOLVE_CMD fields that read back. -/
  cmdSpec : Bool := false
  cmdRefactor : Bool := false
  cmdVbank : Bool := false
  cmdPeriod : W16 := 0
  /-- Slot of the last solve. -/
  cur : Bool := false
  valid0 : Bool := false
  valid1 : Bool := false
  /-- What slots 0 and 1 were built with. -/
  built0 : Option SlotBuild := none
  built1 : Option SlotBuild := none
  nextBuf : Bool := false
  rhoConflict : Bool := false
  commitErr : BitVec 3 := 0
  missConsec : BitVec 4 := 0
  factCyc : W32 := 0
  period : W32 := 0
  /-- Start time of the period, and plan time then in 2^-16 ns. -/
  tj : W32 := 0
  tauJ : Nat := 0
  /-- The deadline of the period has passed. -/
  deadlineDone : Bool := false
  /-- A plan has been published or committed for the period. -/
  published : Bool := false
  /-- The verify check of the period has run. -/
  verifyDone : Bool := false
  /-- The die took the cell over in this period, and does not solve for it (R480). -/
  noSolve : Bool := false
  warmPeriod : W32 := 0
  /-- Warm vectors have been written since the template was loaded (or since RESUME), and by a
  squashed solve. -/
  warmWritten : Bool := false
  warmSquashed : Bool := false
  /-- Signature the warm vectors were written under. -/
  warmSig : W64 := 0
  /-- The slot the next solve is directed to (R94). -/
  adaptTo : Option Bool := none
  /-- CYCLES of the last valid solve. -/
  lastCycles : W32 := 0
  sigLo : W32 := 0
  sigHi : W32 := 0
  /-- CNT_SOLVES, CNT_PUBLISHED, CNT_SQUASH, CNT_VERIFY_STALE, CNT_WARM_REJECT, CNT_WARM_STALE,
  CNT_MISS, CNT_SOLVE_DL, CNT_FACTOR_DL, CNT_RHO_SWITCH, CNT_RHO_DEFER, CNT_RHO_CONFLICT,
  CNT_DEGRADED, CNT_TAIL. -/
  cnt : Vector W32 14 := Vector.replicate 14 0
  /-- RGN_PRED: position and velocity by rank. -/
  pred : Vector (W32 × W32) 32 := Vector.replicate 32 (0, 0)
  run : Option SolveRun := none
  /-- A valid solution waits for the next boundary (R79): its buffer, and whether it is speculative. -/
  toPublish : Option (Bool × Bool) := none
  /-- Joint states sampled at t_j: number, position, velocity. -/
  sampled : List (Nat × W32 × W32) := []
  /-- What the REPLY frames of the cycle that starts at t_j have given (R85): joint, position, velocity. -/
  tjState : List (Nat × W32 × W32) := []
  plan : Option Plan := none
  deriving DecidableEq, Repr

end Sys2Proof.Machine
end

