-- ==== Sys2Proof/Syntax.lean ====
section
/-! DEFINITION. The commands and events of the package: one constructor for each row of the
spec's table, in the table's order. The operands are what the row's rules need to know of it. -/

namespace Sys2Proof

open Machine

inductive Instr where
  /-- CELL_CYCLE_START (R446): TIME_NS reaches the nominal start of the next cell cycle. -/
  | cellCycleStart (d : DieId)
  /-- NODE_ANNOUNCE_RX (R30): a node announce frame arrives: source MAC and payload. -/
  | nodeAnnounceRx (d : DieId) (port : Fin 2) (src : List (BitVec 8)) (payload : List (BitVec 8))
  /-- ARM_SOLVE (R82): RGN_CTRL.ARM of region w with its options and PERIOD. -/
  | armSolve (d : DieId) (w : Fin 4) (spec refactor vbank : Bool) (period : BitVec 16)
  /-- SPEC_SOLVE_START (R105): the speculative start time of an armed solve. -/
  | specSolveStart (d : DieId) (w : Fin 4)
  /-- SOLVE_START (R84): a solve that waits for its period starts. -/
  | solveStart (d : DieId) (w : Fin 4)
  /-- SOLVE_END (R72): the solve in progress ends. -/
  | solveEnd (d : DieId) (w : Fin 4)
  /-- SOLVE_DEADLINE (R97): the deadline of the period passes; the phase and iterations that a running solve has reached. -/
  | solveDeadline (d : DieId) (w : Fin 4) (phase : SolvePhase) (iters : Nat)
  /-- VERIFY_CHECK (R85): the check of a speculative solve at its period start. -/
  | verifyCheck (d : DieId) (w : Fin 4)
  /-- SOLVE_SQUASH (R86): a solve that failed its check reaches the squash point of a phase. -/
  | solveSquash (d : DieId) (w : Fin 4) (phase : SolvePhase) (iters : Nat)
  /-- PLAN_PUBLISH (R79): a finished solution becomes the plan in use. -/
  | planPublish (d : DieId) (w : Fin 4)
  /-- HOST_REQ (R102): a write of RGN_CTRL.HOST_REQ. -/
  | hostReq (d : DieId) (w : Fin 4) (on : Bool)
  /-- RESUME (R101): RGN_CTRL.RESUME. -/
  | resume (d : DieId) (w : Fin 4)
  /-- HOST_COMMIT (R103): RGN_HOST_COMMIT with PERIOD. -/
  | hostCommit (d : DieId) (w : Fin 4) (period : BitVec 16)
  /-- PHASE_S_END (R136): phase S ends; `differ`: the arms whose X and Y results differ. -/
  | phaseSEnd (d : DieId) (differ : BitVec 16)
  /-- PHASE_R_END (R136): phase R ends; `differ`: the regions whose X and Y row sets differ. -/
  | phaseREnd (d : DieId) (differ : BitVec 4)
  /-- SEP_OVERRUN (R136): a pipeline of the monitor has not finished in its period. -/
  | sepOverrun (d : DieId)
  /-- SEP_HOST_SCALE_WRITE (R128): a write of SEP_HOST_SCALE of arm a. -/
  | sepHostScaleWrite (d : DieId) (a : Fin 16) (v : BitVec 16)
  /-- SEP_CLEAR (R137): SEP_CTRL.CLEAR. -/
  | sepClear (d : DieId)
  /-- SENSOR_FRAME (R139): a sensor payload arrives at a time port, `after` ticks on. -/
  | sensorFrame (d : DieId) (payload : List (BitVec 8)) (after : Nat)
  /-- SENSOR_STALE (R140): the newest frame of sensor k exceeds its age limit. -/
  | sensorStale (d : DieId) (k : Fin 16)
  /-- SENSOR_KEY_LOAD (R140): a write of word 3 of a sensor's key. -/
  | sensorKeyLoad (d : DieId) (k : Fin 16) (word3 : BitVec 32)
  /-- PUTQ_STALL_END (R156): a credit has returned to an engine stalled in PUTQ. -/
  | putqStallEnd (d : DieId) (e : Fin 80)
  /-- LOOKOUT_WAIT_END (R157): CYC has advanced far enough for an enqueue that waits for its lookout window. -/
  | lookoutWaitEnd (d : DieId) (e : Fin 80)
  /-- QUEUE_SQUASH (R178): QRC_Q_CMD.SQUASH. -/
  | queueSquash (d : DieId) (q : Fin 1024)
  /-- QUEUE_CLR_CNT (R178): QRC_Q_CMD.CLR_CNT. -/
  | queueClrCnt (d : DieId) (q : Fin 1024)
  /-- QUEUE_CAP_WRITE (R172): a write of QRC_Q_CAP. -/
  | queueCapWrite (d : DieId) (q : Fin 1024) (cap : BitVec 9)
  /-- F_OUT_LATCH (R189): the output time of a class F joint. -/
  | fOutLatch (d : DieId) (j : Fin 128)
  /-- RESTART (R211): JNT_CTRL.RESTART. -/
  | restart (d : DieId) (j : Fin 128)
  /-- PATH_STOP (R209): JNT_CTRL.PATH_STOP. -/
  | pathStop (d : DieId) (j : Fin 128)
  /-- QUICK_STOP (R209): JNT_CTRL.QUICK_STOP. -/
  | quickStop (d : DieId) (j : Fin 128)
  /-- OFF_STOP (R209): JNT_CTRL.OFF_STOP. -/
  | offStop (d : DieId) (j : Fin 128)
  /-- PG_GO (R197): JNT_CTRL.PG_GO. -/
  | pgGo (d : DieId) (j : Fin 128)
  /-- PG_MOVE_DONE (R198): the profile generator has reached its end. -/
  | pgMoveDone (d : DieId) (j : Fin 128)
  /-- MODE_REQ (R204): JNT_MODE_REQ with REQ: mode, source and blend. -/
  | modeReq (d : DieId) (j : Fin 128) (mode source : BitVec 2) (w : BitVec 5)
  /-- HANDOVER_CHECK (R204): the saturation check of a mode request. -/
  | handoverCheck (d : DieId) (j : Fin 128)
  /-- BLEND_END (R206): the blend of a handover has run its cycles. -/
  | blendEnd (d : DieId) (j : Fin 128)
  /-- FORCE_CONTACT (R186): a joint in FORCE mode meets contact. -/
  | forceContact (d : DieId) (j : Fin 128)
  /-- PLAUS_FAULT (R201): the residual has been above its fault limit for its count. -/
  | plausFault (d : DieId) (j : Fin 128)
  /-- FB_LOST (R203): the feedback of the joint is lost. -/
  | fbLost (d : DieId) (j : Fin 128)
  /-- FB_LOST_OFF_STOP (R203): eight more cycles without feedback. -/
  | fbLostOffStop (d : DieId) (j : Fin 128)
  /-- JOINT_AT_REST (R208): the joint has come to rest. -/
  | jointAtRest (d : DieId) (j : Fin 128)
  /-- QSTOP_TIMEOUT (R210): QS_TMAX passes before a stopping joint is at rest. -/
  | qstopTimeout (d : DieId) (j : Fin 128)
  /-- HOST_PATH_STOP_END (R653): the scale of a stopping host path has reached 0. -/
  | hostPathStopEnd (d : DieId) (j : Fin 128)
  /-- SEQ_TICK (R226): a sequencer tick of axis a. -/
  | seqTick (d : DieId) (a : Fin 16)
  /-- AX_MOVE_DONE (R226): the move of the axis has arrived. -/
  | axMoveDone (d : DieId) (a : Fin 16)
  /-- AX_BRAKE_DONE (R245): a braking axis is at rest. -/
  | axBrakeDone (d : DieId) (a : Fin 16)
  /-- BRIDGE_FAULT (R222): the bridge fault input of the axis goes active. -/
  | bridgeFault (a : Fin 16) (low : Bool)
  /-- PWM_PEAK (R230): a PWM period of the axis reaches its peak. -/
  | pwmPeak (d : DieId) (a : Fin 16)
  /-- DRIVE_SET_LATCH (R232): the output time of the axis: its drive set is taken. -/
  | driveSetLatch (d : DieId) (a : Fin 16)
  /-- AMP_HOLD_DELAY_END (R230): HOLD_DELAY has passed since the axis came to rest. -/
  | ampHoldDelayEnd (d : DieId) (a : Fin 16)
  /-- AX_GO (R227): AX_CTRL.GO. -/
  | axGo (d : DieId) (a : Fin 16)
  /-- AX_PATH_STOP (R244): AX_CTRL.PATH_STOP. -/
  | axPathStop (d : DieId) (a : Fin 16)
  /-- AX_QUICK_STOP (R244): AX_CTRL.QUICK_STOP. -/
  | axQuickStop (d : DieId) (a : Fin 16)
  /-- AX_OFF_STOP (R244): AX_CTRL.OFF_STOP. -/
  | axOffStop (d : DieId) (a : Fin 16)
  /-- AX_RESTART (R244): AX_CTRL.RESTART. -/
  | axRestart (d : DieId) (a : Fin 16)
  /-- HOME_GO (R241): AX_CTRL.HOME_GO. -/
  | homeGo (d : DieId) (a : Fin 16)
  /-- HOME_STEP (R242): AX_CTRL.HOME_STEP. -/
  | homeStep (d : DieId) (a : Fin 16)
  /-- AX_CLR_FAULT (R222): AX_CTRL.CLR_FAULT. -/
  | axClrFault (d : DieId) (a : Fin 16)
  /-- AX_POS_SET (R243): a write of AX_POS_SET. -/
  | axPosSet (d : DieId) (a : Fin 16) (v : BitVec 32)
  /-- AX_CMP_ARM (R238): a write of AX_CMP. -/
  | axCmpArm (d : DieId) (a : Fin 16) (v : BitVec 32)
  /-- CMP_PULSE_END (R239): the compare pulse of the axis has lasted its width. -/
  | cmpPulseEnd (d : DieId) (a : Fin 16)
  /-- AX_INPUT_CHANGE (R237): the filtered HOME (0), LIMNEG (1) or LIMPOS (2) input changes; `edge` is AX_POS at the tick of its last raw edge. -/
  | axInputChange (d : DieId) (a : Fin 16) (k : Fin 3) (level : Bool)
  /-- CHATTER_DETECT (R240): the raw transitions of an input exceed CHAT_N. -/
  | chatterDetect (d : DieId) (a : Fin 16) (k : Fin 3)
  /-- ENC_COUNT_EDGE (R258): the pins A and B stand at levels for `n` ticks; the filtered edges of that time count. -/
  | encCountEdge (k : Fin 16) (a b : Bool) (n : Nat)
  /-- ENC_INDEX (R260): the pin I stands at a level for `n` ticks; a filtered rise of that time is an index event. -/
  | encIndex (k : Fin 16) (i : Bool) (n : Nat)
  /-- ENC_SAMPLE_STROBE (R273): the sample time of a port. -/
  | encSampleStrobe (d : DieId) (k : Fin 16)
  /-- SSI_FRAME_START (R266): an SSI frame starts; `ready`: the data line is high. -/
  | ssiFrameStart (d : DieId) (k : Fin 16) (ready : Bool)
  /-- SSI_FRAME_END (R268): the SSI frame in progress ends with its bits and the level after them. -/
  | ssiFrameEnd (d : DieId) (k : Fin 16) (w : BitVec 40) (endHigh : Bool)
  /-- LISTEN_FRAME (R270): a frame of another master is seen whole, `after` ticks on; `mt` is TIME_NS at its first edge. -/
  | listenFrame (d : DieId) (k : Fin 16) (w : BitVec 40) (edges : BitVec 8) (endHigh : Bool) (mt : BitVec 32) (after : Nat)
  /-- LISTEN_TIMEOUT (R272): no good frame for the port's limit. -/
  | listenTimeout (d : DieId) (k : Fin 16)
  /-- EMU_STEP (R281): the quadrature emulator of a port steps. -/
  | emuStep (d : DieId) (k : Fin 16)
  /-- ENC_CLR_FAULT (R284): ENC_CTRL.CLR_FAULT. -/
  | encClrFault (d : DieId) (k : Fin 16)
  /-- ENC_CLR_CNT (R287): ENC_CTRL.CLR_CNT. -/
  | encClrCnt (d : DieId) (k : Fin 16)
  /-- ENC_CNT_SET (R285): a write of ENC_CNT_SET. -/
  | encCntSet (d : DieId) (k : Fin 16) (v : BitVec 32)
  /-- ADD (R331): engine e: add xd, xa, xb. -/
  | add (d : DieId) (e : Fin 80) (xd xa xb : Fin 16)
  /-- SUB (R331): engine e: sub xd, xa, xb. -/
  | sub (d : DieId) (e : Fin 80) (xd xa xb : Fin 16)
  /-- AND (R331): engine e: and xd, xa, xb. -/
  | and (d : DieId) (e : Fin 80) (xd xa xb : Fin 16)
  /-- OR (R331): engine e: or xd, xa, xb. -/
  | or (d : DieId) (e : Fin 80) (xd xa xb : Fin 16)
  /-- XOR (R331): engine e: xor xd, xa, xb. -/
  | xor (d : DieId) (e : Fin 80) (xd xa xb : Fin 16)
  /-- CMP (R331): engine e: cmp xa, xb. -/
  | cmp (d : DieId) (e : Fin 80) (xa xb : Fin 16)
  /-- MIN (R331): engine e: min xd, xa, xb. -/
  | min (d : DieId) (e : Fin 80) (xd xa xb : Fin 16)
  /-- MAX (R331): engine e: max xd, xa, xb. -/
  | max (d : DieId) (e : Fin 80) (xd xa xb : Fin 16)
  /-- ABS (R331): engine e: abs xd, xa. -/
  | abs (d : DieId) (e : Fin 80) (xd xa : Fin 16)
  /-- NEG (R331): engine e: neg xd, xa. -/
  | neg (d : DieId) (e : Fin 80) (xd xa : Fin 16)
  /-- MOV (R331): engine e: mov xd, xa. -/
  | mov (d : DieId) (e : Fin 80) (xd xa : Fin 16)
  /-- SLL (R331): engine e: sll xd, xa, xb. -/
  | sll (d : DieId) (e : Fin 80) (xd xa xb : Fin 16)
  /-- SRA (R331): engine e: sra xd, xa, xb. -/
  | sra (d : DieId) (e : Fin 80) (xd xa xb : Fin 16)
  /-- SRL (R331): engine e: srl xd, xa, xb. -/
  | srl (d : DieId) (e : Fin 80) (xd xa xb : Fin 16)
  /-- SLLI (R331): engine e: slli xd, xa, sh. -/
  | slli (d : DieId) (e : Fin 80) (xd xa : Fin 16) (sh : BitVec 6)
  /-- SRAI (R331): engine e: srai xd, xa, sh. -/
  | srai (d : DieId) (e : Fin 80) (xd xa : Fin 16) (sh : BitVec 6)
  /-- SRLI (R331): engine e: srli xd, xa, sh. -/
  | srli (d : DieId) (e : Fin 80) (xd xa : Fin 16) (sh : BitVec 6)
  /-- EXPX (R331): engine e: expx xd, xa. -/
  | expx (d : DieId) (e : Fin 80) (xd xa : Fin 16)
  /-- NORM (R331): engine e: norm xd, xc, xa. -/
  | norm (d : DieId) (e : Fin 80) (xd xc xa : Fin 16)
  /-- ADDI (R332): engine e: addi xd, xa, imm. -/
  | addi (d : DieId) (e : Fin 80) (xd xa : Fin 16) (imm : BitVec 18)
  /-- ANDI (R332): engine e: andi xd, xa, imm. -/
  | andi (d : DieId) (e : Fin 80) (xd xa : Fin 16) (imm : BitVec 18)
  /-- ORI (R332): engine e: ori xd, xa, imm. -/
  | ori (d : DieId) (e : Fin 80) (xd xa : Fin 16) (imm : BitVec 18)
  /-- XORI (R332): engine e: xori xd, xa, imm. -/
  | xori (d : DieId) (e : Fin 80) (xd xa : Fin 16) (imm : BitVec 18)
  /-- CMPI (R332): engine e: cmpi xa, imm. -/
  | cmpi (d : DieId) (e : Fin 80) (xa : Fin 16) (imm : BitVec 18)
  /-- MOVI (R332): engine e: movi xd, imm. -/
  | movi (d : DieId) (e : Fin 80) (xd : Fin 16) (imm : BitVec 22)
  /-- MOVH (R332): engine e: movh xd, imm. -/
  | movh (d : DieId) (e : Fin 80) (xd : Fin 16) (imm : BitVec 16)
  /-- LD (R333): engine e: ld xd, mem. -/
  | ld (d : DieId) (e : Fin 80) (xd : Fin 16) (mem : MemOp)
  /-- ST (R333): engine e: st mem, xs. -/
  | st (d : DieId) (e : Fin 80) (xs : Fin 16) (mem : MemOp)
  /-- PMOD (R333): engine e: pmod mem. -/
  | pmod (d : DieId) (e : Fin 80) (mem : MemOp)
  /-- MULN (R334): engine e: muln xd, xa, xb, sh. -/
  | muln (d : DieId) (e : Fin 80) (xd xa xb : Fin 16) (sh : BitVec 6)
  /-- MAC (R335): engine e: mac accd, xa, xb; `z`: suffix .Z. -/
  | mac (d : DieId) (e : Fin 80) (z : Bool) (accd : Fin 4) (xa xb : Fin 16)
  /-- MSU (R335): engine e: msu accd, xa, xb; `z`: suffix .Z. -/
  | msu (d : DieId) (e : Fin 80) (z : Bool) (accd : Fin 4) (xa xb : Fin 16)
  /-- QMAC (R335): engine e: qmac xa, mem; `z`: suffix .Z. -/
  | qmac (d : DieId) (e : Fin 80) (z : Bool) (xa : Fin 16) (mem : MemOp)
  /-- QMSU (R335): engine e: qmsu xa, mem; `z`: suffix .Z. -/
  | qmsu (d : DieId) (e : Fin 80) (z : Bool) (xa : Fin 16) (mem : MemOp)
  /-- DMAC (R335): engine e: dmac with the pair of registers from x(2·pair); `hi`: acc2 and acc3. -/
  | dmac (d : DieId) (e : Fin 80) (z hi : Bool) (pair : Fin 8) (mem : MemOp)
  /-- DMSU (R335): engine e: dmsu with the pair of registers from x(2·pair); `hi`: acc2 and acc3. -/
  | dmsu (d : DieId) (e : Fin 80) (z hi : Bool) (pair : Fin 8) (mem : MemOp)
  /-- CLRA (R336): engine e: clra accd. -/
  | clra (d : DieId) (e : Fin 80) (accd : Fin 4)
  /-- MOVA (R336): engine e: mova accd, xa, sh. -/
  | mova (d : DieId) (e : Fin 80) (accd : Fin 4) (xa : Fin 16) (sh : BitVec 6)
  /-- MOVNA (R336): engine e: movna accd, xa, sh. -/
  | movna (d : DieId) (e : Fin 80) (accd : Fin 4) (xa : Fin 16) (sh : BitVec 6)
  /-- ADDA (R336): engine e: adda accd, accs. -/
  | adda (d : DieId) (e : Fin 80) (accd accs : Fin 4)
  /-- SUBA (R336): engine e: suba accd, accs. -/
  | suba (d : DieId) (e : Fin 80) (accd accs : Fin 4)
  /-- SHRA (R336): engine e: shra accd, sh. -/
  | shra (d : DieId) (e : Fin 80) (accd : Fin 4) (sh : BitVec 6)
  /-- SHLA (R336): engine e: shla accd, sh. -/
  | shla (d : DieId) (e : Fin 80) (accd : Fin 4) (sh : BitVec 6)
  /-- CPYA (R336): engine e: cpya accd, accs. -/
  | cpya (d : DieId) (e : Fin 80) (accd accs : Fin 4)
  /-- EXPX_ACC (R336): engine e: expx xd, accd. -/
  | expxAcc (d : DieId) (e : Fin 80) (xd : Fin 16) (accd : Fin 4)
  /-- NORM_ACC (R336): engine e: norm accd, xc. -/
  | normAcc (d : DieId) (e : Fin 80) (accd : Fin 4) (xc : Fin 16)
  /-- NRW (R337): engine e: nrw xd, acc, sh. -/
  | nrw (d : DieId) (e : Fin 80) (xd : Fin 16) (acc : Fin 4) (sh : BitVec 6)
  /-- NST (R337): engine e: nst mem, acc, sh. -/
  | nst (d : DieId) (e : Fin 80) (acc : Fin 4) (sh : BitVec 6) (mem : MemOp)
  /-- AMOV (R339): engine e: amov of a pointer, modifier, base or length register. -/
  | amov (d : DieId) (e : Fin 80) (cls : ACls) (k : Fin 8) (imm : BitVec 20)
  /-- MFS (R339): engine e: mfs xd, sreg. -/
  | mfs (d : DieId) (e : Fin 80) (xd : Fin 16) (sreg : BitVec 6)
  /-- MTS (R339): engine e: mts sreg, xa. -/
  | mts (d : DieId) (e : Fin 80) (sreg : BitVec 6) (xa : Fin 16)
  /-- B (R340): engine e: b.cond target. -/
  | branch (d : DieId) (e : Fin 80) (cond : BitVec 4) (target : BitVec 12)
  /-- CALL (R341): engine e: call target. -/
  | call (d : DieId) (e : Fin 80) (target : BitVec 12)
  /-- RET (R341): engine e: ret. -/
  | ret (d : DieId) (e : Fin 80)
  /-- LOOP (R342): engine e: loop with the count in LC. -/
  | loop (d : DieId) (e : Fin 80) (lvl : Fin 2) (last : BitVec 12)
  /-- LOOPI (R342): engine e: loopi with an immediate count. -/
  | loopi (d : DieId) (e : Fin 80) (lvl : Fin 2) (cnt last : BitVec 12)
  /-- WAITQ (R344): engine e: waitq qp. -/
  | waitq (d : DieId) (e : Fin 80) (qp : Fin 16)
  /-- WAITQ_RESUME (R311): engine e in WAITQ goes on after so many CLK_ENG cycles. -/
  | waitqResume (d : DieId) (e : Fin 80) (cycles : Nat)
  /-- GETQ (R344): engine e: getq xd, qp. -/
  | getq (d : DieId) (e : Fin 80) (xd qp : Fin 16)
  /-- PUTQ (R345): engine e: putq qp, xs; `last`: suffix .LAST. -/
  | putq (d : DieId) (e : Fin 80) (xs qp : Fin 16) (last : Bool)
  /-- TIME (R343): engine e: time xd. -/
  | time (d : DieId) (e : Fin 80) (xd : Fin 16)
  /-- CAIRN (R346): engine e: cairn. -/
  | cairn (d : DieId) (e : Fin 80)
  /-- SIG (R343): engine e: sig imm. -/
  | sig (d : DieId) (e : Fin 80) (imm : BitVec 16)
  /-- END (R343): engine e: end imm. -/
  | endRun (d : DieId) (e : Fin 80) (imm : BitVec 16)
  /-- NOP (R343): engine e: nop. -/
  | nop (d : DieId) (e : Fin 80)
  /-- ENGINE_OVERRUN (R297): the run limit of engine e. -/
  | engineOverrun (d : DieId) (e : Fin 80)
  /-- ENG_CLR_CNT (R324): ENG_CTRL.CLR_CNT. -/
  | engClrCnt (d : DieId) (e : Fin 80)
  /-- SPARE_LOAD_DONE (R469): engine e has loaded the role it was claimed for. -/
  | spareLoadDone (d : DieId) (e : Fin 80)
  /-- BEACON_SEND (R378): lane l: the beacon time of the lane cycle. -/
  | beaconSend (d : DieId) (l : Fin 8)
  /-- POLL_SEND (R380): lane l: entry n of the schedule at its offset, of class POLL. -/
  | pollSend (d : DieId) (l : Fin 8) (n : Fin 64)
  /-- RETPOLL_SEND (R380): lane l: entry n of the schedule at its offset, of class RETPOLL. -/
  | retpollSend (d : DieId) (l : Fin 8) (n : Fin 64)
  /-- ACYC_SEND (R380): lane l: entry n of the schedule at its offset, of class ACYC. -/
  | acycSend (d : DieId) (l : Fin 8) (n : Fin 64)
  /-- IDLE_SEND (R380): lane l: entry n of the schedule at its offset, of class IDLE. -/
  | idleSend (d : DieId) (l : Fin 8) (n : Fin 64)
  /-- REPLY_RX (R368): lane l: a frame, its code groups from SOF to EOF, arrives while a REPLY is awaited; its first SOF bit came at `sof`. -/
  | replyRx (d : DieId) (l : Fin 8) (sof : BitVec 32) (groups : List (BitVec 10))
  /-- ACYC_REPLY_RX (R393): lane l: a frame arrives while an ACYC_REPLY is awaited, or at a lane in BACKUP. -/
  | acycReplyRx (d : DieId) (l : Fin 8) (sof : BitVec 32) (groups : List (BitVec 10))
  /-- REPLY_MISSED (R390): lane l: a reply window ends with no SOF in it. -/
  | replyMissed (d : DieId) (l : Fin 8)
  /-- FRAME_RX_INVALID (R366): lane l: a received frame fails a check. -/
  | frameRxInvalid (d : DieId) (l : Fin 8) (groups : List (BitVec 10))
  /-- BEACON_RX (R386): lane l: a beacon arrives; its first SOF bit came at `sof`. -/
  | beaconRx (d : DieId) (l : Fin 8) (sof : BitVec 32) (groups : List (BitVec 10))
  /-- STARTUP_RX (R386): lane l: a STARTUP arrives. -/
  | startupRx (d : DieId) (l : Fin 8) (groups : List (BitVec 10))
  /-- BEACON_MISSING (R385): lane l: 5 µs have passed since the expected cycle start with no beacon. -/
  | beaconMissing (d : DieId) (l : Fin 8)
  /-- POLL_RX (R363): lane l: a POLL arrives at a node lane. -/
  | pollRx (d : DieId) (l : Fin 8) (groups : List (BitVec 10))
  /-- RETPOLL_RX (R370): lane l: a RETPOLL arrives at a node lane. -/
  | retpollRx (d : DieId) (l : Fin 8) (groups : List (BitVec 10))
  /-- ACYC_RX (R374): lane l: an ACYC arrives at a node lane, or at a lane in BACKUP. -/
  | acycRx (d : DieId) (l : Fin 8) (groups : List (BitVec 10))
  /-- IDLE_RX (R365): lane l: an IDLE arrives. -/
  | idleRx (d : DieId) (l : Fin 8) (groups : List (BitVec 10))
  /-- SOF_DETECTED (R387): lane l: a SOF is detected, `after` ticks on. -/
  | sofDetected (d : DieId) (l : Fin 8) (after : Nat)
  /-- SILENCE_TIMEOUT (R387): lane l: the silence of a lane in SILENT. -/
  | silenceTimeout (d : DieId) (l : Fin 8)
  /-- STARTUP_READBACK (R387): lane l: the STARTUP has been read back. -/
  | startupReadback (d : DieId) (l : Fin 8) (ok : Bool)
  /-- CLASH_BACKOFF_END (R387): lane l: the silence of a lane in CLASH. -/
  | clashBackoffEnd (d : DieId) (l : Fin 8)
  /-- BACKUP_SILENCE (R387): lane l: the silence of a lane in BACKUP. -/
  | backupSilence (d : DieId) (l : Fin 8)
  /-- BACKUP_TAKEOVER (R388): lane l: a lane in BACKUP takes over at its sending time. -/
  | backupTakeover (d : DieId) (l : Fin 8)
  /-- MB_RESTART (R387): lane l: MB_LANE_CTRL.RESTART. -/
  | mbRestart (d : DieId) (l : Fin 8)
  /-- MB_HOST_REQ (R394): lane l: a write of MB_LANE_CTRL.HOST_REQ. -/
  | mbHostReq (d : DieId) (l : Fin 8) (on : Bool)
  /-- MB_CLR_CNT (R396): lane l: MB_LANE_CTRL.CLR_CNT. -/
  | mbClrCnt (d : DieId) (l : Fin 8)
  /-- ACYC_GO (R393): lane l: MB_ACYC_CMD.GO. -/
  | acycGo (d : DieId) (l : Fin 8)
  /-- CAN_FRAME_RX (R410): controller n of die d receives frame f of another node without error; sof is TIME_NS at its SOF edge. -/
  | canFrameRx (d : DieId) (n : Fin 4) (f : CanFrame) (sof : W32)
  /-- CAN_TX_DONE (R407): the frame that controller n has on the bus ends well; sof is TIME_NS at its SOF edge, tdcv the loop delay measured in an FD frame. -/
  | canTxDone (d : DieId) (n : Fin 4) (sof : W32) (tdcv : BitVec 7)
  /-- CAN_ARB_LOST (R408): the frame that controller n has on the bus loses arbitration. -/
  | canArbLost (d : DieId) (n : Fin 4)
  /-- CAN_BUS_ERROR (R414): controller n sees error e on the bus; tdcv: the loop delay measured in its own FD frame so far. -/
  | canBusError (d : DieId) (n : Fin 4) (e : CanErr) (tdcv : Option (BitVec 7))
  /-- CAN_BUSOFF_RECOVERY (R414): k more occurrences of 11 recessive bits; the 128th since the bus-off recovers. -/
  | canBusoffRecovery (d : DieId) (n : Fin 4) (k : BitVec 8)
  /-- CAN_INTEGRATED (R423): 11 consecutive recessive bits. -/
  | canIntegrated (d : DieId) (n : Fin 4)
  /-- CAN_PROTOCOL_EXC (R423): a recessive res bit in an FD frame. -/
  | canProtocolExc (d : DieId) (n : Fin 4)
  /-- CAN_REF_MISSED (R419): half a reference period has passed since a due time. -/
  | canRefMissed (d : DieId) (n : Fin 4)
  /-- TX_REQ (R407): TXB_CTRL.REQ of buffer b; withAbort: ABORT is set in the same write. -/
  | txReq (d : DieId) (n : Fin 4) (b : Fin 3) (withAbort : Bool)
  /-- TX_ABORT (R409): TXB_CTRL.ABORT of buffer b. -/
  | txAbort (d : DieId) (n : Fin 4) (b : Fin 3)
  /-- CAN_RX_POP (R411): a write of CAN_RX_POP with bit 0 set. -/
  | canRxPop (d : DieId) (n : Fin 4)
  /-- CAN_INIT (R423): a write of CAN_CTRL.INIT. -/
  | canInit (d : DieId) (n : Fin 4) (on : Bool)
  /-- CAN_ROM (R416): a write of CAN_CTRL.ROM. -/
  | canRom (d : DieId) (n : Fin 4) (on : Bool)
  /-- CAN_MON (R402): a write of CAN_CTRL.MON. -/
  | canMon (d : DieId) (n : Fin 4) (on : Bool)
  /-- CAN_DIRECT (R421): a write of CAN_CTRL.DIRECT. -/
  | canDirect (d : DieId) (n : Fin 4) (on : Bool)
  /-- REF_RESTART (R419): CAN_CTRL.REF_RESTART. -/
  | refRestart (d : DieId) (n : Fin 4)
  /-- TIME_CORR_WRITE (R436): a write of TIME_CORR. -/
  | timeCorrWrite (d : DieId) (o : BitVec 32)
  /-- TIME_RATE_WRITE (R435): a write of TIME_RATE. -/
  | timeRateWrite (d : DieId) (v : BitVec 32)
  /-- GRANT_STEP (R439): TIME_CTRL.GRANT_STEP. -/
  | grantStep (d : DieId)
  /-- TIME_CLR_CNT (R453): TIME_CTRL.CLR_CNT. -/
  | timeClrCnt (d : DieId)
  /-- TIME_NS_READ (R440): a read of TIME_NS. -/
  | timeNsRead (d : DieId)
  /-- TIME_EPOCH_TAG_WRITE (R441): a write of TIME_EPOCH_TAG. -/
  | timeEpochTagWrite (d : DieId) (tag : BitVec 8)
  /-- TIME_WRAP (R440): the counter advances until TIME_NS wraps. -/
  | timeWrap (d : DieId)
  /-- EPOCH_STALE (R441): the epoch is judged against the time. -/
  | epochStale (d : DieId)
  /-- TRIG_CMP_WRITE (R448): a write of TRIG_CMP. -/
  | trigCmpWrite (d : DieId) (k : Fin 8) (v : BitVec 32)
  /-- TRIGGER_FIRE (R448): the counter advances until the trigger reaches its compare. -/
  | triggerFire (d : DieId) (k : Fin 8)
  /-- TRIGGER_PULSE_END (R448): PW × 4 ns have passed. -/
  | triggerPulseEnd (d : DieId) (k : Fin 8)
  /-- CAPTURE_EDGE (R450): a capture input stands at a level for `n` ticks; a filtered edge of that time is captured. -/
  | captureEdge (k : Fin 8) (level : Bool) (n : Nat)
  /-- CAPT_POP (R456): a write of CAPT_POP. -/
  | captPop (d : DieId) (k : Fin 8)
  /-- ETH_FRAME_RX (R430): a received frame, destination address first, without FCS, `after` ticks on. -/
  | ethFrameRx (d : DieId) (port : Fin 2) (frame : List (BitVec 8)) (fcsOk : Bool) (after : Nat)
  /-- PTP_EVENT_RX (R442): a received PTP event message, `after` ticks on. -/
  | ptpEventRx (d : DieId) (port : Fin 2) (msg : List (BitVec 8)) (after : Nat)
  /-- PTP_EVENT_TX (R443): a queued PTP event frame is sent `after` ticks on; the PTP message starts at `ofs`. -/
  | ptpEventTx (d : DieId) (port : Fin 2) (frame : List (BitVec 8)) (ofs : Nat) (udp : Bool) (after : Nat)
  /-- ETH_TS_POP (R442): a write of ETH_TS_POP. -/
  | ethTsPop (d : DieId) (port : Fin 2) (rx tx : Bool)
  /-- ETH_LINK_DOWN (R429): the port loses its link. -/
  | ethLinkDown (d : DieId) (port : Fin 2)
  /-- ETH_LINK_UP (R429): the link of the port returns. -/
  | ethLinkUp (d : DieId) (port : Fin 2)
  /-- ENABLE (R460): RED_UNIT_CMD.ENABLE. -/
  | enable (d : DieId)
  /-- DRAIN (R471): RED_UNIT_CMD.DRAIN. -/
  | drain (d : DieId)
  /-- TEST (R460): RED_UNIT_CMD.TEST. -/
  | test (d : DieId)
  /-- RECOVER (R460): RED_UNIT_CMD.RECOVER. -/
  | recover (d : DieId)
  /-- QUARANTINE (R460): RED_UNIT_CMD.QUARANTINE. -/
  | quarantine (d : DieId)
  /-- RELEASE (R460): RED_UNIT_CMD.RELEASE. -/
  | release (d : DieId)
  /-- SELFTEST_DONE (R460): the self-test of a unit, named by KIND and INDEX, ends. -/
  | selftestDone (d : DieId) (kind : Fin 16) (idx : Fin 1024) (pass : Bool)
  /-- BIST_SLOT_START (R485): a self-test slot of the spares. -/
  | bistSlotStart (d : DieId)
  /-- BLOCK_TEST_STEP (R486): the standby die has tested its next block; `last` ends the rotation. -/
  | blockTestStep (d : DieId) (pass last : Bool)
  /-- DATA_PATH_SILENT (R464): the data path of a unit decides that it is silent. -/
  | dataPathSilent (d : DieId) (kind : Fin 16) (idx : Fin 1024)
  /-- GRANT_REQ (R474): RED_CTRL.GRANT_REQ. -/
  | grantReq (d : DieId)
  /-- HOST_CONFIRM (R481): a write of RED_CTRL.HOST_CONFIRM. -/
  | hostConfirm (d : DieId) (on : Bool)
  /-- HANDOVER (R482): RED_CTRL.HANDOVER. -/
  | handover (d : DieId)
  /-- RESTART_PEER (R483): RED_CTRL.RESTART_PEER. -/
  | restartPeer (d : DieId)
  /-- RED_CLR_CNT (R489): RED_CTRL.CLR_CNT. -/
  | redClrCnt (d : DieId)
  /-- RED_CONFIRM (R481): a write of RED_CONFIRM. -/
  | redConfirm (d : DieId)
  /-- HEARTBEAT_RX (R475): HB(k) arrives with the sender's image signature. -/
  | heartbeatRx (d : DieId) (k sig : BitVec 32)
  /-- HANDOVER_TOKEN_RX (R482): HO(n) arrives with the sender's image signature. -/
  | handoverTokenRx (d : DieId) (n sig : BitVec 32)
  /-- HOLDER_SILENT (R477): the standby finds the holder silent; `ticks`: the sequencer ticks each axis has missed. -/
  | holderSilent (d : DieId) (ticks : List Nat)
  /-- TAKEOVER_CHECK_POINT (R477): 1,000 ns before a cycle start of a shadow run. -/
  | takeoverCheckPoint (d : DieId)
  /-- ENOFF_ASSERT (R477): the standby sees the other die's enables off. -/
  | enoffAssert (d : DieId)
  /-- WAITOFF_TIMEOUT (R477): the enables of the other die are not off in time. -/
  | waitoffTimeout (d : DieId)
  /-- GATE_CLOSE (R473): 500 ns have passed since the last edge of LIVE. -/
  | gateClose (d : DieId)
  /-- SAFE_OUT_HOLD_EXPIRY (R476): 4 cell cycles have passed with no die driving the safe outputs. -/
  | safeOutHoldExpiry
  /-- CAIRN_STREAM_RX (R466): the oldest cairn on the link arrives, its bytes changed by `err`. -/
  | cairnStreamRx (d : DieId) (err : List (BitVec 8))
  /-- PLAN_STREAM_RX (R467): the plan set of region w arrives at the standby. -/
  | planStreamRx (d : DieId) (w : Fin 4)
  /-- FORWARD_STATE_RX (R577): the state the duty die forwards arrives at the standby. -/
  | forwardStateRx (d : DieId)
  /-- PEER_RECORD_RX (R603): the oldest record the other die has forwarded arrives. -/
  | peerRecordRx (d : DieId)
  /-- LOAD (R502): IMG_CTRL.LOAD with SRC; `copy`: which of the two image copies of the flash is read. -/
  | load (d : DieId) (src : BitVec 2) (copy : Bool)
  /-- IMG_PASS1_DONE (R502): pass 1 of a load has read the image. -/
  | imgPass1Done (d : DieId)
  /-- IMG_PASS2_DONE (R503): pass 2 of a load has placed the image. -/
  | imgPass2Done (d : DieId)
  /-- APPLY (R506): IMG_CTRL.APPLY; `atCyc`: at the cycle of IMG_APPLY_CYC. -/
  | apply (d : DieId) (atCyc : Bool)
  /-- IMG_APPLY_BOUNDARY (R507): the boundary at which a staged update takes effect on both dies. -/
  | imgApplyBoundary
  /-- ABORT (R510): IMG_CTRL.ABORT. -/
  | abort (d : DieId)
  /-- IMG_CLR_CNT (R512): IMG_CTRL.CLR_CNT. -/
  | imgClrCnt (d : DieId)
  /-- STAGED_UPDATE_RX (R506): the update staged on the other die arrives. -/
  | stagedUpdateRx (d : DieId)
  /-- IMG_PUSH_LEN (R508): a write of IMG_PUSH_LEN. -/
  | imgPushLen (d : DieId) (len : BitVec 19)
  /-- PUSH_TIMEOUT (R508): no chunk has been pushed for 100 ms. -/
  | pushTimeout (d : DieId)
  /-- POR_ASSERT (R641): `POR_N` goes low. -/
  | porAssert (d : DieId)
  /-- POR_RELEASE (R522): `POR_N` goes high and the straps are sampled. -/
  | porRelease (d : DieId) (bootSel : Bool) (addrSel : BitVec 3)
  /-- WRST_ASSERT (R434): `WRST_N` goes low. -/
  | wrstAssert (d : DieId)
  /-- WRST_RELEASE (R522): `WRST_N` goes high. -/
  | wrstRelease (d : DieId)
  /-- FW_LOAD_DONE (R522): reading and verifying the firmware ends, from flash or from what the host has pushed; whether
  OTP reads without an error. -/
  | fwLoadDone (d : DieId) (otpOk : Bool)
  /-- BOOT_WATCHDOG (R522): the boot watchdog expires. -/
  | bootWatchdog (d : DieId)
  /-- BOOT_OK (R523): SYS_BOOT_CTRL.BOOT_OK. -/
  | bootOk (d : DieId) (src : Source)
  /-- FAIL (R524): SYS_BOOT_CTRL.FAIL with FAIL_CODE. -/
  | fail (d : DieId) (src : Source) (code : BitVec 8)
  /-- RETRY (R526): SYS_BOOT_CTRL.RETRY. -/
  | retry (d : DieId)
  /-- SELF_RESTART (R524): the self-restart after a failed start. -/
  | selfRestart (d : DieId)
  /-- ATT_REQ (R535): SEC_CTRL.ATT_REQ. -/
  | attReq (d : DieId)
  /-- ATT_REPORT_DONE (R536): the report is signed or refused; `burnOk`: a claim bit it needed has burned. -/
  | attReportDone (d : DieId) (burnOk : Bool)
  /-- TOKEN_GO (R531): SEC_CTRL.TOKEN_GO. -/
  | tokenGo (d : DieId)
  /-- TOKEN_CHECK_DONE (R531): the token check ends; `burnOk`: the fuses of the operation read back burned; the new challenge drawn. -/
  | tokenCheckDone (d : DieId) (burnOk : Bool) (challenge : BitVec 128)
  /-- SVN_COMMIT (R534): SEC_CTRL.SVN_COMMIT. -/
  | svnCommit (d : DieId)
  /-- SVN_BURN_DONE (R534): the burn ends after `burned` bits that read back in both cells. -/
  | svnBurnDone (d : DieId) (burned : Nat)
  /-- DBG_LOCK (R532): SEC_CTRL.DBG_LOCK. -/
  | dbgLock (d : DieId)
  /-- SEC_CLR_CNT (R538): SEC_CTRL.CLR_CNT. -/
  | secClrCnt (d : DieId)
  /-- JTAG_BYPASS (R533): BYPASS is selected and bits are shifted. -/
  | jtagBypass (d : DieId) (tdi : List Bool)
  /-- JTAG_IDCODE (R533): IDCODE is selected and the register is shifted out. -/
  | jtagIdcode (d : DieId)
  /-- JTAG_SAMPLE_PRELOAD (R533): SAMPLE/PRELOAD: the pins captured, the bits shifted in. -/
  | jtagSamplePreload (d : DieId) (pins : List Bool) (tdi : List Bool)
  /-- JTAG_EXTEST (R533): EXTEST is selected. -/
  | jtagExtest (d : DieId) (pins : List Bool) (tdi : List Bool)
  /-- JTAG_CLAMP (R533): CLAMP is selected and bits are shifted. -/
  | jtagClamp (d : DieId) (tdi : List Bool)
  /-- DOM_REQ_ON (R544): PWR_DOM_CTRL.REQ = ON of a domain. -/
  | domReqOn (d : DieId) (dom : Fin 36)
  /-- DOM_REQ_RET (R544): PWR_DOM_CTRL.REQ = RET of a domain. -/
  | domReqRet (d : DieId) (dom : Fin 36)
  /-- DOM_REQ_OFF (R544): PWR_DOM_CTRL.REQ = OFF of a domain. -/
  | domReqOff (d : DieId) (dom : Fin 36)
  /-- DOM_REG_READY (R545): the regulator of a waking domain is ready. -/
  | domRegReady (d : DieId) (dom : Fin 36)
  /-- DOM_WAKE_TIMEOUT (R545): 2 ms of an attempt pass with no ready. -/
  | domWakeTimeout (d : DieId) (dom : Fin 36)
  /-- DOM_WAKE_RETRY (R545): the switch has been open for 100 µs. -/
  | domWakeRetry (d : DieId) (dom : Fin 36)
  /-- DOM_RESUME_DONE (R545): a domain returning from RET has its clocks back. -/
  | domResumeDone (d : DieId) (dom : Fin 36)
  /-- DOMAIN_ASLEEP_ACCESS (R552): an access to a sleeping domain. -/
  | domainAsleepAccess (d : DieId) (dom : Fin 36) (who : Initiator) (addr : BitVec 32) (write : Bool)
  /-- WAKE_ON_ACCESS (R553): an access to a domain in RET with WOA. -/
  | wakeOnAccess (d : DieId) (a : Stalled)
  /-- WOA_TIMEOUT (R553): 50 µs pass after the access. -/
  | woaTimeout (d : DieId) (dom : Fin 36)
  /-- LP_REQ (R551): PWR_CTRL.LP_REQ = 1. -/
  | lpReq (d : DieId)
  /-- CLR_LOG (R557): PWR_CTRL.CLR_LOG. -/
  | clrLog (d : DieId)
  /-- PWR_CLR_CNT (R557): PWR_CTRL.CLR_CNT. -/
  | pwrClrCnt (d : DieId)
  /-- AON_BROWN_OUT (R551): the load of the AON regulator exceeds the limit of its mode. -/
  | aonBrownOut (d : DieId)
  /-- PLL_EN (R549): a write of CLK_CTRL.PLL_EN. -/
  | pllEn (d : DieId) (on : Bool)
  /-- PLL_LOCK (R549): the PLL locks. -/
  | pllLock (d : DieId)
  /-- PLL_LOCK_TIMEOUT (R549): 2 ms pass with no lock. -/
  | pllLockTimeout (d : DieId)
  /-- PLL_RESTART (R549): the PLL has been stopped for 100 µs. -/
  | pllRestart (d : DieId)
  /-- SEL (R549): a write of CLK_CTRL.SEL. -/
  | sel (d : DieId) (pll : Bool)
  /-- CLK_LOSS (R550): REFCLK loss, or the PLL loses lock. -/
  | clkLoss (d : DieId) (refLost : Bool)
  /-- SMB_WAKE (R554): an SMBus address byte in LP mode. -/
  | smbWake (d : DieId) (addrByte : BitVec 8)
  /-- REGISTER_WRITE (R565): a BAR0 write of one word with byte enables. -/
  | registerWrite (d : DieId) (src : Source) (off : BitVec 32) (v : BitVec 32) (be : BitVec 4)
  /-- BAR2_ACCESS (R566): a BAR2 read of `len` bytes, or a write of bytes with none where a byte enable is clear. -/
  | bar2Access (d : DieId) (src : Source) (off : BitVec 32) (len : Nat) (data : Option (List (Option (BitVec 8))))
  /-- CELL_VIEW_ACCESS (R571): a cell view read or write; `acked`: a forwarded one is acknowledged by the holder. -/
  | cellViewAccess (d : DieId) (off : BitVec 32) (data : Option (BitVec 32)) (acked : Bool)
  /-- CELL_VIEW_RELEASE (R571): a grant line asserts and the oldest held access is routed. -/
  | cellViewRelease (d : DieId) (acked : Bool)
  /-- CELL_VIEW_TIMEOUT (R571): the oldest held access has been held for HOLD_US. -/
  | cellViewTimeout (d : DieId)
  /-- PERST_ASSERT (R625): `PCIE_PERST_N` goes low. -/
  | perstAssert (d : DieId)
  /-- PERST_RELEASE (R625): `PCIE_PERST_N` goes high and the endpoint trains. -/
  | perstRelease (d : DieId)
  /-- FUNCTION_LEVEL_RESET (R564): a function-level reset of function 0. -/
  | functionLevelReset (d : DieId)
  /-- PCIE_LINK_DOWN (R596): the data link layer leaves DL_Active. -/
  | pcieLinkDown (d : DieId)
  /-- SMB_READ (R579): SMBus READ as sent: byte count, offset, N, PEC check. -/
  | smbRead (d : DieId) (count : Nat) (off : BitVec 32) (n : Nat) (pecOk : Bool)
  /-- SMB_WRITE (R579): SMBus WRITE as sent. -/
  | smbWrite (d : DieId) (count : Nat) (off : BitVec 32) (data : List (BitVec 8)) (pecOk : Bool)
  /-- SMB_STATUS (R579): SMBus STATUS. -/
  | smbStatus (d : DieId)
  /-- SMB_IDENT (R579): SMBus IDENT. -/
  | smbIdent (d : DieId)
  /-- SMB_SCL_TIMEOUT (R578): `SMB_SCL` has been held low for more than 35 ms. -/
  | smbSclTimeout (d : DieId)
  /-- QSPI_READ_ID (R584): QSPI_CMD.GO with OP = READ_ID. -/
  | qspiReadId (d : DieId)
  /-- QSPI_READ (R584): QSPI_CMD.GO with OP = READ. -/
  | qspiRead (d : DieId) (len : BitVec 9)
  /-- QSPI_PROGRAM (R584): QSPI_CMD.GO with OP = PROGRAM. -/
  | qspiProgram (d : DieId) (len : BitVec 9)
  /-- QSPI_ERASE4K (R584): QSPI_CMD.GO with OP = ERASE4K. -/
  | qspiErase4k (d : DieId)
  /-- QSPI_ERASE64K (R584): QSPI_CMD.GO with OP = ERASE64K. -/
  | qspiErase64k (d : DieId)
  /-- QSPI_OP_DONE (R584): the operation ends; `jedec` is what the flash answers to 0x9F. -/
  | qspiOpDone (d : DieId) (timeout : Bool) (jedec : BitVec 24)
  /-- DMA_GO (R587): DMA_CTRL.GO. -/
  | dmaGo (d : DieId) (ch : Fin 4) (srcHost dstHost : Bool)
  /-- DMA_ABORT (R587): DMA_CTRL.ABORT. -/
  | dmaAbort (d : DieId) (ch : Fin 4)
  /-- DMA_DONE (R587): a transfer runs to its end; `hostData` is what host space returns, from byte `stopAt` on the host fails it or an abort stops it. -/
  | dmaDone (d : DieId) (ch : Fin 4) (hostData : List (BitVec 8)) (stopAt : Nat)
  /-- MONITOR_SAMPLE (R597): the readings of one 100 µs sample. -/
  | monitorSample (d : DieId) (temp : Vector (BitVec 16) 8) (volt : Vector (BitVec 13) 5) (margin : Vector (BitVec 10) 16)
  /-- SUPPLY_FAULT (R597): a supply comparator of a rail finds a fault that has lasted 2 µs. -/
  | supplyFault (d : DieId)
  /-- AVS_STEP (R598): one 100 µs step of the AVS loop; the core current read back in mA, none where the frame fails. -/
  | avsStep (d : DieId) (iCore : Option Nat)
  /-- AVS_CEILING (R598): 850 mV with the margin below target for 1 ms. -/
  | avsCeiling (d : DieId)
  /-- POWER_CAP_STEP (R599): one 100 µs step of the power cap. -/
  | powerCapStep (d : DieId)
  /-- POP (R603): ERR_CTRL.POP. -/
  | pop (d : DieId)
  /-- CLR_FIRST (R603): ERR_CTRL.CLR_FIRST. -/
  | clrFirst (d : DieId)
  /-- FOG_CLR (R607): ERR_CTRL.FOG_CLR. -/
  | fogClr (d : DieId)
  /-- ERR_CLR_CNT (R610): ERR_CTRL.CLR_CNT. -/
  | errClrCnt (d : DieId)
  /-- ERR_SW_REC (R604): a write of the upper word of ERR_SW_REC. -/
  | errSwRec (d : DieId) (src : Source) (hi : BitVec 32)
  /-- SAFE_IN_SAMPLE (R605): the pins of a safety input take the levels `a` and `b`, and after `n` ticks the filtered
  channels are sampled; true permits motion. -/
  | safeInSample (d : DieId) (k : Fin 4) (a b : Bool) (n : Nat)
  /-- SAFE_DISC_TIMEOUT (R605): DISC_MS have passed in WAIT. -/
  | safeDiscTimeout (d : DieId) (k : Fin 4)
  /-- SAFE_ACK (R605): SAFE_CTRL.ACK. -/
  | safeAck (d : DieId) (mask : BitVec 4)
  /-- SAFE_OUT_MISMATCH (R606): the two safe-output copies as compared over one CLK_PER cycle. -/
  | safeOutMismatch (d : DieId) (a b : Bool)
  /-- SUPPLY_DETECTOR_FALL (R640): the reset detector of VDD_CORE (0), VDD_SRAM (1) or VDD_1V8 (2) falls. -/
  | supplyDetectorFall (d : DieId) (det : Fin 3)
  /-- PWM_VALLEY (R231): a PWM period of the axis reaches its valley. -/
  | pwmValley (d : DieId) (a : Fin 16)
  /-- STEP_PULSE_END (R236): the step pulse of the axis has lasted its width. -/
  | stepPulseEnd (d : DieId) (a : Fin 16)
  /-- BEACON_READBACK (R463): lane l: a beacon has been read back. -/
  | beaconReadback (d : DieId) (l : Fin 8) (ok : Bool)
  /-- HANDOVER_LIVE_STOP (R482): the holder stops LIVE in a handover. -/
  | handoverLiveStop (d : DieId)
  /-- D2D_LINK_DOWN (R487): the die-to-die link is lost. -/
  | d2dLinkDown
  /-- D2D_LINK_UP (R487): the die-to-die link is back. -/
  | d2dLinkUp
  /-- SUPPLY_DETECTOR_RISE (R641): such a detector reads high again. -/
  | supplyDetectorRise (d : DieId) (det : Fin 3)
  /-- UNIT_RESET_COMPLETE (R460): a unit in RESET has completed its reset. -/
  | unitResetComplete (d : DieId) (kind : Fin 16) (idx : Fin 1024)
  deriving DecidableEq, Repr

end Sys2Proof
end

