-- ==== Sys2Proof/Config.lean ====
section
/-! DEFINITION. What an implementation fixes and the values the manual leaves open.

None of these constants has a body, so no proof can lean on a value of one. -/

namespace Sys2Proof.Config

/-- A value the manual leaves open, fresh for every number (log entry 2). -/
opaque free (w : Nat) : Nat → BitVec w

/-- The grade of the part: true for RWT-C128-E (R1). -/
opaque gradeE : Bool

/-- DEVICE_ID of a die, 16 bytes, from production test (R516); the argument is the die number. -/
opaque deviceId : Nat → List Byte

/-- SHA-384 of the key in slot 0 at production: die number, then 0 ECDSA, 1 LMS (R516). -/
opaque slotHash0 : Nat → Nat → List Byte

/-- The ECDSA P-384 identity private key of a die, from production test (R516). -/
opaque ecdsaKey : Nat → Nat

/-- The HSS identity public key of a die (60 bytes, R538), and its signature over a message with bottom tree j
and leaf q: how a tree comes from the OTP seed is the part's (R536, log entry 17). -/
opaque lmsId : Nat → List Byte
opaque hssSign : Nat → Nat → Nat → List Byte → List Byte

/-- The IDENT object of a device lane set to node, but for PROFILE (R373): die number, lane. -/
opaque ident : Nat → Nat → List Byte

/-- What a lane's driver takes of the ranges of R355 and R643, in 4 ns steps: lane, and 0 the lead of MBLn_DE, 1 its tail,
2 the turnaround of a node lane (log entry 122). -/
opaque laneTiming : Nat → Nat → Nat

end Sys2Proof.Config
end

