-- ==== Sys2Proof/Machine/Block/Axis.lean ====
section
/-! DEFINITION. A small axis: sequencer, PWM unit, compare and homing (chapter 07). -/

namespace Sys2Proof.Machine

/-- The states of AX_STATUS; the order is the code (R248). -/
inductive AxState where
  | off
  | rest
  | moving
  | homing
  | stopping
  | stopped
  | fault
  deriving DecidableEq, Repr

/-- What the sequencer does at a tick. -/
inductive AxMotion where
  /-- It stands. -/
  | none
  /-- R226 toward the target. -/
  | target
  /-- R226 without an end, in a direction (true: negative). -/
  | seek (neg : Bool)
  /-- Braking to 0: at DSTOP, or by the ramp with floor 0. -/
  | brake (dstop : Bool)
  deriving DecidableEq, Repr

/-- The limit, homing, amplitude and input registers of R246. -/
structure AxRegs where
  vstart : W32 := 0
  v1 : W32 := 0
  vmax : W32 := 0
  vstop : W32 := 0
  a1 : W32 := 0
  a2 : W32 := 0
  d1 : W32 := 0
  d2 : W32 := 0
  dstop : W32 := 0
  homeNeg : Bool := false
  revOnLimit : Bool := false
  hostStep : Bool := false
  homeVfast : W32 := 0
  homeVslow : W32 := 0
  homeBackoff : W32 := 0
  homeOffset : W32 := 0
  homeRange : W32 := 0
  deriving DecidableEq, Repr

/-- Limits in internal units (R223): 2^-48 microsteps per tick and per tick². -/
structure AxLimits where
  vstart : Nat := 0
  v1 : Nat := 0
  vmax : Nat := 0
  a1 : Nat := 0
  a2 : Nat := 0
  d1 : Nat := 0
  d2 : Nat := 0
  dstop : Nat := 0
  /-- The floor f of R225 toward a target. -/
  floor : Nat := 0
  deriving DecidableEq, Repr

/-- AX_CFG and what else the image fixes (R249). -/
structure AxCfg where
  stepDir : Bool := false
  c60 : Bool := false
  outPol : Bool := false
  decay : Bool := false
  stepDiv : Bool := false
  bind : Bool := false
  arm : BitVec 4 := 0
  owner : W16 := 0
  fStart : BitVec 14 := 0
  fOut : BitVec 14 := 0
  /-- The owner runs the Ittis library program for the axis (R235), with its thermal parameters at this
  base in the engine's data partition. -/
  library : Bool := false
  thermBase : Nat := 0
  deriving DecidableEq, Repr

/-- What a PWM unit samples at a peak (R230): angle, signed speed in 2^-48 microsteps per tick, amplitude, and
AMP_HOLD and KE in force. -/
structure PwmSample where
  angle : Nat := 0
  v : Int := 0
  amp : W16 := 0
  hold : W16 := 0
  ke : W16 := 0
  deriving DecidableEq, Repr

/-- A small axis (R220-R252). -/
structure Axis where
  state : AxState := .off
  cfg : AxCfg := {}
  /-- The registers as written and as in force since the last GO or HOME_GO. -/
  regs : AxRegs := {}
  act : AxRegs := {}
  lim : AxLimits := {}
  motion : AxMotion := .none
  /-- Position in 2^-48 microsteps; AX_POS is its integer part. -/
  p : Int := 0
  /-- Speed per tick in 2^-48 microsteps. -/
  vt : Nat := 0
  /-- Direction: true is negative. -/
  neg : Bool := false
  /-- AX_TARGET as written, and the target of the move in progress. -/
  targetReg : W32 := 0
  target : W32 := 0
  /-- The fields of AX_STATUS (R248). -/
  phase : BitVec 3 := 0
  homed : Bool := false
  homeSt : BitVec 3 := 0
  homeErr : BitVec 3 := 0
  limNegHit : Bool := false
  limPosHit : Bool := false
  chatter : Bool := false
  bridgeFlt : Bool := false
  waitStep : Bool := false
  /-- Host-stepped homing brakes to the rest in which it sets WAIT_STEP (R242). -/
  pausing : Bool := false
  /-- CLK_PER count of the last tick (R223). -/
  lastTick : Nat := 0
  /-- AX_STATUS.RK_CLAMP (R232). -/
  rkClamp : Bool := false
  /-- The motion that HOME_STEP starts (R242). -/
  heldMotion : AxMotion := .none
  /-- Where HOME_GO was accepted (R241). -/
  homeStart : Int := 0
  /-- The edge position captured in LATCH. -/
  edge : W32 := 0
  /-- What follows braking in homing: the seek direction of REVSEARCH. -/
  afterBrake : AxMotion := .none
  /-- Stop category in force, 0 none. -/
  stop : BitVec 2 := 0
  /-- In the safe state by OFF_STOP, FAULT or OFF (R221); see `Die.axSafe` for all its causes. -/
  safe : Bool := true
  /-- AX_AMP, AX_AMP2, AX_KE as written, and as in force since the last peak. -/
  ampHold : W16 := 0
  ampRun : W16 := 0
  ampAcc : W16 := 0
  holdDelay : Byte := 0
  ke : W16 := 0
  holdDelayUse : Byte := 0
  ampHoldUse : W16 := 0
  ampRunUse : W16 := 0
  ampAccUse : W16 := 0
  keUse : W16 := 0
  /-- Amplitude in use: 0 AMP_HOLD, 1 AMP_RUN, 2 AMP_ACC. -/
  ampSel : BitVec 2 := 0
  /-- µs left of HOLD_DELAY. -/
  holdLeft : Nat := 0
  /-- AX_PWM_PHASE (R229). -/
  pwmPhase : BitVec 13 := 0
  /-- The drive set latched and the one a valley has put in use: RK and EN. -/
  rkLatch : W16 := 0x4000
  enLatch : Bool := false
  rk : W16 := 0x4000
  en : Bool := false
  /-- PW underrun: 0 none, 1 duties repeated for one period, 2 RK = 1.0, e = 0, AMP_HOLD. -/
  underrun : BitVec 2 := 0
  /-- What the last peak sampled, and the duties in use. -/
  peak : PwmSample := {}
  /-- CLK_PER count of the last peak and of the last valley taken. -/
  peakAt : Option Nat := none
  valleyAt : Option Nat := none
  /-- The duties in use, as fractions of TOP. -/
  duty : Rat × Rat := (0, 0)
  /-- STEP output is active. -/
  stepOut : Bool := false
  /-- STEP pulses that a change of DIR has put off (R236). -/
  stepOwed : Nat := 0
  /-- CLK_PER count at which the STEP pulse began, and at which the compare pulse ends. -/
  stepAt : Nat := 0
  cmpEnd : Nat := 0
  /-- AX_CMP_POS and the fields of AX_CMP_CFG (R238, R250). -/
  cmpPos : W32 := 0
  bothDir : Bool := false
  cont : Bool := false
  pin : Bool := false
  evt : Bool := false
  cmpPw : Byte := 10
  armed : Bool := false
  side : Bool := false
  behind : Bool := false
  fired : Bool := false
  /-- A write of AX_CMP_POS that the next tick arms. -/
  cmpWrite : Bool := false
  /-- AX_CMP_TIME (R239). -/
  cmpTime : W32 := 0
  /-- `SAnn_CMP` is active. -/
  cmpOut : Bool := false
  /-- AX_IN_CFG. -/
  inPol : BitVec 3 := 0
  limEn : Bool := false
  debounce : BitVec 12 := 200
  chatN : BitVec 4 := 8
  /-- The levels at the pins of HOME, LIMNEG and LIMPOS. -/
  inPin : BitVec 3 := 0
  /-- Filtered and raw HOME, LIMNEG, LIMPOS; `SAnn_FLT_N` asserted. -/
  inFilt : BitVec 3 := 0
  inRaw : BitVec 3 := 0
  /-- Of each input: CLK_PER count and AX_POS of its last raw transition, and the counts of its transitions of
  the last 10 ms (R237, R240, R241). -/
  rawAt : Vector Nat 3 := Vector.replicate 3 0
  rawEdge : Vector W32 3 := Vector.replicate 3 0
  chatAt : Vector (List Nat) 3 := Vector.replicate 3 []
  /-- A raw transition has made the count exceed CHAT_N (R240). -/
  chatDue : BitVec 3 := 0
  /-- The filtered `SAnn_FLT_N` is asserted (R222). -/
  fltAsserted : Bool := false
  /-- AX_CHATTER written for an input since the bit was last clear. -/
  chatterDone : BitVec 3 := 0
  /-- Coil temperature rise of the library's thermal model in 2^-20 K, and the cycle it was last computed in
  (R235). -/
  temp : Int := 0
  tempCyc : Option W32 := none
  /-- CNT_MOVES, CNT_REVERSALS, CNT_CMP, CNT_LIMIT, CNT_CHATTER, CNT_BRIDGE_FAULT. -/
  cnt : Vector W32 6 := Vector.replicate 6 0
  deriving DecidableEq, Repr

/-- AX_PWM_CFG, and the CLK_PER count at which the counters started (R229, R246). -/
structure PwmCfg where
  top : BitVec 13 := 0
  stepPw : Byte := 0
  start : Nat := 0
  deriving DecidableEq, Repr

end Sys2Proof.Machine
end

