-- ==== Sys2Proof/Machine/Block/Enc.lean ====
section
/-! DEFINITION. A feedback port (chapter 08). -/

namespace Sys2Proof.Machine

/-- The states of R284; the order is the code of ENC_STATUS.STATE. -/
inductive EncState where
  | off
  | sync
  | run
  | fault
  deriving DecidableEq, Repr

/-- What the image fixes of a port (R254, R266-R271, R281, R286, R289, R290). -/
structure EncCfg where
  /-- 0 OFF, 1 INC, 2 SSI, 3 LISTEN. -/
  mode : BitVec 2 := 0
  /-- 0 none, 1 RAW, 2 EMU. -/
  pt : BitVec 2 := 0
  filt : BitVec 3 := 0
  idxGate : Bool := false
  idxFault : Bool := false
  gray : Bool := false
  parity : Bool := false
  endChk : Bool := false
  owner : W16 := 0
  len : BitVec 6 := 0
  mt : BitVec 6 := 0
  nstat : BitVec 3 := 0
  errMask : BitVec 4 := 0
  errPol : Bool := false
  per : BitVec 10 := 0
  dly : Byte := 0
  tm : Byte := 0
  sampleOfs : BitVec 14 := 0
  lgap : Byte := 0
  errLimit : Byte := 0
  emuLines : BitVec 24 := 0
  emuDiv : Byte := 0
  deriving DecidableEq, Repr

/-- ENC_LINES and ENC_SPD_CFG, which take effect at the next strobe (R286). -/
structure EncRegs where
  lines : BitVec 24 := 0
  tol : Byte := 0
  tStop : BitVec 20 := 10000
  switchN : Byte := 16
  deriving DecidableEq, Repr

/-- Commands that wait for a sample strobe (R256). -/
structure EncHeld where
  setTo : Option W32 := none
  clrFault : Bool := false
  clrCnt : Bool := false
  deriving DecidableEq, Repr

/-- A feedback port (R253-R291). -/
structure Enc where
  state : EncState := .off
  cfg : EncCfg := {}
  regs : EncRegs := {}
  act : EncRegs := {}
  /-- Filtered levels of A, B and I, and the changes under way to them, the earliest first (R257). -/
  a : Bool := false
  b : Bool := false
  i : Bool := false
  pend : List InEdge := []
  /-- The quadrature count. -/
  count : W32 := 0
  /-- The newest sample: ENC_COUNT, ENC_POS_HI, ENC_SPEED, ENC_TIME. -/
  pos : W32 := 0
  posHi : Byte := 0
  speed : W32 := 0
  time : W32 := 0
  idxPos : W32 := 0
  idxDiff : W32 := 0
  /-- ENC_STATUS. -/
  dir : Bool := false
  still : Bool := false
  method : Bool := false
  quadErr : Bool := false
  mismatch : Bool := false
  frameErr : Bool := false
  parityErr : Bool := false
  errBit : Bool := false
  stale : Bool := false
  emuLag : Bool := false
  ptGap : Bool := false
  idxSeen : Bool := false
  cause : BitVec 2 := 0
  /-- CNT_SAMPLES, CNT_QUAD_ERR, CNT_FRAME_ERR, CNT_MISMATCH, CNT_SKIPPED, CNT_REVERSALS. -/
  cnt : Vector W32 6 := Vector.replicate 6 0
  /-- Commands of ENC_CNT_SET and ENC_CTRL that wait for the strobe, and those that wait for the one after it,
  since the other die has made this cycle's strobe already (R256). -/
  setTo : Option W32 := none
  clrFault : Bool := false
  clrCnt : Bool := false
  later : EncHeld := {}
  /-- Edges since standstill, the latest edge's time and tick, and the interval that ended at it. -/
  edges : Nat := 0
  edgeNs : W32 := 0
  edgeAt : Nat := 0
  interval : W32 := 0
  /-- The latest edge is the first after a reversal. -/
  revFirst : Bool := false
  /-- There has been an edge, so a later one can reverse. -/
  hasDir : Bool := false
  /-- Count edges, and a reversal among them, since the last strobe. -/
  edgesNow : Nat := 0
  revNow : Bool := false
  /-- Last edge before the last strobe, none where there was none yet: time, count and tick. -/
  window : Option (W32 × W32 × Nat) := none
  /-- Flags for the next RX entry. -/
  quadSince : Bool := false
  idxSince : Bool := false
  /-- Count at the last index event; it was the first of R263; a fault or a write of the count has come since; a
  reversal within the revolution, and the time of its latest reversal. -/
  idxLast : Option W32 := none
  idxFirst : Bool := false
  idxFresh : Bool := false
  revRev : Bool := false
  revPend : Option W32 := none
  idxNs : Option W32 := none
  /-- An SSI frame is being clocked: time of edge 0. -/
  frame : Option W32 := none
  /-- The tick of edge 0 of the newest frame this die clocked (R266). -/
  frameAt : Option Nat := none
  /-- End of the previous frame (R269). -/
  frameEnd : Option W32 := none
  /-- Consecutive bad frames, and the time the last good one ended or the port began to wait. -/
  bad : Nat := 0
  goodNs : W32 := 0
  /-- The cycle of the last RX entry (R271). -/
  entryCyc : Option W32 := none
  /-- P and time of the previous good frame (R279). -/
  prev : Option (Nat × W32) := none
  /-- Cycle of the last event that causes a fault (R285). -/
  faultCyc : Option W32 := none
  /-- P without its wraps, and the emulator's C. -/
  unwrapped : Int := 0
  emuC : Int := 0
  emuOn : Bool := false
  /-- The tick of the newest good frame and the steps it gave, and the tick of the last step (R281). -/
  emuAt : Nat := 0
  emuN : Nat := 0
  emuLast : Option Nat := none
  deriving DecidableEq, Repr

end Sys2Proof.Machine
end

