-- ==== Sys2Proof/Machine/Block/Err.lean ====
section
/-! DEFINITION. Monitors, error log and safety I/O of one die (chapter 20). -/

namespace Sys2Proof.Machine

/-- T_WARN unless the image says otherwise: 10 °C below the grade maximum of R1 (R597). -/
def tWarnDefault : Byte := if Config.gradeE then 95 else 80

/-- The error log (R601, R603, R604, R607, R610). -/
structure ErrLog where
  /-- The log ring, oldest record first, at most 1,024 records (R603). -/
  ring : List ErrRec := []
  /-- ERR_FIRST: first STOP or FATAL record of the die's own, 0 none; survives `WRST_N` (R603, R610). -/
  first : W64 := 0
  /-- ERR_CNT_LOST (R610). -/
  cntLost : W32 := 0
  /-- ERR_CFG.IRQ_SEV, reset 1 (R610). -/
  irqSev : BitVec 3 := 1
  /-- The lower word of ERR_SW_REC as last written (R604). -/
  swLow : W32 := 0
  /-- This die asserts `FOGHORN_N` (R607). -/
  foghorn : Bool := false
  /-- A FATAL record with PEER = 0 has been written since ERR_CTRL.CLR_FIRST (R606). -/
  fatalOwn : Bool := false
  /-- Records on their way over the link to the duty die, oldest first (R603). -/
  forward : List ErrRec := []
  deriving DecidableEq, Repr

/-- The monitors, the AVS loop and the power cap (R597, R598, R599, R610, R611). -/
structure Mon where
  /-- MON_STATUS.AVS_CONFLICT. -/
  avsConflict : Bool := false
  /-- MON_STATUS.POWER_CAP_CONFLICT. -/
  powerCapConflict : Bool := false
  /-- MON_STATUS.TEMP_WARN. -/
  tempWarn : Bool := false
  /-- MON_STATUS.VOLT_WARN. -/
  voltWarn : Bool := false
  /-- MON_AVS_CFG.V_SW_MIN, (mV - 600) / 5. -/
  vSwMin : Byte := 0
  /-- MON_AVS_CFG.V_SW_MAX, same encoding. -/
  vSwMax : Byte := 0
  /-- MON_AVS_CFG.MARGIN_TGT in ps, reset 40. -/
  marginTgt : Byte := 40
  /-- MON_AVS_CFG.MARGIN_MIN in ps, reset 10. -/
  marginMin : Byte := 10
  /-- MON_AVS_V: VDD_CORE set-point in mV. -/
  avsV : BitVec 10 := 0
  /-- MON_PWR_CAP.PWR_CAP in 10 mW. -/
  pwrCap : W16 := 0
  /-- MON_PWR_CAP.PWR_CAP_OFS in 10 mW. -/
  pwrCapOfs : W16 := 0
  /-- MON_PWR_EST.P_EST in 10 mW. -/
  pEst : W16 := 0
  /-- MON_PWR_EST.DUTY: sixteenths of CLK_ENG cycles; 16 at load, register reset 0. -/
  duty : BitVec 5 := 0
  /-- The power cap holds back solves that are due, since a step found P_EST above it (R599). -/
  capOver : Bool := false
  /-- MON_T_WARN in °C, signed. -/
  tWarn : Byte := tWarnDefault
  /-- MON_TEMP, Q11.4 °C per sensor. -/
  temp : Vector W16 8 := Vector.replicate 8 0
  /-- MON_VOLT in mV per rail. -/
  volt : Vector (BitVec 13) 5 := Vector.replicate 5 0
  /-- MON_MARGIN in ps per cluster. -/
  margin : Vector (BitVec 10) 16 := Vector.replicate 16 0
  /-- Core current in mA as last read over AVSBus (R598, R599). -/
  iCore : Nat := 0
  /-- The die is in the temperature warning condition (R597). -/
  inTempWarn : Bool := false
  /-- The die is in the temperature fatal condition. -/
  inTempFatal : Bool := false
  /-- Rails in the voltage warning condition. -/
  inVoltWarn : Vector Bool 5 := Vector.replicate 5 false
  /-- The die is in the timing-margin fatal condition. -/
  inMarginFatal : Bool := false
  /-- Consecutive 100 µs steps at 850 mV with the margin below target (R598). -/
  ceilingSteps : Nat := 0
  /-- AVS_CEILING has been written for the condition in force. -/
  ceilingDone : Bool := false
  /-- The die's clock at the last sample, AVS step and power-cap step (R597-R599). -/
  sampleAt : Option Nat := none
  avsAt : Option Nat := none
  capAt : Option Nat := none
  deriving DecidableEq, Repr

/-- The states of a safety input (R605). -/
inductive SafeState where
  | load
  | clear
  | wait
  | stop
  | disc
  | latched
  deriving DecidableEq, Repr

/-- One safety input (R605, R612). -/
structure SafeIn where
  /-- SAFE_IN_CFG.EN. -/
  en : Bool := false
  /-- SAFE_IN_CFG.ARMS. -/
  arms : W16 := 0
  /-- SAFE_IN_CFG.STOP: 1 PATH_STOP, 2 QUICK_STOP, 3 OFF_STOP. -/
  stop : BitVec 2 := 0
  /-- SAFE_IN_CFG.DISC_MS. -/
  discMs : Byte := 0
  /-- The state; an unused input reads CLEAR, its register's reset value. -/
  state : SafeState := .clear
  /-- Channel A requests the stop that entered WAIT; false: channel B does. -/
  waitA : Bool := false
  /-- The die's clock when the DISC_MS timer started. -/
  waitAt : Nat := 0
  /-- The channels A and B behind their 500 µs filters; high permits motion. -/
  filA : Bool := false
  filB : Bool := false
  deriving DecidableEq, Repr

/-- Safety I/O of one die (R605, R606). -/
structure Safety where
  /-- The levels at the pins of the inputs, channel A in even bits. -/
  pins : Byte := 0
  /-- The die's clock when each pin took its level. -/
  pinAt : Vector Nat 8 := Vector.replicate 8 0
  inputs : Vector SafeIn 4 := Vector.replicate 4 {}
  /-- The two safe-output copies are found different (R606). -/
  mismatch : Bool := false
  deriving DecidableEq, Repr

end Sys2Proof.Machine
end

