-- ==== Sys2Proof/Machine/Block/Host.lean ====
section
/-! DEFINITION. Host and management interfaces of one die (chapter 19). -/

namespace Sys2Proof.Machine

/-- An access to the cell view, as the endpoint receives it (R570, R571). -/
structure CvAccess where
  /-- Offset in the cell view. -/
  off : Nat
  /-- The word written; none for a read. -/
  data : Option W32
  /-- The die's clock when it was held. -/
  since : Nat := 0
  deriving DecidableEq, Repr

/-- One MSI-X table entry (R573, R574; layout of the PCI Express specification). -/
structure MsixEntry where
  addr : W64 := 0
  data : W32 := 0
  /-- Vector control; bit 0 masks the vector. -/
  ctrl : W32 := 1
  deriving DecidableEq, Repr

/-- The SYS identity, cell view and SMBus registers (R590-R592, R578-R581). -/
structure HostIf where
  /-- SYS_STATUS.NODE_DUP (R30). -/
  nodeDup : Bool := false
  /-- SYS_NODE_ID, from the image. -/
  nodeId : BitVec 12 := 0
  /-- SYS_CV_CFG.HOLD_US, reset 200. -/
  holdUs : BitVec 10 := 200
  /-- Accesses held, oldest first (R571); SYS_CV_STAT.HELD is that the list is not empty. -/
  held : List CvAccess := []
  /-- Forwarded accesses the holder has not acknowledged, oldest first (R572). -/
  unacked : List CvAccess := []
  /-- SYS_CV_STAT.NOLINK. -/
  noLink : Bool := false
  /-- SYS_CV_STAT.TIMEOUT. -/
  timeout : Bool := false
  /-- SYS_CV_STAT.UNMAPPED. -/
  unmapped : Bool := false
  /-- SYS_CV_STAT.BAD_ACCESS. -/
  badAccess : Bool := false
  /-- SYS_CV_LOG. -/
  cvLog : W32 := 0
  /-- SYS_SMB_STAT last status (R580). -/
  smbStatus : BitVec 3 := 0
  /-- SYS_SMB_STAT own address (R578). -/
  smbAddr : BitVec 7 := 0
  /-- CNT_CV_FWD, CNT_CV_HELD, CNT_CV_RESENT, CNT_CV_TIMEOUT, CNT_BAD_ACCESS, CNT_SMB_ERR. -/
  cnt : Vector W32 6 := Vector.replicate 6 0
  /-- MSI-X table of function 0. -/
  msix : Vector MsixEntry 64 := Vector.replicate 64 {}
  /-- Pending bits of function 0. -/
  pba : W64 := 0
  /-- MSI-X table of function 1. -/
  msix1 : Vector MsixEntry 4 := Vector.replicate 4 {}
  /-- Pending bits of function 1. -/
  pba1 : BitVec 4 := 0
  /-- `PCIE_PERST_N` is low (R625). -/
  perst : Bool := false
  /-- The data link layer is in DL_Active (R596). -/
  linkUp : Bool := false
  /-- How the last management access of the die ended. -/
  access : Access := .ok
  deriving DecidableEq, Repr

/-- The QSPI controller and the flash behind it (R582-R585, R593-R595). -/
structure Qspi where
  /-- QSPI_CFG.DIV, reset 1. -/
  div : BitVec 4 := 1
  /-- QSPI_CFG.IOMODE. -/
  ioMode : BitVec 2 := 0
  /-- QSPI_CFG.ADDR4. -/
  addr4 : Bool := false
  /-- QSPI_CFG.DUMMY, reset 8. -/
  dummy : BitVec 4 := 8
  /-- QSPI_CMD.OP. -/
  op : BitVec 3 := 0
  /-- QSPI_CMD.LEN. -/
  len : BitVec 9 := 0
  /-- QSPI_ADDR. -/
  addr : W32 := 0
  /-- QSPI_STAT.BUSY. -/
  busy : Bool := false
  /-- QSPI_STAT.DONE. -/
  done : Bool := false
  /-- QSPI_STAT.RESULT: 0 OK, 1 EMPTY, 2 TIMEOUT, 3 PAGE. -/
  result : BitVec 2 := 0
  /-- QSPI_STAT JEDEC ID. -/
  jedec : BitVec 24 := 0
  /-- QSPI_DATA. -/
  data : Vector Byte 256 := Vector.replicate 256 0
  /-- Operation, address and length of the command that runs, as GO took them. -/
  runOp : BitVec 3 := 0
  runAddr : Nat := 0
  runLen : Nat := 0
  /-- The die's clock at GO. -/
  since : Nat := 0
  /-- The bytes of the flash; an unlisted byte reads 0xFF, the erased value. -/
  flash : Memory := ⟨[]⟩
  deriving DecidableEq, Repr

/-- One DMA channel (R586-R589). -/
structure Dma where
  srcLo : W32 := 0
  srcHi : W32 := 0
  dstLo : W32 := 0
  dstHi : W32 := 0
  len : BitVec 25 := 0
  srcHost : Bool := false
  dstHost : Bool := false
  /-- The spaces of the transfer that runs, as GO took them. -/
  fromHost : Bool := false
  toHost : Bool := false
  /-- Bytes the transfer that runs has written. -/
  moved : Nat := 0
  /-- The channel is in RUN. -/
  busy : Bool := false
  /-- ABORT was written in RUN; the access in flight has not ended yet. -/
  aborting : Bool := false
  done : Bool := false
  status : BitVec 3 := 0
  doneLen : BitVec 25 := 0
  deriving DecidableEq, Repr

end Sys2Proof.Machine
end

