-- ==== Sys2Proof/Machine/Block/Lane.lean ====
section
/-! DEFINITION. A Mirrad lane (chapters 11 and 12). -/

namespace Sys2Proof.Machine

/-- The states of MB_LANE_STATUS.STATE in the order of their codes (R387, R397). -/
inductive LaneState where
  | off
  | silent
  | starting
  | clash
  | head
  | backup
  | stopped
  | node
  deriving DecidableEq, Repr

/-- The node states of R386 in the order of MB_LANE_STATUS.NODE_ST. -/
inductive NodeState where
  | listen
  | check
  | hold
  | joined
  deriving DecidableEq, Repr

/-- A schedule entry (R379). -/
structure SchedEntry where
  /-- First preamble bit in 4 ns ticks. -/
  offset : Nat
  node : Nat
  /-- 0 POLL, 1 RETPOLL, 2 ACYC, 3 IDLE. -/
  cls : Nat
  pollLen : Nat
  replyLen : Nat
  deadline : Nat
  deriving DecidableEq, Repr

/-- MB_LANE_CFG, the schedule and what else the image fixes of a lane (R394, R398). -/
structure LaneCfg where
  node : Bool := false
  rank : BitVec 2 := 0
  addr : BitVec 5 := 0
  preN : Nat := 2
  /-- BEACON_OFS in 4 ns ticks. -/
  beaconOfs : Nat := 0
  sched : List SchedEntry := []
  schedId : W32 := 0
  hostBase : BitVec 28 := 0
  /-- UIDs of the objects of a node lane, in list order (R42, R363). -/
  objs : List W16 := []
  deriving DecidableEq, Repr

/-- The reply a head waits for (R368). -/
structure ReplyWait where
  slot : Nat
  seq : Byte
  node : Nat
  acyc : Bool
  replyLen : Nat
  deadline : Nat
  /-- End of the request's EOF at the head. -/
  eof : W32
  /-- The frame carried the request at the front of `reqs`, and not a host's own frame (R394). -/
  queued : Bool
  /-- The window has ended with no SOF in it: the reply counts as missed, its cause waits for the end of the entry. -/
  lapsed : Bool := false
  deriving DecidableEq, Repr

/-- An acyclic request (R364, R374, R393). -/
structure AcycReq where
  /-- 1 READ, 2 WRITE. -/
  op : Nat
  node : Nat
  obj : W16
  sub : Byte
  ofs : W16
  /-- Data of a WRITE. -/
  data : List Byte
  /-- Bytes asked by a READ. -/
  count : Nat
  /-- The device's own write of APPLY_OFS (R373, R389), not the mailbox's. -/
  own : Bool
  /-- Frames sent so far, and the SEQ they carry. -/
  sends : Nat := 0
  seq : Byte := 0
  deriving DecidableEq, Repr

/-- A TX group taken for a target (R380): role, and the payloads of its entries. -/
structure TxTaken where
  role : Nat
  cyc : W32
  group : Option (List (List W32))
  deriving DecidableEq, Repr

/-- A frame being sent on a lane, or the last one sent. -/
structure LaneTx where
  /-- Time of its first preamble bit. -/
  start : W32
  /-- The bytes between SOF and EOF. -/
  bytes : List Byte
  /-- When it was broken off (R387). -/
  cut : Option (W32) := none
  deriving DecidableEq, Repr

/-- A lane (R349-R401). -/
structure Lane where
  state : LaneState := .off
  nodeSt : NodeState := .listen
  cfg : LaneCfg := {}
  /-- MB_LANE_CTRL.HOST_REQ, and host-composed frames in force. -/
  hostReq : Bool := false
  host : Bool := false
  timeSkew : Bool := false
  deposed : Bool := false
  schedMismatch : Bool := false
  tcMismatch : Bool := false
  hostBad : Bool := false
  clashCnt : BitVec 3 := 0
  headRank : BitVec 2 := 0
  epoch : Byte := 0
  /-- The last EPOCH received since image load. -/
  epochRx : Option Byte := none
  laneOfs : W32 := 0
  /-- Bit k: node k ABSENT; ALARM seen. -/
  absent : BitVec 17 := 0
  alarm : BitVec 17 := 0
  /-- CNT_BEACON, CNT_CODE_ERR, CNT_LEN_ERR, CNT_CRC_ERR, CNT_TYPE_ERR, CNT_EPOCH_ERR, CNT_NO_REPLY,
  CNT_LATE_REPLY, CNT_MISMATCH, CNT_CLASH, CNT_TAKEOVER, CNT_HOST_BAD, CNT_MISSED. -/
  cnt : Vector W32 13 := Vector.replicate 13 0
  /-- Lane cycle N of the session's first beacon (R383). -/
  session : Option W32 := none
  /-- The epoch of the session to come has been fixed by its STARTUP. -/
  epochFixed : Bool := false
  /-- The first beacon waits for a cycle start at or after this time (R387). -/
  startAfter : Option W32 := none
  /-- Lane cycle of the last beacon sent. -/
  beaconCyc : Option W32 := none
  /-- Time of the last SOF detected, or of entry into the state that counts silence. -/
  lastSof : W32 := 0
  /-- Beacons in a row not read back (R463). -/
  unread : Nat := 0
  /-- Consecutive missed POLL replies per node (R391). -/
  missed : Vector Nat 17 := Vector.replicate 17 0
  waiting : Option ReplyWait := none
  /-- Entries of the schedule whose frame has gone out in this lane cycle (R378). -/
  sent : List Nat := []
  /-- The session has reached its full service (R383). -/
  full : Bool := false
  /-- The frame on the lane (R354, R355). -/
  tx : Option LaneTx := none
  taken : List TxTaken := []
  /-- RX entries that wait for the other joints of their engine on the lane: joint, cycle and payload (R376). -/
  rxHeld : List (Nat × W32 × List W32) := []
  /-- A master follows a head; the last accepted beacon: its lane cycle, the cycle start derived or expected, beacons missing since. -/
  follows : Bool := false
  lastCyc : W32 := 0
  lastStart : W32 := 0
  missing : Nat := 0
  /-- T_c of the TC_CODE of that beacon, in ns (R385). -/
  lastTc : Nat := 31250
  /-- End of the last frame received (R386). -/
  lastEof : W32 := 0
  /-- A BACKUP has seen a POLL to this node and waits for its REPLY, of this SLOT (R388). -/
  watch : Option (Nat × Byte) := none
  /-- A BACKUP accepted a beacon whose SCHED_ID and TC_CODE equal its own. -/
  beaconOk : Bool := false
  /-- APPLY_OFS known to hold at a node: (node, JIDX, value) (R388, R389). -/
  applyOfs : List (Nat × Nat × W16) := []
  /-- An APPLY_OFS write seen on the lane and not acknowledged yet. -/
  seenWrite : Option (Nat × Nat × W16 × Byte) := none
  /-- MB_ACYC_CMD, MB_ACYC_ARG, MB_ACYC_STAT, MB_ACYC_DATA. -/
  acOp : BitVec 2 := 0
  acNode : BitVec 5 := 0
  acSub : Byte := 0
  acObj : W16 := 0
  acOfs : W16 := 0
  acCount : BitVec 9 := 0
  acBusy : Bool := false
  acDone : Bool := false
  acResult : BitVec 3 := 0
  acRcount : BitVec 10 := 0
  acData : Vector Byte 512 := Vector.replicate 512 0
  /-- Requests waiting or in progress: the device's own first, then the mailbox's. -/
  reqs : List AcycReq := []
  /-- Last SEQ used toward each node (R374). -/
  seqs : Vector Byte 17 := Vector.replicate 17 0
  /-- Node role: SEQ and reply payload of the last completed request (R374). -/
  lastReply : Option (Byte × List Byte) := none
  deriving DecidableEq, Repr

end Sys2Proof.Machine
end

