-- ==== Sys2Proof/Machine/Block/Queue.lean ====
section
/-! DEFINITION. The credit queues of one die (chapter 05). -/

namespace Sys2Proof.Machine

/-- The classes of R150; the order is the code of QRC_Q_CFG.CLASS. -/
inductive QClass where
  | rx
  | sp
  | pg
  | hs
  | tx
  | pw
  | ca
  deriving DecidableEq, Repr

/-- A queue declaration of the QUEUE section (R149, R496). -/
structure QueueDecl where
  /-- Queue number. -/
  num : Nat
  cls : QClass
  /-- Producer and consumer UID. -/
  prod : W16
  cons : W16
  depth : Nat
  /-- Payload words per entry. -/
  words : Nat
  lookout : Nat
  hc : Nat
  /-- The joint or small axis an HS queue feeds. -/
  feeds : Option W16
  /-- BAR2 offset of the ring, placed by the image (R149, chapter 09). -/
  base : Nat := 0
  deriving DecidableEq, Repr

/-- A queue entry (R152): the header fields, the payload words and its place in the ring. -/
structure QEntry where
  epoch : Byte
  tgt : W16
  commit : Bool := false
  last : Bool
  payload : List W32
  slot : Nat := 0
  deriving DecidableEq, Repr

/-- One queue (R149-R179). -/
structure Queue where
  /-- The image declares the queue. -/
  used : Bool := false
  cls : QClass := .rx
  prod : W16 := 0
  cons : W16 := 0
  depth : Nat := 0
  words : Nat := 0
  lookout : Nat := 0
  hc : Nat := 0
  feeds : Option W16 := none
  /-- BAR2 offset of the ring, and the slot the next entry takes. -/
  base : Nat := 0
  nextSlot : Nat := 0
  cap : BitVec 9 := 0
  epoch : Byte := 0
  /-- The grant G. -/
  grant : Nat := 0
  /-- Entries in the ring, oldest first. -/
  ring : List QEntry := []
  /-- The dequeue port: the group the consuming engine has dequeued and not yet released. -/
  port : List QEntry := []
  /-- Credits the producer has taken for entries it has not enqueued yet. -/
  taken : Nat := 0
  /-- Last target enqueued and last target committed (QRC_Q_TGT). -/
  lastTgt : W16 := 0
  /-- Cycle of the newest closed group that no squash has taken back, consumed or not (R153, R345). -/
  closedCyc : Option W32 := none
  lastCommit : W16 := 0
  conflict : Bool := false
  cntStall : W16 := 0
  cntSquash : W16 := 0
  cntUnderrun : W16 := 0
  cntLate : W16 := 0
  /-- The producer stalled for credit in the cycle in progress (R156, R171). -/
  stalled : Bool := false
  /-- Entries enqueued and entries squashed in the cycle in progress. -/
  enqNow : Nat := 0
  squashNow : Nat := 0
  /-- The same of the last 255 cycles, newest first (R171). -/
  hist : List (Nat × Nat) := []
  /-- Consecutive underruns (R160), and whether their record is written. -/
  underruns : Nat := 0
  underrunDone : Bool := false
  /-- Both as they stood before the last dequeue that delivered, until an entry of it counts as an
  underrun (R192). -/
  before : Option (Nat × Bool) := none
  /-- A fault squash has been requested since the last boundary (R163, R164). -/
  faultSquash : Bool := false
  /-- Cycles until a rebound dequeue port serves its new engine (R170). -/
  rebind : Nat := 0
  /-- Words and cycle of the last group delivered to the consuming engine (R310). -/
  lastGroup : List W32 := []
  lastCyc : Option W32 := none
  /-- Cycle in which the engine that runs a library program last dequeued here (R155, R159). -/
  tried : Option W32 := none
  deriving DecidableEq, Repr

/-- The QRC block (R173-R175). -/
structure Qrc where
  queues : Vector Queue 1024 := Vector.replicate 1024 {}
  freeze : Bool := false
  creditConflict : Bool := false
  orderErr : Bool := false
  lastQ : BitVec 10 := 0
  deriving DecidableEq, Repr

end Sys2Proof.Machine
end

