-- ==== Sys2Proof/Machine/Block/Red.lean ====
section
/-! DEFINITION. Unit states, grant, takeover and the standby's copies (chapter 15). -/

namespace Sys2Proof.Machine

/-- The unit states; the order is the code of R325. -/
inductive UnitState where
  | off
  | reset
  | selftest
  | standby
  | active
  | draining
  | faulted
  | quarantined
  deriving DecidableEq, Repr

/-- A unit of KIND 0-10, 13 or 15 (R459-R465, R488). -/
structure UnitRec where
  state : UnitState := .off
  /-- RED_UNIT_STAT.DATA_SILENT. -/
  silent : Bool := false
  /-- RED_UNIT_STAT.FAULT_CNT. -/
  faultCnt : BitVec 4 := 0
  /-- RED_UNIT_STAT.ROLE: the UID of the role held; 0 none. -/
  role : W16 := 0
  /-- CYC of the last pass through SELFTEST (R461). -/
  passCyc : Option W32 := none
  /-- The newest fault was at least the second, within 2^20 cycles of that pass (R461). -/
  again : Bool := false
  /-- The role of a FAULTED unit has been released by a stop (R460 RECOVER). -/
  released : Bool := false
  /-- The WARN record RED_STATE_CONFLICT has been written for the unit (R464). -/
  conflictDone : Bool := false
  /-- A takeover that names the unit is in progress (R465). -/
  inTakeover : Bool := false
  /-- QUARANTINE waits for the takeover to end (R484). -/
  quarantine : Bool := false
  deriving DecidableEq, Repr

/-- The health record of a cluster spare (R488). -/
structure SpareHealth where
  passCyc : W32 := 0
  fails : Byte := 0
  deriving DecidableEq, Repr

/-- The states of the takeover machine; the order is the code of TK_STATE (R477, R490). -/
inductive TkState where
  | standby
  | armed
  | shadow
  | duty
  | unfit
  | waitoff
  deriving DecidableEq, Repr

/-- An engine takeover in progress: the successor loads the role (R469, R470). -/
structure EngTake where
  /-- Role engine 0-79 whose role moves. -/
  role : Nat
  /-- Engine number 0-79 of the failed or drained unit. -/
  fromEng : Nat
  /-- Engine number 0-79 of the successor. -/
  toEng : Nat
  /-- Cycle of the detection. -/
  cyc : W32
  /-- The successor is a spare of another cluster. -/
  cross : Bool
  /-- The takeover is a DRAIN (R471). -/
  drain : Bool
  /-- The successor of a DRAIN has loaded the role. -/
  loaded : Bool := false
  deriving DecidableEq, Repr

/-- The RED block of one die, its gate and its grant line (R459-R491). -/
structure Red where
  /-- Units in the order of `unitSlot`. -/
  units : Vector UnitRec 1189 := Vector.replicate 1189 {}
  spares : Vector SpareHealth 16 := Vector.replicate 16 {}
  /-- RED_UNIT_SEL, reset 0xFFFF. -/
  sel : W16 := 0xFFFF
  /-- RED_CTRL.HOST_CONFIRM as written. -/
  confirmReq : Bool := false
  /-- Host-confirmed die takeovers in force (R481). -/
  confirmMode : Bool := false
  /-- RED_CONFIRM has been written since the holder became silent. -/
  confirmed : Bool := false
  /-- This die asserts its grant line (R473). -/
  grant : Bool := false
  /-- The tick of the die at which a GRANT_REQ brought the grant (R474). -/
  grantAt : Option Nat := none
  /-- The LIVE strobe toggles. -/
  live : Bool := false
  /-- Ticks of 4 ns since the last edge of LIVE; 0 while it toggles. -/
  quiet : Nat := 0
  /-- The gate is open: the shared-ball enables follow the die (R473). -/
  gateOpen : Bool := false
  /-- The gate has latched the enables off until the die is reset. -/
  latched : Bool := false
  /-- RED_STATUS.LINK_UP. -/
  linkUp : Bool := false
  /-- Cairns on their way to the standby, oldest first: role engine, buffer contents and the state of a
  library program (R466, R650). -/
  cairnTx : List (Nat × List Byte × CairnState) := []
  /-- RED_STATUS.REDUNDANCY_DEGRADED, reset 1. -/
  degraded : Bool := true
  /-- RED_STATUS.DEGR_CAUSE. -/
  cause : BitVec 3 := 0
  /-- RED_STATUS.TK_STATE. -/
  tk : TkState := .standby
  /-- RED_STATUS.NO_SPARE. -/
  noSpare : BitVec 4 := 0
  /-- RED_HB_LAST. -/
  hbLast : W32 := 0
  /-- A heartbeat of a cycle after d has arrived since the holder became silent. -/
  hbSince : Bool := false
  /-- Image signature word of the last heartbeat. -/
  hbSig : W32 := 0
  /-- RED_TK_CYC: d of the last die takeover. -/
  tkCyc : W32 := 0
  /-- d of the takeover in progress (R475). -/
  silentAt : W32 := 0
  /-- A heartbeat has arrived since this die started. -/
  hbSeen : Bool := false
  /-- The handover token received: its cycle n. -/
  handoverRx : Option W32 := none
  /-- A handover in progress on the holder: the cycle n of HO(n). -/
  handingOver : Option W32 := none
  /-- That handover was requested by RED_CTRL.HANDOVER (R481). -/
  handoverCmd : Bool := false
  /-- RED_DIE_HLTH. -/
  dieHealth : W32 := 0
  /-- The last complete rotation passed. -/
  rotationOk : Bool := false
  /-- Blocks tested in the rotation now running, and whether all of them passed (R486). -/
  blockNext : Nat := 0
  blockOk : Bool := true
  /-- RED_DIE_FAIL. -/
  dieFail : W16 := 0
  /-- CNT_ENG_TAKEOVER, CNT_XCL_TAKEOVER, CNT_DIE_TAKEOVER, CNT_TK_ABANDON, CNT_CAIRN_BAD,
  CNT_STATE_CONFLICT, CNT_QUARANTINE, CNT_BIST_FAIL. -/
  cnt : Vector W32 8 := Vector.replicate 8 0
  /-- CYC of the newest accepted cairn of each role (R468). -/
  cairnCyc : Vector (Option W32) 80 := Vector.replicate 80 none
  /-- The WARN record RED_CAIRN_GAP has been written for the engine (R466). -/
  cairnGap : Vector Bool 80 := Vector.replicate 80 false
  /-- R487 held at the end of the last cell cycle. -/
  fit : Bool := false
  /-- Engine takeovers in progress. -/
  takes : List EngTake := []
  /-- The cluster of the next BIST slot, and the CLK_PER count at which the last slot began (R485). -/
  bistNext : Nat := 0
  bistAt : Option Nat := none
  deriving DecidableEq, Repr

end Sys2Proof.Machine
end

