-- ==== Sys2Proof/Machine/Block/Sep.lean ====
section
/-! DEFINITION. The separation monitor: geometry of the image, sensors, scales (chapter 04). -/

namespace Sys2Proof.Machine

/-- A point or vector with integer contents in Q15.16. -/
structure P3 where
  x : Int
  y : Int
  z : Int
  deriving DecidableEq, Repr

/-- A capsule: end points and radius in Q15.16 mm (R113). -/
structure Capsule where
  a : P3
  b : P3
  r : Nat
  deriving DecidableEq, Repr

/-- A unit quaternion in Q1.30. -/
structure Quat where
  w : Int
  x : Int
  y : Int
  z : Int
  deriving DecidableEq, Repr

/-- One joint record of a kinematic model (R115). -/
structure LinkDecl where
  joint : Nat
  trans : P3
  rot : Quat
  /-- Prismatic along z; false: revolute about z. -/
  prismatic : Bool
  deriving DecidableEq, Repr

/-- An arm of the GEOM and CELL sections (R10, R18, R115, R119). -/
structure ArmDecl where
  arm : Nat
  region : Nat
  /-- Z_r in Q15.16 mm. -/
  zr : Nat
  baseTrans : P3
  baseRot : Quat
  links : List LinkDecl
  /-- Link capsules: position in the chain and capsule in its link frame. -/
  caps : List (Nat × Capsule)
  /-- Reach envelope (R19). -/
  envelope : Capsule
  deriving DecidableEq, Repr

/-- A zone capsule and its covering sensors (R113, R119). -/
structure ZoneDecl where
  zone : Nat
  cap : Capsule
  sensors : List Nat
  c : Nat
  zd : Nat
  deriving DecidableEq, Repr

/-- An operator sensor (R119, R140). -/
structure SensorDecl where
  sensor : Nat
  maxAge : Nat
  c : Nat
  zd : Nat
  deriving DecidableEq, Repr

/-- Region values of the monitor (R119, R124, R130): region, T_S and T_RISE in ms, ROWS_PP. -/
structure SepRegionDecl where
  region : Nat
  tS : Nat
  tRise : Nat
  rowsPp : Nat
  /-- POSVAR, VELVAR and ACCVAR of each joint of the region within a step (R130, R196). -/
  vars : List (Nat × Nat × Nat × Nat)
  deriving DecidableEq, Repr

/-- The GEOM section (R113-R120). -/
structure GeomSec where
  arms : List ArmDecl := []
  obstacles : List Capsule := []
  zones : List ZoneDecl := []
  sensors : List SensorDecl := []
  regions : List SepRegionDecl := []
  /-- V_H in Q15.16 mm/s, default 1,600. -/
  vH : Nat := 1600 * 65536
  obstClear : Nat := 0
  armClear : Nat := 0
  deriving DecidableEq, Repr

/-- States of R140; the order is the code of SEP_SENS_STAT.STATE. -/
inductive SensState where
  | unused
  | absent
  | fresh
  deriving DecidableEq, Repr

/-- The newest accepted frame of a sensor (R138). -/
structure SensFrame where
  ts : W32
  zones : W32
  pts : List P3
  deriving DecidableEq, Repr

/-- One operator sensor (R139, R140, R143, R147). -/
structure Sensor where
  state : SensState := .unused
  healthy : Bool := false
  lastSeq : W32 := 0
  /-- A frame has been accepted since the last cold reset. -/
  seqSeen : Bool := false
  frame : Option SensFrame := none
  /-- CNT_AUTH and CNT_OLD. -/
  cntAuth : W32 := 0
  cntOld : W32 := 0
  /-- SENS_UNHEALTHY has been written since image load or the last exit from FRESH. -/
  unhealthyDone : Bool := false
  /-- The words of SEP_SENS_KEY as written, and the key loaded. -/
  keyWords : Vector W32 4 := Vector.replicate 4 0
  key : Option (List Byte) := none
  deriving DecidableEq, Repr

/-- Results and holds of one arm (R123, R128, R136). -/
structure SepArm where
  target : W16 := 0
  limIdx : Byte := 0
  limKind : BitVec 3 := 0
  dmin : W32 := 0
  hostScale : W16 := 0x8000
  /-- Smallest pair bound of the newest published period. -/
  pairTarget : W16 := 0
  /-- The target is held at 0 after a mismatch or overrun. -/
  held : Bool := false
  deriving DecidableEq, Repr

/-- Scale, rows and plan time of one region (R124, R125, R132). -/
structure SepRegion where
  applied : W16 := 0
  /-- s of the cycle before. -/
  prev : W16 := 0
  target : W16 := 0
  /-- Plan time in 2^-16 ns, modulo 2^48. -/
  tau : Nat := 0
  buf : Bool := false
  valid : Bool := false
  seq : W16 := 0
  /-- No plan has been published under the geometry or template in force (R131, R507). -/
  noRows : Bool := false
  deriving DecidableEq, Repr

/-- What the monitor samples of a joint (R115, R122, R193). -/
structure SepSample where
  joint : Nat
  q : Int
  dq1 : Int
  braking : Bool
  /-- Time to rest of a braking joint in ns. -/
  tb : Nat
  deriving DecidableEq, Repr

/-- States of R137; the order is the code of SEP_STATUS.STATE. -/
inductive SepState where
  | off
  | run
  | stopped
  deriving DecidableEq, Repr

/-- The separation monitor (R113-R148). -/
structure Sep where
  state : SepState := .off
  mismatch : Bool := false
  overrun : Bool := false
  scaleConflict : Bool := false
  clearance : Bool := false
  phaseSCyc : W32 := 0
  phaseRCyc : W32 := 0
  sampleCyc : W32 := 0
  arms : Vector SepArm 16 := Vector.replicate 16 {}
  regions : Vector SepRegion 4 := Vector.replicate 4 {}
  sensors : Vector Sensor 16 := Vector.replicate 16 {}
  /-- CNT_PERIODS, CNT_MISMATCH, CNT_OVERRUN, CNT_LIMITED, CNT_SCALE_CONFLICT, CNT_CLEARANCE. -/
  cnt : Vector W32 6 := Vector.replicate 6 0
  cntSensBad : W32 := 0
  /-- The joints as sampled, and the frames of the FRESH sensors and the occupied zones then. -/
  sample : List SepSample := []
  points : List (Nat × List P3) := []
  occupied : List Nat := []
  /-- Phase S, then phase R, of the period has still to end. -/
  phaseS : Bool := false
  phaseR : Bool := false
  /-- The geometry of the image in force. -/
  geom : GeomSec := {}
  deriving DecidableEq, Repr

end Sys2Proof.Machine
end

