-- ==== Sys2Proof/Machine/Block/Time.lean ====
section
/-! DEFINITION. Cell time, triggers, captures and time ports of one die (chapter 14). -/

namespace Sys2Proof.Machine

/-- The seconds epoch in force (R441). -/
structure Epoch where
  sec : Nat
  ns : Nat
  /-- WRAP8 of the wrap it belongs to. -/
  tag : Byte
  deriving DecidableEq, Repr

/-- The time counter, the cycle generator and their registers (R434-R447, R452-R454). -/
structure TimeUnit where
  /-- TIME_NS. -/
  ns : W32 := 0
  /-- TIME_FRAC: the 32 fraction bits. -/
  frac : W32 := 0
  /-- TIME_RATE, signed, 2^-32 ns per tick. -/
  rate : W32 := 0
  /-- The amortisation remainder in 2^-32 ns; TIME_CORR_REM shows its whole ns. -/
  remaining : Int := 0
  /-- TIME_STATUS.STATE is LOCKED. -/
  locked : Bool := false
  /-- TIME_STATUS.TOKEN, reset 1. -/
  token : Bool := true
  /-- TIME_STATUS.JUMP_REFUSED. -/
  jumpRefused : Bool := false
  /-- TIME_STATUS.RATE_CLAMP. -/
  rateClamp : Bool := false
  /-- TIME_STATUS.EPOCH_STALE, reset 1. -/
  epochStale : Bool := true
  /-- TIME_STATUS.QUAL. -/
  qual : Bool := false
  /-- TIME_STATUS.DIE_SKEW. -/
  dieSkew : Bool := false
  /-- TIME_STATUS.WRAP8. -/
  wrap8 : Byte := 0
  /-- TIME_NS_WRAP. -/
  wrapLatch : Byte := 0
  /-- TIME_CORR_Q.QUAL. -/
  corrQual : Bool := false
  /-- TIME_JUMP_TH. -/
  jumpTh : BitVec 24 := 1000
  /-- TIME_SLEW.SLEW_PPM. -/
  slewPpm : BitVec 9 := 100
  /-- TIME_EPOCH_SEC_LO. -/
  epochSecLo : W32 := 0
  /-- TIME_EPOCH_SEC_HI. -/
  epochSecHi : W16 := 0
  /-- TIME_EPOCH_NS. -/
  epochNs : BitVec 30 := 0
  /-- The committed epoch. -/
  epoch : Option Epoch := none
  /-- TIME_CYC_CFG.CYC_ALIGN in ns. -/
  cycAlign : BitVec 18 := 0
  /-- TIME_CYC_CFG.CYC_SLEW in ns. -/
  cycSlew : BitVec 7 := 4
  /-- TIME_CYC_PHASE, signed. -/
  cycPhase : W32 := 0
  /-- TIME_DIE_SKEW, signed. -/
  dieSkewNs : W32 := 0
  /-- CNT_CORR, CNT_REFUSED, CNT_STEP, CNT_RATE_CLAMP, CNT_STALE, CNT_DIE_SKEW. -/
  cnt : Vector W32 6 := Vector.replicate 6 0
  /-- CYC, the number of the cell cycle in progress (R7). -/
  cyc : W32 := 0
  /-- The cycle generator runs: an image is in force (R446). -/
  cycRun : Bool := false
  /-- No cycle has started since the image came into force; the next start is cycle 0. -/
  cycFirst : Bool := false
  /-- Nominal start of the next cycle. -/
  nominal : W32 := 0
  /-- Start time of the cycle in progress. -/
  start : W32 := 0
  /-- The clock switch that follows a warm reset has yet to come (R434). -/
  afterWarm : Bool := false
  /-- Periods of CLK_PER that have run: what ticks and PWM counters count (R223, R229). -/
  per : Nat := 0
  deriving DecidableEq, Repr

/-- A trigger (R448, R449, R455). -/
structure Trigger where
  /-- TRIG_CFG.MODE: 0 OFF, 1 SINGLE, 2 PERIODIC, 3 CYCLE. -/
  mode : BitVec 2 := 0
  /-- TRIG_CFG.POL. -/
  pol : Bool := false
  /-- TRIG_CFG.PW, reset 25. -/
  pw : BitVec 12 := 25
  /-- TRIG_CFG.CDIV, reset 1. -/
  cdiv : Byte := 1
  cmp : W32 := 0
  period : W32 := 0
  armed : Bool := false
  late : Bool := false
  active : Bool := false
  cntLate : W32 := 0
  cntSkip : W32 := 0
  /-- The tick at which the output became active. -/
  onAt : Nat := 0
  /-- The cell cycle in which a CYCLE trigger last fired. -/
  onCyc : Option W32 := none
  deriving DecidableEq, Repr

/-- A capture input (R450, R456). -/
structure Capture where
  /-- CAPT_CFG.EDGE. -/
  edge : BitVec 2 := 0
  /-- CAPT_CFG.FILT. -/
  filt : BitVec 3 := 0
  /-- The FIFO, oldest first, at most 4: TIME_NS of the edge, and rising. -/
  fifo : List (W32 × Bool) := []
  ovf : Bool := false
  /-- Changes of the input under way through the filter. -/
  pend : List InEdge := []
  deriving DecidableEq, Repr

/-- A PTP stamp (R442). -/
structure Stamp where
  ns : W32
  wrap8 : Byte
  messageType : BitVec 4
  oneStep : Bool
  sequenceId : W16
  deriving DecidableEq, Repr

/-- A time port (R429-R433, R442-R445, R457). -/
structure EthPort where
  /-- ETH_CFG.MODE. -/
  mode : BitVec 2 := 0
  anEn : Bool := false
  /-- ETH_STATUS.LINK. -/
  link : Bool := false
  tsOvf : Bool := false
  /-- ETH_STATUS.ROLE_SRC. -/
  roleSrc : Bool := false
  /-- ETH_TS_CFG.HOST as written. -/
  hostReq : Bool := false
  /-- Host-assisted timestamps in force (R445). -/
  host : Bool := false
  txLat : BitVec 10 := 0
  rxLat : BitVec 10 := 0
  /-- Receive stamps, oldest first, at most 16. -/
  rxFifo : List Stamp := []
  /-- Transmit stamps, oldest first, at most 16. -/
  txFifo : List Stamp := []
  /-- CNT_RX_OK, CNT_RX_DROP, CNT_FCS_ERR, CNT_TX_OK, CNT_TWO_STEP_FALLBACK. -/
  cnt : Vector W32 5 := Vector.replicate 5 0
  deriving DecidableEq, Repr

end Sys2Proof.Machine
end

