-- ==== Sys2Proof/Machine/State.lean ====
section
/-! DEFINITION. The state of the package: two dies, the interlock between them, and the commands
that wait. -/

namespace Sys2Proof.Machine

/-- What a standby held when it found the holder silent and its shadow cycles change (R477). -/
structure ShadowKept where
  joints : Vector Joint 128
  regions : Vector Region 4
  axes : Vector Axis 16
  deriving DecidableEq, Repr

/-- One controller die. -/
structure Die where
  /-- SYS_ID.DIE (R590). -/
  id : DieId
  /-- What an abandoned takeover puts back (R477). -/
  kept : Option ShadowKept := none
  time : TimeUnit := {}
  trig : Vector Trigger 8 := Vector.replicate 8 {}
  capt : Vector Capture 8 := Vector.replicate 8 {}
  eth : Vector EthPort 2 := Vector.replicate 2 {}
  red : Red := {}
  qrc : Qrc := {}
  eng : Vector Engine 80 := Vector.replicate 80 {}
  /-- Slot k, 0 or 1, of each role's newest cairn buffer (R314). -/
  cairnSel : Vector Bool 80 := Vector.replicate 80 false
  /-- The control state of library programs in the newest cairn of each role (R650). -/
  cairnState : Vector CairnState 80 := Vector.replicate 80 {}
  joints : Vector Joint 128 := Vector.replicate 128 {}
  regions : Vector Region 4 := Vector.replicate 4 {}
  sep : Sep := {}
  axes : Vector Axis 16 := Vector.replicate 16 {}
  pwm : PwmCfg := {}
  encs : Vector Enc 16 := Vector.replicate 16 {}
  /-- The levels that stand at the pins A (bit 0), B and I of each port (R253). -/
  encPins : Vector (BitVec 3) 16 := Vector.replicate 16 0
  /-- The levels that stand at `CAPT0` to `CAPT7` (R450). -/
  captPins : BitVec 8 := 0
  lanes : Vector Lane 8 := Vector.replicate 8 {}
  cans : Vector Can 4 := Vector.replicate 4 {}
  img : ImageUnit := {}
  boot : Boot := {}
  sec : Security := {}
  jtag : Jtag := {}
  rst : ResetPins := {}
  pwr : Power := {}
  clk : Clock := {}
  host : HostIf := {}
  qspi : Qspi := {}
  dma : Vector Dma 4 := Vector.replicate 4 {}
  mon : Mon := {}
  err : ErrLog := {}
  safe : Safety := {}
  /-- The SRAM of the die by BAR2 offset (R568). -/
  sram : Memory := ⟨[]⟩
  /-- BAR2 offsets of 64-bit words with an uncorrectable ECC error (R566). -/
  eccBad : List Nat := []
  /-- BAR2 offsets of 64-bit words with a correctable ECC error (R321). -/
  eccSoft : List Nat := []
  /-- What the die has driven out, newest first: the model's own trace. -/
  out : List OutMsg := []
  /-- Ticks of 4 ns that have passed: the model's own clock, for limits that run without CLK_PER (log entry 40). -/
  real : Nat := 0
  /-- Free values taken so far: the model's own counter (log entry 2). -/
  fresh : Nat := 0
  deriving DecidableEq, Repr

/-- What belongs to the package and not to a die (R24, R459, R476). -/
structure Package where
  /-- The unit states of the package's blocks: KIND 15, DIE 2 (R36, R459; log entry 121). -/
  units : Vector UnitRec 3 := Vector.replicate 3 {}
  /-- Levels of `SAFE_OUT_A` and `SAFE_OUT_B`; true permits motion. -/
  safeA : Bool := false
  safeB : Bool := false
  /-- Ticks of 4 ns since a die last drove the shared balls. -/
  undriven : Nat := 0
  deriving DecidableEq, Repr

/-- Both dies, the package and the commands that wait, first in, first out. -/
structure State where
  a : Die
  b : Die
  pkg : Package
  pending : List Instr
  deriving DecidableEq, Repr

/-- A step never stops the block with a fault: what the manual calls a fault is a next state. -/
inductive Fault where
  /-- Raised by nothing: kept so that the type is a closed inductive; safe. -/
  | none
  deriving DecidableEq, Repr

/-- Commands the model gives no meaning. -/
inductive Refusal where
  /-- Raised by the dispatch for a command without a meaning; safe. -/
  | notModelled (mnemonic : String)
  deriving DecidableEq, Repr

/-- A die right after a cold reset, held by `POR_N`: every register at its reset value (R8, R641; log
entry 3 names the values the manual does not give). -/
def Die.cold (id : DieId) : Die := { id := id, rst := { por := true } }

/-- The package right after reset: both dies held by `POR_N`, nothing driven, no command waiting. -/
def State.reset : State := { a := Die.cold .a, b := Die.cold .b, pkg := {}, pending := [] }

end Sys2Proof.Machine
end

