-- ==== Sys2Proof/Machine/Ops.lean ====
section
/-! DEFINITION. The operations every family shares: tables, memory cells, byte orders, UIDs, the
error log, interrupts and management accesses. -/

namespace Sys2Proof.Machine

/-! Words, bytes and memory -/

/-- A counter register counts up and holds at its largest value (R457, R490, R556). -/
def satInc {w : Nat} (x : BitVec w) : BitVec w := if x = BitVec.allOnes w then x else x + 1

/-- `n` more on a saturating counter. -/
def satAdd {w : Nat} (n : Nat) (x : BitVec w) : BitVec w :=
  if x.toNat + n < 2 ^ w then BitVec.ofNat w (x.toNat + n) else BitVec.allOnes w

/-- Little-endian bytes of a number (R6). -/
def leBytes : Nat → Nat → List Byte
  | 0, _ => []
  | n + 1, x => BitVec.ofNat 8 x :: leBytes n (x / 256)

/-- The `n` bytes of a number, highest first. -/
def beBytes (n x : Nat) : List Byte := (leBytes n x).reverse

/-- The number that little-endian bytes spell (R6). -/
def leNat : List Byte → Nat
  | [] => 0
  | b :: r => b.toNat + 256 * leNat r

/-- `n` bytes of a list from `a` on, padded with 0. -/
def sliceBytes (l : List Byte) (a n : Nat) : List Byte :=
  let s := (l.drop a).take n
  s ++ List.replicate (n - s.length) 0

/-- The little-endian number in `n` bytes of a list from `a` on. -/
def fieldAt (l : List Byte) (a n : Nat) : Nat := leNat (sliceBytes l a n)

/-- A list of bytes with the bytes `v` laid over it from `a` on. -/
def overlay (l : List Byte) (a : Nat) (v : List Byte) : List Byte :=
  sliceBytes l 0 a ++ v ++ l.drop (a + v.length)

/-- Bits [hi:lo] of a word as a number. -/
def bits {w : Nat} (x : BitVec w) (hi lo : Nat) : Nat := x.toNat / 2 ^ lo % 2 ^ (hi + 1 - lo)

/-- Bit `i` of a word. -/
def bit {w : Nat} (x : BitVec w) (i : Nat) : Bool := x.getLsbD i

/-- A Bool as a bit of weight 2^i. -/
def flag (b : Bool) (i : Nat) : Nat := if b then 2 ^ i else 0

/-- The byte at an address; `dflt` is what an unlisted address reads as. -/
def cellsGet (dflt : Byte) (a : Nat) : List Host.Cell → Byte
  | [] => dflt
  | (b, v) :: r => if a = b then v else cellsGet dflt a r

/-- One byte written; the list keeps its canonical form. -/
def cellsPut (dflt : Byte) (a : Nat) (v : Byte) : List Host.Cell → List Host.Cell
  | [] => if v = dflt then [] else [(a, v)]
  | (b, w) :: r =>
    if a < b then (if v = dflt then (b, w) :: r else (a, v) :: (b, w) :: r)
    else if a = b then (if v = dflt then r else (a, v) :: r)
    else (b, w) :: cellsPut dflt a v r

/-- Addresses strictly rising from `lo` on, and no entry equal to the default byte. -/
def cellsWf (dflt : Byte) : Nat → List Host.Cell → Bool
  | _, [] => true
  | lo, (b, v) :: r => decide (lo ≤ b) && decide (v ≠ dflt) && cellsWf dflt (b + 1) r

/-- The canonical form of a memory whose unlisted bytes read `dflt`. -/
def Memory.wf (dflt : Byte) (m : Memory) : Bool := cellsWf dflt 0 m.cells

def Memory.get (dflt : Byte) (m : Memory) (a : Nat) : Byte := cellsGet dflt a m.cells

def Memory.put (dflt : Byte) (m : Memory) (a : Nat) (v : Byte) : Memory :=
  ⟨cellsPut dflt a v m.cells⟩

/-- `n` bytes from `a` on. -/
def Memory.read (dflt : Byte) (m : Memory) : Nat → Nat → List Byte
  | _, 0 => []
  | a, n + 1 => m.get dflt a :: Memory.read dflt m (a + 1) n

/-- Bytes written from `a` on. -/
def Memory.write (dflt : Byte) (m : Memory) (a : Nat) : List Byte → Memory
  | [] => m
  | v :: r => Memory.write dflt (m.put dflt a v) (a + 1) r

/-- The memory with the bytes from `a` to `a + n - 1` at the default value. -/
def Memory.erase (m : Memory) (a n : Nat) : Memory :=
  ⟨m.cells.filter (fun c => c.1 < a || a + n ≤ c.1)⟩

/-- A 32-bit word of SRAM, little-endian. -/
def Memory.word (m : Memory) (a : Nat) : W32 := BitVec.ofNat 32 (leNat (m.read 0 a 4))

/-- A 32-bit word of SRAM written, little-endian. -/
def Memory.putWord (m : Memory) (a : Nat) (v : W32) : Memory := m.write 0 a (leBytes 4 v.toNat)

/-! Exact arithmetic before narrowing -/

/-- Nearest integer to `x / d`, ties to even (R4). -/
def roundDiv (x : Int) (d : Nat) : Int :=
  let q := Int.fdiv x d
  let r := x - q * d
  if 2 * r < d then q
  else if 2 * r > d then q + 1
  else if q % 2 = 0 then q else q + 1

/-- An exact integer limited to a signed field of `w` bits. -/
def clampS (w : Nat) (x : Int) : Int :=
  if x < -(2 ^ (w - 1) : Nat) then -(2 ^ (w - 1) : Nat)
  else if x > (2 ^ (w - 1) : Nat) - 1 then (2 ^ (w - 1) : Nat) - 1 else x

/-- An exact integer saturated into a signed 32-bit word. -/
def fit32 (x : Int) : W32 := BitVec.ofInt 32 (clampS 32 x)

/-- An integer limited to an interval. -/
def clampI (lo hi x : Int) : Int := if x < lo then lo else if hi < x then hi else x

/-- Signed difference of two 32-bit times or cycle numbers, in [-2^31, 2^31). -/
def diff32 (x y : W32) : Int := (x - y).toInt

/-! Unit identifiers -/

def DieId.num : DieId → Nat
  | .a => 0
  | .b => 1

def DieId.peer : DieId → DieId
  | .a => .b
  | .b => .a

/-- The UID of R33. -/
def uid (die kind index : Nat) : W16 := BitVec.ofNat 16 (die * 16384 + kind * 1024 + index)

/-- The UID of a unit of this die. -/
def Die.uid (d : Die) (kind index : Nat) : W16 := Sys2Proof.Machine.uid d.id.num kind index

/-- The UID of an arm, a joint, the interlock, the package and the safety I/O (R34, R36). -/
def uidArm (i : Nat) : W16 := uid 2 12 i
def uidJoint (i : Nat) : W16 := uid 2 11 i
def uidInterlock : W16 := uid 2 15 0
def uidPackage : W16 := uid 2 15 1
def uidSafety : W16 := uid 2 15 2
/-- 0xFFFF: no unit (R37). -/
def uidNone : W16 := 0xFFFF

/-- How many units a kind has (R34); 0 for a joint or arm of one die. -/
def kindCount : Nat → Nat
  | 0 => 80 | 1 => 16 | 2 => 4 | 3 => 4 | 4 => 4 | 5 => 2 | 6 => 8 | 7 => 4 | 8 => 2
  | 9 => 16 | 10 => 16 | 13 => 1024 | 14 => 36 | 15 => 9 | _ => 0

/-- R34, R36, R37: the UID names a unit. -/
def validUid (u : W16) : Bool :=
  let die := bits u 15 14
  let kind := bits u 13 10
  let idx := bits u 9 0
  if die < 2 then decide (idx < kindCount kind)
  else if die = 2 then
    (decide (kind = 11) && decide (idx < 128)) || (decide (kind = 12) && decide (idx < 16)) ||
      (decide (kind = 15) && decide (idx < 3))
  else false

/-- Where a unit of KIND 0-10, 13 or 15 stands in `Red.units` (R459); 1,189 for what is none. -/
def unitSlot (kind idx : Nat) : Nat :=
  if kindCount kind ≤ idx then 1189 else
  match kind with
  | 0 => idx
  | 1 => 80 + idx
  | 2 => 96 + idx
  | 3 => 100 + idx
  | 4 => 104 + idx
  | 5 => 108 + idx
  | 6 => 110 + idx
  | 7 => 118 + idx
  | 8 => 122 + idx
  | 9 => 124 + idx
  | 10 => 140 + idx
  | 13 => 156 + idx
  | 15 => 1180 + idx
  | _ => 1189

/-- The unit state record of a unit; a default record for a kind that has none. -/
def Die.unit (d : Die) (kind idx : Nat) : UnitRec := (d.red.units[unitSlot kind idx]?).getD {}

/-- The unit state record of a unit rewritten. -/
def Die.updUnit (d : Die) (kind idx : Nat) (f : UnitRec → UnitRec) : Die :=
  { d with red := { d.red with
      units := d.red.units.setIfInBounds (unitSlot kind idx) (f (d.unit kind idx)) } }

def UnitState.code : UnitState → Nat
  | .off => 0 | .reset => 1 | .selftest => 2 | .standby => 3
  | .active => 4 | .draining => 5 | .faulted => 6 | .quarantined => 7

/-! Outputs, interrupts and free values -/

def Die.emit (m : OutMsg) (d : Die) : Die := { d with out := m :: d.out }

/-- One MSI-X message of function 0, or its pending bit while the vector is masked (R574). -/
def Die.msixCell (v : Nat) (d : Die) : Die :=
  match d.host.msix[v]? with
  | none => d
  | some e =>
    if bit e.ctrl 0 then
      { d with host := { d.host with pba := d.host.pba ||| BitVec.ofNat 64 (2 ^ v) } }
    else d.emit (.msix 0 v)

/-- The same of function 1, which has vectors 0 to 2 (R573). -/
def Die.msixRec (v : Nat) (d : Die) : Die :=
  match d.host.msix1[v]? with
  | none => d
  | some e =>
    if bit e.ctrl 0 then
      { d with host := { d.host with pba1 := d.host.pba1 ||| BitVec.ofNat 4 (2 ^ v) } }
    else d.emit (.msix 1 v)

/-- A source of vector `v` of function 0 changes from clear to set (R573, R574): function 1 sends
its vectors 0 and 1 with those of function 0 and its vector 2 with vector 3. -/
def Die.msix (v : Nat) (d : Die) : Die :=
  let d := d.msixCell v
  if v = 0 then d.msixRec 0 else if v = 1 then d.msixRec 1 else if v = 3 then d.msixRec 2 else d

/-- A flag that is a source of vector `v` is set; `was` is its value before (R574). -/
def Die.raise (v : Nat) (was : Bool) (d : Die) : Die := if was then d else d.msix v

/-- The next free value of the die: an open value of the manual (log entry 2). -/
def Die.freeVal (w : Nat) (d : Die) : BitVec w := Config.free w (2 * d.fresh + d.id.num)

/-- The counter of free values moves on. -/
def Die.useFree (d : Die) : Die := { d with fresh := d.fresh + 1 }

/-! Error records -/

def Sev.code : Sev → Nat
  | .info => 0 | .warn => 1 | .degrade => 2 | .stop => 3 | .fatal => 4

def Origin.code : Origin → Nat
  | .device => 0 | .keeper => 1 | .planner => 2 | .host => 3

/-- The 64-bit layout of R601. -/
def ErrRec.toWord (r : ErrRec) : W64 :=
  BitVec.ofNat 64 (r.sev.code * 2 ^ 61 + flag r.ovf 60 + flag r.peer 59 + r.origin.code * 2 ^ 57
    + r.uid.toNat * 2 ^ 40 + r.code.toNat * 2 ^ 32 + r.cyc.toNat)

/-- A record enters the ring, which holds 1,024; a full ring loses its oldest (R603). -/
def ErrLog.enter (r : ErrRec) (e : ErrLog) : ErrLog :=
  if e.ring.length < 1024 then { e with ring := e.ring ++ [{ r with ovf := false }] }
  else { e with ring := e.ring.drop 1 ++ [{ r with ovf := true }], cntLost := satInc e.cntLost }

/-- A record enters the log of the die; vector 1 at or above ERR_CFG.IRQ_SEV (R603, R573). -/
def Die.enterRec (r : ErrRec) (d : Die) : Die :=
  let d := { d with err := d.err.enter r }
  if d.err.irqSev.toNat ≤ r.sev.code then d.msix 1 else d

/-- R602, FATAL: LIVE stops, `FOGHORN_N` is asserted. -/
def Die.fatalEffects (d : Die) : Die :=
  { d with red := { d.red with live := false },
           err := { d.err with foghorn := true, fatalOwn := true } }

/-- A record of the die's own: it enters the log, ERR_FIRST takes the first STOP or FATAL, the
standby die forwards DEGRADE and above, and FATAL has its effects (R601-R603). -/
def Die.record (r : ErrRec) (d : Die) : Die :=
  let d := d.enterRec r
  let d := if 3 ≤ r.sev.code && d.err.first = 0 then
      { d with err := { d.err with first := r.toWord } } else d
  let d := if 2 ≤ r.sev.code && !d.red.grant then
      { d with err := { d.err with forward := d.err.forward ++ [r] } } else d
  if r.sev = .fatal then d.fatalEffects else d

/-- The log has no record yet and ERR_FIRST is clear. -/
def ErrLog.blank (e : ErrLog) : ErrLog := { e with ring := [], first := 0 }

/-- A record put in a list of ascending UIDs, after those of its own UID. -/
def insertRec (r : ErrRec) : List ErrRec → List ErrRec
  | [] => [r]
  | x :: l => if r.uid.toNat < x.uid.toNat then r :: x :: l else x :: insertRec r l

/-- The records that `f` writes in one CLK_FAB cycle enter in ascending UID order (R603). DEDUCED (log entry 125): the
records of a cycle boundary are those of one CLK_FAB cycle. -/
def Die.inUidOrder (f : Die → Die) (d : Die) : Die :=
  let r := f { d with err := d.err.blank }
  let recs := r.err.ring.foldl (fun l x => insertRec x l) []
  let first := ((recs.find? fun x => 3 ≤ x.sev.code && !x.peer).map ErrRec.toWord).getD r.err.first
  let e := { r.err with ring := d.err.ring, first := if d.err.first = 0 then first else d.err.first }
  { r with err := recs.foldl (fun e x => ErrLog.enter x e) e }

/-- The device writes a record of its own in the cycle in progress. -/
def Die.log (sev : Sev) (u : W16) (code : Nat) (d : Die) : Die :=
  d.record { sev := sev, uid := u, code := BitVec.ofNat 8 code, cyc := d.time.cyc }

/-- A record written once until its flag is cleared: `was` is the flag before. -/
def Die.logOnce (was : Bool) (sev : Sev) (u : W16) (code : Nat) (d : Die) : Die :=
  if was then d else d.log sev u code

/-- A record whose CODE the manual does not state: the code is a free value (log entry 2). -/
def Die.logOpen (sev : Sev) (u : W16) (d : Die) : Die := (d.log sev u (d.freeVal 8).toNat).useFree

/-- A bit of three put to a level. -/
def putBit3 (k : Nat) (v : Bool) (w : BitVec 3) : BitVec 3 :=
  if v then w ||| BitVec.ofNat 3 (2 ^ k) else w &&& ~~~(BitVec.ofNat 3 (2 ^ k))

/-- An input of a channel takes a level at tick `now`, TIME_NS `ns` (R257): it is seen after 2 periods of the
synchroniser and `filt` + 1 samples. A change that did not hold for `filt` + 1 samples before the level went back
is no change. -/
def feedInput (filt now : Nat) (ns : W32) (ch : Fin 3) (level : Bool) (l : List InEdge) : List InEdge :=
  let late (e : InEdge) : Bool := e.ch = ch && decide (now + 2 < e.due)
  if l.any late then l.filter fun e => !late e
  else l ++ [{ due := now + filt + 3, ch := ch, level := level, ns := ns }]

/-! Management accesses -/

/-- The access is carried out. -/
def Die.accept (d : Die) : Die := { d with host := { d.host with access := .ok } }

/-- The access is refused with STATE_CONFLICT (R32). -/
def Die.refuse (d : Die) : Die := { d with host := { d.host with access := .stateConflict } }

/-- A refusal that also writes a WARN record of a code the manual leaves open (R32, R66, R82). -/
def Die.refuseWarn (u : W16) (d : Die) : Die := d.refuse.logOpen .warn u

/-- The access ends otherwise. -/
def Die.endAccess (r : Access) (d : Die) : Die := { d with host := { d.host with access := r } }

def Die.dom (d : Die) (i : Nat) : Domain := (d.pwr.doms[i]?).getD {}

def Die.updDom (d : Die) (i : Nat) (f : Domain → Domain) : Die :=
  { d with pwr := { d.pwr with doms := d.pwr.doms.setIfInBounds i (f (d.dom i)) } }

/-- The domain answers accesses; AON always does (R542, R543). -/
def Die.awake (d : Die) (i : Nat) : Bool := i = 0 || (d.dom i).state = .on

def Initiator.code : Initiator → Nat
  | .pcie => 0 | .core => 1 | .smbus => 2 | .dma => 3

/-- How an access to a sleeping domain ends, by its initiator (R552). -/
def Initiator.asleep : Initiator → Bool → Access
  | .pcie, true => .dropped
  | .pcie, false => .completerAbort
  | _, _ => .domainAsleep

/-- The UID of a power domain (R35). -/
def Die.uidDom (d : Die) (i : Nat) : W16 := d.uid 14 i

/-- R552: an access to sleeping domain `i` ends. The first one since the log was cleared is logged
and recorded; every one counts. -/
def Die.asleepAccess (i : Nat) (who : Initiator) (addr : W32) (write : Bool) (d : Die) : Die :=
  let first := !d.pwr.logValid
  let d := { d with pwr := { d.pwr with cnt := vupd d.pwr.cnt 0 satInc } }
  let d := if first then
      ({ d with pwr := { d.pwr with logAddr := addr, logDom := BitVec.ofNat 6 i,
                                    logInit := BitVec.ofNat 2 who.code, logValid := true } }
        ).log .warn (d.uidDom i) 0x10
    else d
  (d.raise 3 (!first)).endAccess (who.asleep write)

/-- A management write to a register of domain `i`: `f` when the domain is ON, R552 otherwise. -/
def Die.mgmt (i : Nat) (addr : Nat) (f : Die → Die) (d : Die) : Die :=
  if d.awake i then f d.accept else d.asleepAccess i .pcie (BitVec.ofNat 32 addr) true

/-- No image is in force (R509, R513). -/
def ImageUnit.isEmpty (u : ImageUnit) : Bool := u.state = .empty

/-- What a sensor keeps through a warm reset and a load (R139, R143). -/
def Sensor.kept (x : Sensor) : Sensor :=
  { lastSeq := x.lastSeq, seqSeen := x.seqSeen, keyWords := x.keyWords, key := x.key }

end Sys2Proof.Machine
end

