-- ==== Sys2Proof/Machine/Crc.lean ====
section
/-! DEFINITION. The cyclic redundancy checks of R358, R314 and R63. -/

namespace Sys2Proof.Machine

/-- `n` shifts of a reflected CRC register. -/
def crcShift {w : Nat} (poly : BitVec w) : Nat → BitVec w → BitVec w
  | 0, r => r
  | n + 1, r => crcShift poly n (if r.getLsbD 0 then (r >>> 1) ^^^ poly else r >>> 1)

/-- A reflected CRC over bytes, initial value and final XOR all ones. -/
def crcOver {w : Nat} (poly : BitVec w) (l : List Byte) : BitVec w :=
  (l.foldl (fun r b => crcShift poly 8 (r ^^^ BitVec.ofNat w b.toNat)) (BitVec.allOnes w))
    ^^^ BitVec.allOnes w

/-- CRC-32C (R358): polynomial 0x1EDC_6F41, reflected. -/
def crc32c (l : List Byte) : W32 := crcOver 0x82F63B78 l

/-- CRC-64/XZ (R63): polynomial 0x42F0_E1EB_A9EA_3693, reflected. -/
def crc64xz (l : List Byte) : W64 := crcOver 0xC96C5795D7870F42 l

end Sys2Proof.Machine
end

