-- ==== Sys2Proof/Machine/Crypto.lean ====
section
/-! DEFINITION. The cryptographic functions the manual names by their standards: AES-CMAC (R138),
SHA-384, ECDSA P-384 and HSS (R499, R500, R535). Big-endian, as R499 says. -/

namespace Sys2Proof.Machine

/-- The number that big-endian bytes spell. -/
def beNat (l : List Byte) : Nat := l.foldl (fun n b => 256 * n + b.toNat) 0

def xorBytes (a b : List Byte) : List Byte := List.zipWith (· ^^^ ·) a b

/-! AES-128 (FIPS 197) and CMAC (SP 800-38B) -/

/-- Multiplication by x in GF(2^8). -/
def xtime (b : Byte) : Byte := (b <<< 1) ^^^ if b.getLsbD 7 then 0x1B else 0

/-- The product in GF(2^8), over the low `n` bits of the second factor. -/
def gfMul (a : Byte) : Nat → Byte → Byte
  | 0, _ => 0
  | n + 1, b => (if b.getLsbD 0 then a else 0) ^^^ xtime (gfMul a n (b >>> 1))

/-- SubBytes of one byte: the inverse b^254, then the affine map. -/
def aesSub (b : Byte) : Byte :=
  let m (x y : Byte) : Byte := gfMul x 8 y
  let b2 := m b b; let b3 := m b2 b; let b12 := m (m b3 b3) (m b3 b3); let b15 := m b12 b3
  let b60 := m (m b15 b15) (m b15 b15); let b63 := m b60 b3
  let b252 := m (m b63 b63) (m b63 b63)
  let i := m b252 b2
  i ^^^ i.rotateLeft 1 ^^^ i.rotateLeft 2 ^^^ i.rotateLeft 3 ^^^ i.rotateLeft 4 ^^^ 0x63

/-- The next round key from the one before. -/
def aesNextKey (rcon : Byte) (k : List Byte) : List Byte :=
  let t := xorBytes (((k.drop 13) ++ (k.drop 12).take 1).map aesSub) [rcon, 0, 0, 0]
  let w0 := xorBytes (k.take 4) t
  let w1 := xorBytes ((k.drop 4).take 4) w0
  let w2 := xorBytes ((k.drop 8).take 4) w1
  w0 ++ w1 ++ w2 ++ xorBytes (k.drop 12) w2

/-- ShiftRows: byte r + 4c comes from column c + r. -/
def aesShift (s : List Byte) : List Byte :=
  (List.range 16).map fun i => (s[(i + 4 * (i % 4)) % 16]?).getD 0

/-- MixColumns of the four columns. -/
def aesMix (s : List Byte) : List Byte :=
  (List.range 16).map fun i =>
    let g (k : Nat) : Byte := (s[i / 4 * 4 + (i + k) % 4]?).getD 0
    xtime (g 0) ^^^ (xtime (g 1) ^^^ g 1) ^^^ g 2 ^^^ g 3

/-- The rounds left of AES-128, from the state and the round key before them. -/
def aesRounds : Nat → Byte → List Byte → List Byte → List Byte
  | 0, _, _, s => s
  | n + 1, rcon, k, s =>
    let k := aesNextKey rcon k
    let t := aesShift (s.map aesSub)
    aesRounds n (xtime rcon) k (xorBytes (if n = 0 then t else aesMix t) k)

/-- AES-128 of one block. -/
def aes128 (key block : List Byte) : List Byte := aesRounds 10 1 key (xorBytes block key)

/-- Doubling in GF(2^128), for the subkeys. -/
def cmacDouble (l : List Byte) : List Byte :=
  let x := beNat l
  beBytes 16 (Nat.xor (2 * x % 2 ^ 128) (if x < 2 ^ 127 then 0 else 0x87))

/-- AES-CMAC with a 128-bit key, all 128 bits (R138). -/
def aesCmac (key body : List Byte) : List Byte :=
  let k1 := cmacDouble (aes128 key (List.replicate 16 0))
  let n := (body.length + 15) / 16 - 1
  let rest := body.drop (16 * n)
  let last := if rest.length = 16 then xorBytes rest k1
    else xorBytes (sliceBytes (rest ++ [0x80]) 0 16) (cmacDouble k1)
  let c := (List.range n).foldl (fun c i => aes128 key (xorBytes c (sliceBytes body (16 * i) 16)))
    (List.replicate 16 0)
  aes128 key (xorBytes c last)

/-! SHA-256 and SHA-384 (FIPS 180-4) -/

/-- The first `n` primes from `p` on, tried over `fuel` numbers. -/
def primesFrom : Nat → Nat → Nat → List Nat
  | 0, _, _ => []
  | _, 0, _ => []
  | fuel + 1, n + 1, p =>
    if (List.range p).all fun k => k < 2 || p % k ≠ 0 then p :: primesFrom fuel n (p + 1)
    else primesFrom fuel (n + 1) (p + 1)

/-- The largest number below 2^n, from the root so far, whose k-th power is at most `x`. -/
def rootBits (k x : Nat) : Nat → Nat → Nat
  | 0, r => r
  | n + 1, r => rootBits k x n (if (r + 2 ^ n) ^ k ≤ x then r + 2 ^ n else r)

/-- The first `w` bits of the fraction of a prime's k-th root. -/
def rootFrac (k w p : Nat) : Nat := rootBits k (p * 2 ^ (k * w)) (w + 5) 0 % 2 ^ w

/-- What tells SHA-256 and SHA-384 apart: word width, rounds, rotations and start values. -/
structure ShaKind where
  w : Nat
  /-- Σ0, Σ1 (three rotations), σ0, σ1 (two rotations and a shift). -/
  bs0 : Nat × Nat × Nat
  bs1 : Nat × Nat × Nat
  ss0 : Nat × Nat × Nat
  ss1 : Nat × Nat × Nat
  k : List Nat
  iv : List Nat

def sha256Kind : ShaKind :=
  { w := 32, bs0 := (2, 13, 22), bs1 := (6, 11, 25), ss0 := (7, 18, 3), ss1 := (17, 19, 10)
    k := (primesFrom 420 64 2).map (rootFrac 3 32), iv := (primesFrom 420 8 2).map (rootFrac 2 32) }

def sha384Kind : ShaKind :=
  { w := 64, bs0 := (28, 34, 39), bs1 := (14, 18, 41), ss0 := (1, 8, 7), ss1 := (19, 61, 6)
    k := (primesFrom 420 80 2).map (rootFrac 3 64), iv := ((primesFrom 420 16 2).drop 8).map (rootFrac 2 64) }

def rotr (w n x : Nat) : Nat := (x / 2 ^ n + x * 2 ^ (w - n)) % 2 ^ w

def shaSum (w : Nat) (r : Nat × Nat × Nat) (x : Nat) : Nat :=
  Nat.xor (Nat.xor (rotr w r.1 x) (rotr w r.2.1 x)) (rotr w r.2.2 x)
def shaSig (w : Nat) (r : Nat × Nat × Nat) (x : Nat) : Nat :=
  Nat.xor (Nat.xor (rotr w r.1 x) (rotr w r.2.1 x)) (x / 2 ^ r.2.2)

/-- The message schedule, newest word first. -/
def shaSchedule (s : ShaKind) : Nat → List Nat → List Nat
  | 0, l => l
  | n + 1, l =>
    let g (i : Nat) : Nat := (l[i]?).getD 0
    shaSchedule s n ((shaSig s.w s.ss1 (g 1) + g 6 + shaSig s.w s.ss0 (g 14) + g 15) % 2 ^ s.w :: l)

/-- One round on the eight working words. -/
def shaRound (s : ShaKind) (v : List Nat) (kw : Nat) : List Nat :=
  match v with
  | [a, b, c, d, e, f, g, h] =>
    let ch := Nat.xor (Nat.land e f) (Nat.land (2 ^ s.w - 1 - e) g)
    let maj := Nat.xor (Nat.xor (Nat.land a b) (Nat.land a c)) (Nat.land b c)
    let t1 := h + shaSum s.w s.bs1 e + ch + kw
    [(t1 + shaSum s.w s.bs0 a + maj) % 2 ^ s.w, a, b, c, (d + t1) % 2 ^ s.w, e, f, g]
  | _ => v

/-- One block of 16 words. -/
def shaBlock (s : ShaKind) (h : List Nat) (block : List Nat) : List Nat :=
  let ws := (shaSchedule s (s.k.length - 16) block.reverse).reverse
  let v := (List.zipWith (· + ·) s.k ws).foldl (shaRound s) h
  List.zipWith (fun a b => (a + b) % 2 ^ s.w) h v

/-- Padding: a 1 bit, zeros, and the length in bits in the last two words. -/
def shaPad (s : ShaKind) (m : List Byte) : List Byte :=
  let b := s.w / 8
  let used := m.length + 1 + 2 * b
  m ++ [0x80] ++ List.replicate ((16 * b - used % (16 * b)) % (16 * b)) 0 ++ beBytes (2 * b) (8 * m.length)

def shaHash (s : ShaKind) (m : List Byte) : List Nat :=
  let b := s.w / 8
  let p := shaPad s m
  (List.range (p.length / (16 * b))).foldl (fun h i =>
    let blk := (p.drop (16 * b * i)).take (16 * b)
    shaBlock s h ((List.range 16).map fun j => beNat ((blk.drop (b * j)).take b))) s.iv

/-- SHA-384 (R500). -/
def sha384 (m : List Byte) : List Byte := ((shaHash sha384Kind m).take 6).flatMap (beBytes 8)
/-- SHA-256, the hash of the parameter set of R499. -/
def sha256 (m : List Byte) : List Byte := (shaHash sha256Kind m).flatMap (beBytes 4)

/-! ECDSA P-384 (FIPS 186) -/

def p384P : Nat := 2 ^ 384 - 2 ^ 128 - 2 ^ 96 + 2 ^ 32 - 1
def p384N : Nat := 0xFFFFFFFFFFFFFFFFFFFFFFFFFFFFFFFFFFFFFFFFFFFFFFFFC7634D81F4372DDF581A0DB248B0A77AECEC196ACCC52973
def p384B : Nat := 0xB3312FA7E23EE7E4988E056BE3F82D19181D9C6EFE8141120314088F5013875AC656398D8A2ED19D2A85C8EDD3EC2AEF
def p384G : Nat × Nat :=
  (0xAA87CA22BE8B05378EB1C71EF320AD746E1D3B628BA79B9859F741E082542A385502F25DBF55296C3A545E3872760AB7,
   0x3617DE4A96262C6F5D9E98BF9292DC29F8F41DBD289A147CE9DA3113B5F0B8C00A60B1CE1D7E819D7A431D7C90EA0E5F)

/-- x^e modulo m, over the low `n` bits of the exponent. -/
def powMod (m : Nat) : Nat → Nat → Nat → Nat
  | 0, _, _ => 1
  | n + 1, x, e => (if e % 2 = 1 then x else 1) * powMod m n (x * x % m) (e / 2) % m

/-- The inverse modulo a prime below 2^384. -/
def invMod (m x : Nat) : Nat := powMod m 384 x (m - 2)

/-- A point of the curve; none is the point at infinity. -/
abbrev EcPoint := Option (Nat × Nat)

def ecAdd (a b : EcPoint) : EcPoint :=
  let p := p384P
  match a, b with
  | none, q => q
  | q, none => q
  | some (x1, y1), some (x2, y2) =>
    if x1 = x2 ∧ (y1 + y2) % p = 0 then none
    else
      let l := if x1 = x2 then (3 * x1 * x1 + (p - 3)) % p * invMod p (2 * y1 % p) % p
        else (y2 + p - y1) % p * invMod p ((x2 + p - x1) % p) % p
      let x3 := (l * l + 2 * p - x1 - x2) % p
      some (x3, (l * (x1 + p - x3) + p - y1) % p)

/-- k times a point, over the low `n` bits of k. -/
def ecMul : Nat → Nat → EcPoint → EcPoint
  | 0, _, _ => none
  | n + 1, k, q => ecAdd (if k % 2 = 1 then q else none) (ecMul n (k / 2) (ecAdd q q))

/-- An ECDSA P-384 signature r, s over a message under a public key X, Y (R499, R500). -/
def ecdsaVerify (key msg sig : List Byte) : Bool :=
  let x := beNat (key.take 48); let y := beNat ((key.drop 48).take 48)
  let r := beNat (sig.take 48); let s := beNat ((sig.drop 48).take 48)
  let onCurve := x < p384P && y < p384P && (y * y) % p384P = (x * x % p384P * x + (p384P - 3) * x + p384B) % p384P
  let w := invMod p384N s
  let e := beNat (sha384 msg)
  onCurve && 1 ≤ r && r < p384N && 1 ≤ s && s < p384N &&
    (match ecAdd (ecMul 384 (e * w % p384N) (some p384G)) (ecMul 384 (r * w % p384N) (some (x, y))) with
     | none => false
     | some q => q.1 % p384N = r)

/-- HMAC with SHA-384, for a key of at most one block. -/
def hmac384 (key msg : List Byte) : List Byte :=
  let k := sliceBytes key 0 128
  sha384 (k.map (· ^^^ 0x5C) ++ sha384 (k.map (· ^^^ 0x36) ++ msg))

/-- The k of RFC 6979 and the signature with it: candidates until one gives r, s other than 0. -/
def ecdsaTry (d e : Nat) : Nat → List Byte → List Byte → List Byte
  | 0, _, _ => []
  | n + 1, key, v =>
    let v := hmac384 key v
    let k := beNat v
    let r := match ecMul 384 k (some p384G) with | none => 0 | some q => q.1 % p384N
    let s := invMod p384N k * (e + r * d) % p384N
    if 1 ≤ k ∧ k < p384N ∧ r ≠ 0 ∧ s ≠ 0 then beBytes 48 r ++ beBytes 48 s
    else
      let key := hmac384 key (v ++ [0])
      ecdsaTry d e n key (hmac384 key v)

/-- ECDSA P-384 with SHA-384 and k by RFC 6979 (R535); 64 candidates stand for as many as it takes. -/
def ecdsaSignWith (d : Nat) (msg : List Byte) : List Byte :=
  let e := beNat (sha384 msg)
  let seed := beBytes 48 d ++ beBytes 48 (e % p384N)
  let v := List.replicate 48 (1 : Byte)
  let key := hmac384 (List.replicate 48 0) (v ++ [0] ++ seed)
  let v := hmac384 key v
  let key := hmac384 key (v ++ [1] ++ seed)
  ecdsaTry d e 64 key (hmac384 key v)

/-- The ECDSA identity of a die: its private key of production test (R516) ... -/
def ecdsaSign (die : Nat) (msg : List Byte) : List Byte := ecdsaSignWith (Config.ecdsaKey die) msg

/-- ... and the public key X, Y that verifies it (R538). -/
def ecdsaId (die : Nat) : List Byte :=
  match ecMul 384 (Config.ecdsaKey die) (some p384G) with
  | none => List.replicate 96 0
  | some q => beBytes 48 q.1 ++ beBytes 48 q.2

/-! LMS and HSS (RFC 8554) in LMS_SHA256_M32_H10 and LMOTS_SHA256_N32_W4 (R499) -/

/-- `n` links of a Winternitz chain from step `j`. -/
def otsChain (pre : List Byte) : Nat → Nat → List Byte → List Byte
  | 0, _, t => t
  | n + 1, j, t => otsChain pre n (j + 1) (sha256 (pre ++ [BitVec.ofNat 8 j] ++ t))

/-- The candidate LMOTS public key of a signature. -/
def otsCandidate (id : List Byte) (q : Nat) (msg sig : List Byte) : List Byte :=
  let pre := id ++ beBytes 4 q
  let h := sha256 (pre ++ [0x81, 0x81] ++ (sig.drop 4).take 32 ++ msg)
  let nib := h.flatMap fun b => [b.toNat / 16, b.toNat % 16]
  let sum := nib.foldl (fun s x => s + (15 - x)) 0
  let coefs := nib ++ [sum / 256 % 16, sum / 16 % 16, sum % 16]
  let z := coefs.zipIdx.map fun x =>
    otsChain (pre ++ beBytes 2 x.2) (15 - x.1) x.1 ((sig.drop (36 + 32 * x.2)).take 32)
  sha256 (pre ++ [0x80, 0x80] ++ z.flatten)

/-- The root that a leaf and its path give. -/
def lmsRoot (id : List Byte) : Nat → Nat → List Byte → List Byte → List Byte
  | 0, _, _, t => t
  | n + 1, node, path, t =>
    let p := path.take 32
    let pre := id ++ beBytes 4 (node / 2) ++ [0x83, 0x83]
    lmsRoot id n (node / 2) (path.drop 32) (sha256 (pre ++ if node % 2 = 1 then p ++ t else t ++ p))

/-- An LMS signature over a message under a 56-byte LMS public key. -/
def lmsVerify (key msg sig : List Byte) : Bool :=
  let id := (key.drop 8).take 16
  let q := beNat (sig.take 4)
  let ots := (sig.drop 4).take 2180
  let leaf := sha256 (id ++ beBytes 4 (1024 + q) ++ [0x82, 0x82] ++ otsCandidate id q msg ots)
  key.length = 56 && sig.length = 2508 && beNat (key.take 4) = 6 && beNat ((key.drop 4).take 4) = 3 &&
    q < 1024 && beNat (ots.take 4) = 3 && beNat ((sig.drop 2184).take 4) = 6 &&
    lmsRoot id 10 (1024 + q) (sig.drop 2188) leaf = key.drop 24

/-- An HSS signature with two levels over a message (R499, R500). -/
def hssVerify (key msg sig : List Byte) : Bool :=
  let bottom := (sig.drop 2512).take 56
  key.length = 60 && sig.length = 5076 && beNat (key.take 4) = 2 && beNat (sig.take 4) = 1 &&
    lmsVerify (key.drop 4) bottom ((sig.drop 4).take 2508) && lmsVerify bottom msg (sig.drop 2568)

end Sys2Proof.Machine
end

