-- ==== Sys2Proof/Machine/Power.lean ====
section
/-! DEFINITION. Power domains, the AON regulator and the clock root (chapter 18). -/

namespace Sys2Proof.Machine

/-! Domains -/

/-- Indices of R35. -/
def domKeep : Nat := 1
def domSep : Nat := 26
def domFab : Nat := 27
def domMbus : Nat := 28
def domCan : Nat := 29
def domPcie : Nat := 32
def domAxio : Nat := 33
def domD2d : Nat := 34
def domSafe : Nat := 35

/-- R548: the clock of the domain comes from the PLL. -/
def domNeedsPll (i : Nat) : Bool :=
  (2 ≤ i && i ≤ 26) || (28 ≤ i && i ≤ 31) || (33 ≤ i && i ≤ 35)

/-- The SRAM of a domain: BAR2 offset and length (R541, R568). -/
def domSram (i : Nat) : Nat × Nat :=
  if i = 1 then (0x02500000, 0x80000)
  else if 2 ≤ i && i ≤ 17 then (0x02000000 + (i - 2) * 0x40000, 0x40000)
  else if 18 ≤ i && i ≤ 21 then (0x01000000 + (i - 18) * 0x400000, 0x400000)
  else if i = 26 then (0x02400000, 0x100000)
  else if i = 27 then (0, 0x680000)
  else (0, 0)

/-- The units a domain holds, as KIND and first and last INDEX (R34, R36, R541). -/
def domUnits (i : Nat) : List (Nat × Nat × Nat) :=
  if i = 0 then [(15, 3, 4)]
  else if i = 1 then [(15, 0, 0), (15, 5, 7)]
  else if 2 ≤ i && i ≤ 17 then [(0, (i - 2) * 5, (i - 2) * 5 + 4), (1, i - 2, i - 2)]
  else if 18 ≤ i && i ≤ 21 then [(3, i - 18, i - 18), (2, i - 18, i - 18)]
  else if 22 ≤ i && i ≤ 25 then [(4, i - 22, i - 22)]
  else if i = 26 then [(5, 0, 1), (15, 8, 8)]
  else if i = 27 then [(13, 0, 1023), (15, 1, 1)]
  else if i = 28 then [(6, 0, 7)]
  else if i = 29 then [(7, 0, 3)]
  else if i = 30 || i = 31 then [(8, i - 30, i - 30)]
  else if i = 33 then [(9, 0, 15), (10, 0, 15)]
  else if i = 34 then [(15, 2, 2)]
  else []

/-- KIND and INDEX of every unit of a domain. -/
def domUnitList (i : Nat) : List (Nat × Nat) :=
  (domUnits i).flatMap fun (k, lo, hi) => (List.range (hi + 1 - lo)).map fun j => (k, lo + j)

/-- The domain that holds a unit of KIND 0-10, 13 or 15 (R541). -/
def unitDom (kind idx : Nat) : Nat :=
  match kind with
  | 0 => 2 + idx / 5
  | 1 => 2 + idx
  | 2 => 18 + idx
  | 3 => 18 + idx
  | 4 => 22 + idx
  | 5 => 26
  | 6 => 28
  | 7 => 29
  | 8 => 30 + idx
  | 9 => 33
  | 10 => 33
  | 13 => 27
  | 15 => if idx = 1 then 27 else if idx = 2 then 34 else if idx = 3 || idx = 4 then 0
          else if idx = 8 then 26 else 1
  | _ => 0

/-- CLK_PER runs (R434, R548, R550, R555). -/
def Die.clkPer (d : Die) : Bool := d.clk.sel && d.awake domKeep

/-- Every unit of a domain is rewritten. -/
def Die.updDomUnits (i : Nat) (f : UnitRec → UnitRec) (d : Die) : Die :=
  (domUnitList i).foldl (fun d u => d.updUnit u.1 u.2 f) d

/-- The current LMS tree is abandoned (R536). -/
def Die.abandonTree (d : Die) : Die :=
  match d.sec.leaves with
  | none => d
  | some _ => { d with sec := { d.sec with leaves := none, cnt := vupd d.sec.cnt 4 satInc } }

/-- The load of the AON regulator changes: PWR_AON_ILOAD holds what is measured, which the manual leaves open
(R556, log entry 2). -/
def Die.measureLoad (d : Die) : Die := ({ d with pwr := { d.pwr with iLoad := d.freeVal 10 } }).useFree

/-- R551: the regulator is back in normal mode and the IRC runs; SEL is IRC. -/
def Die.exitLp (d : Die) : Die :=
  if d.pwr.lp then
    ({ d with pwr := { d.pwr with lp := false, lpReq := false },
              clk := { d.clk with irc := true, sel := false, selReq := false } }).measureLoad
  else d

/-- A domain begins to wake: from OFF its switch closes (R545, attempt 1), from RET it returns to
the core rail. -/
def Die.beginWake (i : Nat) (d : Die) : Die :=
  match (d.dom i).state with
  | .off => d.updDom i fun m => { m with state := .waking, closed := true, attempts := 1, since := d.real }
  | .ret => d.updDom i fun m => { m with resuming := true }
  | _ => d

/-- FAB and KEEP are ON: any other domain may wake (R543). -/
def Die.coreOn (d : Die) : Bool := d.awake domFab && d.awake domKeep

/-- The domains that wait begin to wake: FAB, then KEEP, then every other one (R544). -/
def Die.nextWake (d : Die) : Die :=
  match d.pwr.wakeQueue with
  | [] => d
  | i :: r =>
    if d.coreOn then
      (i :: r).foldl (fun d j => d.beginWake j) { d with pwr := { d.pwr with wakeQueue := [] } }
    else ({ d with pwr := { d.pwr with wakeQueue := r } }).beginWake i

/-- FAB or KEEP is on its way to ON. -/
def Die.coreWaking (d : Die) : Bool :=
  [domFab, domKeep].any fun j => (d.dom j).state = .waking || (d.dom j).resuming

/-- A request for ON that is accepted: FAB, then KEEP, then the domain (R544). -/
def Die.wakeChain (i : Nat) (d : Die) : Die :=
  if d.coreOn then d.beginWake i
  else
    let todo := ([domFab, domKeep, i].eraseDups).filter fun j =>
      !d.awake j && (d.dom j).state ≠ .waking && !(d.dom j).resuming && !d.pwr.wakeQueue.contains j
    let e := { d with pwr := { d.pwr with wakeQueue := d.pwr.wakeQueue ++ todo } }
    if d.coreWaking then e else e.nextWake

/-- A unit of the domain is ACTIVE or DRAINING (R544). -/
def Die.domInUse (i : Nat) (d : Die) : Bool :=
  (domUnitList i).any fun u =>
    let st := (d.unit u.1 u.2).state
    st = .active || st = .draining

/-- The standby die holds partitions or cairns of a role in the domain (R468, R544): the image in force has a
program for a role of its cluster. -/
def Die.domHoldsRole (i : Nat) (d : Die) : Bool :=
  !d.red.grant && decide (2 ≤ i) && decide (i ≤ 17) &&
    d.img.progs.any fun g => g.role / 5 + 2 = i

/-- A domain other than AON and FAB is ON. -/
def Die.othersOn (d : Die) (except : Nat) : Bool :=
  (List.range 36).any fun j => j ≠ 0 && j ≠ domFab && j ≠ except && d.awake j

/-- R544: the cases in which a request is refused; `req` is the code of REQ. -/
def Die.domReqRefused (i req : Nat) (d : Die) : Bool :=
  let m := d.dom i
  i = 0 || m.state = .waking || m.state = .unavailable ||
  (req = 2 && domNeedsPll i && !d.clk.sel) ||
  (req ≠ 2 && (d.domInUse i || d.domHoldsRole i ||
    (i = domFab && d.awake domKeep) || (i = domKeep && d.othersOn domKeep))) ||
  (req = 0 && (m.resuming && !m.stalled.isEmpty)) || req = 3

/-- What a domain's contents lose when its supply goes (R542): its SRAM and its units' states. -/
def Die.loseDomain (i : Nat) (d : Die) : Die :=
  let r := domSram i
  ({ d with sram := d.sram.erase r.1 r.2,
            eccBad := d.eccBad.filter fun a => a < r.1 || r.1 + r.2 ≤ a,
            eccSoft := d.eccSoft.filter fun a => a < r.1 || r.1 + r.2 ≤ a }
    ).updDomUnits i fun u => { u with state := .off, silent := false }

/-- The SEP domain leaves ON: the monitor is OFF and every target 0 (R129, R137). -/
def Die.sepLeavesOn (d : Die) : Die :=
  { d with sep := { d.sep with
      state := .off, phaseS := false, phaseR := false,
      arms := vmap d.sep.arms fun _ a =>
        { a with target := 0, limKind := 6, limIdx := 0, pairTarget := 0, held := false },
      regions := vmap d.sep.regions fun _ r => { r with target := 0 } } }

/-- KEEP leaves ON: the LMS tree is abandoned (R536). SEP leaves ON: the monitor is OFF and every
target is 0 (R129, R137). PCIE leaves ON: the link is gone. -/
def Die.leaveOn (i : Nat) (d : Die) : Die :=
  if i = domKeep then d.abandonTree
  else if i = domSep then d.sepLeavesOn
  else if i = domPcie then { d with host := { d.host with linkUp := false } }
  else d

/-- The registers and state that a domain loses in OFF (R541, R542); what an image fixes for its units
stays and counts again when the domain is ON (log entry 70). With SEP the applied scales are 0 at once, and plan
times and sensor keys are lost; LAST_SEQ stays, which only a cold reset clears (DESIGN CHOICE, log entry 37). -/
def Die.blockReset (i : Nat) (d : Die) : Die :=
  if i = domKeep then
    { d with qspi := { flash := d.qspi.flash }, trig := Vector.replicate 8 {}, capt := Vector.replicate 8 {}, time := { per := d.time.per },
             mon := {}, img := {},
             sec := { keyHash := d.sec.keyHash, revoked := d.sec.revoked, fused := d.sec.fused, claimed := d.sec.claimed } }
  else if i < 18 then
    { d with eng := vmap d.eng fun e x => if e / 5 + 2 = i then {} else x
             joints := vmap d.joints fun _ x => if x.cfg.cluster + 2 = i then { used := x.used, cfg := x.cfg } else x }
  else if i < 22 then { d with regions := vmap d.regions fun w x => if w + 18 = i then {} else x }
  else if i = domSep then
    { d with sep := { geom := d.sep.geom,
                      sensors := vmap d.sep.sensors fun _ x => { lastSeq := x.lastSeq, seqSeen := x.seqSeen } } }
  else if i = domFab then
    { d with qrc := {}, dma := Vector.replicate 4 {}, err := { first := d.err.first },
             red := { units := d.red.units, latched := d.red.latched } }
  else if i = domMbus then { d with lanes := vmap d.lanes fun _ x => { cfg := x.cfg } }
  else if i = domCan then { d with cans := vmap d.cans fun _ x => { cfg := x.image, image := x.image } }
  else if i = 30 || i = 31 then { d with eth := vmap d.eth fun p x => if p + 30 = i then { link := x.link } else x }
  else if i = domPcie then
    { d with host := { d.host with msix := Vector.replicate 64 {}, pba := 0, msix1 := Vector.replicate 4 {}, pba1 := 0,
                                   held := [], unacked := [], linkUp := false } }
  else if i = domAxio then
    { d with axes := vmap d.axes fun _ x => { cfg := x.cfg }, encs := vmap d.encs fun _ x => { cfg := x.cfg } }
  else if i = domSafe then { d with safe := { pins := d.safe.pins, pinAt := d.safe.pinAt } }
  else d

/-- A domain in ON or RET takes the state a request names (R545). -/
def Die.domTo (i : Nat) (off : Bool) (d : Die) : Die :=
  match (d.dom i).state, off with
  | .on, false => ((d.leaveOn i).updDom i fun m => { m with state := .ret }).measureLoad
  | .on, true => ((((d.leaveOn i).loseDomain i).blockReset i).updDom i fun m =>
      { m with state := .off, closed := false }).measureLoad
  | .ret, true => (((d.loseDomain i).blockReset i).updDom i fun m =>
      { m with state := .off, closed := false, resuming := false }).measureLoad
  | _, _ => d

/-- PWR_DOM_CTRL.REQ written with code `req` (R543, R544, R545). -/
def Die.domRequest (i req : Nat) (d : Die) : Die :=
  if d.domReqRefused i req then d.refuse
  else
    let d := d.accept.updDom i fun m => { m with req := BitVec.ofNat 2 req }
    if req = 2 then (if (d.dom i).state = .on then d else d.exitLp.wakeChain i)
    else
      let d' := d.domTo i (req = 0)
      if i = domKeep && d.awake domKeep then
        (d'.updDom domFab fun m => { m with req := BitVec.ofNat 2 req }).domTo domFab (req = 0)
      else d'

/-- R545: the regulator of a waking domain is ready. Its SRAM is cleared, its units go to RESET,
and the next domain of the request wakes. -/
def Die.domReady (i : Nat) (d : Die) : Die :=
  let m := d.dom i
  if m.state = .waking && m.closed then
    (((d.loseDomain i).updDomUnits i fun u => { u with state := .reset }).updDom i fun m =>
      { m with state := .on, lost := false, clockStopped := false }).measureLoad.nextWake
  else d

/-- DOM_RESUME_DONE: a domain that returns from RET has its clocks back and is ON, with its contents
kept (R545). -/
def Die.domResume (i : Nat) (d : Die) : Die :=
  if (d.dom i).state = .ret && (d.dom i).resuming then
    (d.updDom i fun m => { m with state := .on, resuming := false, clockStopped := false }).measureLoad.nextWake
  else d

/-! Clocks and the regulator -/

/-- R551: LP is allowed while every domain other than AON is RET or OFF. -/
def Die.lpAllowed (d : Die) : Bool :=
  (List.range 36).all fun j =>
    j = 0 || (((d.dom j).state = .off || (d.dom j).state = .ret) && !(d.dom j).resuming)

/-- R551: LP mode stops the PLL and the IRC. -/
def Die.enterLp (d : Die) : Die :=
  ({ d with pwr := { d.pwr with lpReq := true, lp := true },
            clk := { d.clk with irc := false, sel := false, selReq := false, lock := false,
                                pllRunning := false, pllEn := false } }).measureLoad

/-- R549 step 1 and 2: the PLL starts, attempt 1. -/
def Die.pllStart (d : Die) : Die :=
  if d.clk.pllRunning then { d with clk := { d.clk with pllEn := true } }
  else { d with clk := { d.clk with pllEn := true, pllRunning := true, attempts := 1, since := d.real } }

/-- PLL_EN written 0: the PLL stops unless it is the clock in force (log entry 22). -/
def Die.pllStop (d : Die) : Die :=
  if d.clk.sel then { d with clk := { d.clk with pllEn := false } }
  else { d with clk := { d.clk with pllEn := false, pllRunning := false, lock := false } }

/-- R549 step 4, R434, R598: the die runs from the PLL; after a warm reset the counter takes a
token and is FREE; the AVS loop starts at 750 mV. -/
def Die.clockSwitch (d : Die) : Die :=
  let t := if d.time.afterWarm then
      { d.time with token := true, locked := false, afterWarm := false } else d.time
  { d with clk := { d.clk with sel := true, selReq := true }, time := t,
           mon := { d.mon with avsV := 750 } }

/-- A write of CLK_CTRL.SEL (R549, R561). -/
def Die.writeSel (pll : Bool) (d : Die) : Die :=
  if pll then
    if !d.clk.lock then d.refuse
    else if d.clk.sel then d.accept else d.accept.clockSwitch
  else if (List.range 36).any (fun j => domNeedsPll j && d.awake j) then d.refuse
  else { d.accept with clk := { d.clk with sel := false, selReq := false } }

/-- R550: the clock root is lost while SEL = PLL. -/
def Die.loseClock (refLost : Bool) (d : Die) : Die :=
  if d.clk.sel then
    let d := { d with clk := { d.clk with sel := false, refLoss := d.clk.refLoss || refLost,
                                          lock := false, pllRunning := false } }
    let d := { d with pwr := { d.pwr with doms := vmap d.pwr.doms (fun j (m : Domain) =>
      if domNeedsPll j && m.state = DomState.on then { m with clockStopped := true } else m) } }
    d.log .fatal (d.uid 15 4) 0x15
  else d

/-- The 7-bit SMBus address of a die (R578). -/
def smbAddress (addrSel : BitVec 3) (die : DieId) : BitVec 7 :=
  BitVec.ofNat 7 (0x60 + 2 * addrSel.toNat + die.num)

/-- R554: an address byte of the bus in LP mode; a match wakes regulator and IRC. -/
def Die.smbWake (addrByte : Byte) (d : Die) : Die :=
  if d.pwr.lp && bits addrByte 7 1 = d.host.smbAddr.toNat then d.exitLp else d

/-- Clears PWR_ASLEEP_LOG and PWR_ASLEEP_SRC (R557). -/
def Die.clrAsleepLog (d : Die) : Die :=
  { d with pwr := { d.pwr with logAddr := 0, logDom := 0, logInit := 0, logValid := false } }

/-- Clears the PWR counters (R557). -/
def Die.clrPwrCnt (d : Die) : Die :=
  { d with pwr := { d.pwr with cnt := Vector.replicate 4 0 } }

/-- A write of LP_REQ = 1 (R551, R557). -/
def Die.lpRequest (d : Die) : Die :=
  if d.pwr.lp then d.accept else if d.lpAllowed then d.accept.enterLp else d.refuse

end Sys2Proof.Machine
end

