-- ==== Sys2Proof/Machine/Boot.lean ====
section
/-! DEFINITION. Resets, starts, minimal mode, tokens, attestation and boundary scan (chapter 17). -/

namespace Sys2Proof.Machine

/-! Resets and starts -/

/-- UID of the boot and security block (R540). -/
def Die.uidBoot (d : Die) : W16 := d.uid 15 5

/-- The codes of LAST_FAIL (R528). -/
def failOtp : Nat := 1
def failFlashDir : Nat := 2
def failFwFormat : Nat := 3
def failPushTimeout : Nat := 8
def failWatchdog : Nat := 9
def failReported : Nat := 10
def failResetInBoot : Nat := 11
def failImage : Nat := 12
def failClock : Nat := 13

/-- A start is under way and BOOT_OK has not been written (R524). -/
def Die.inBoot (d : Die) : Bool :=
  d.boot.phase = .starting || d.boot.phase = .rom || d.boot.phase = .firmware

/-- The time counter over a reset: a cold one starts afresh, any other keeps value, fraction,
rate and remainder (R434, R452). -/
def TimeUnit.afterReset (cold : Bool) (t : TimeUnit) : TimeUnit :=
  if cold then {} else
    { ns := t.ns, frac := t.frac, rate := t.rate, remaining := t.remaining, afterWarm := true }

/-- What a reset leaves of a die. Cold (`POR_N`) clears all but fuses, flash and the AON cells;
every other reset also keeps ERR_FIRST and the time (R8, R434, R523-R525, R558, R603). -/
def Die.afterReset (cold : Bool) (d : Die) : Die :=
  { ({ id := d.id } : Die) with
    time := d.time.afterReset cold
    boot := { tries := d.boot.tries, cause := d.boot.cause, minimal := d.boot.minimal,
              lastFail := d.boot.lastFail, causeTries := d.boot.causeTries,
              fwCopy := d.boot.fwCopy, src := d.boot.src, borPending := d.boot.borPending,
              resetInBoot := d.boot.resetInBoot || d.inBoot, recWait := d.boot.recWait }
    sec := { keyHash := d.sec.keyHash, revoked := d.sec.revoked, fused := d.sec.fused,
             claimed := d.sec.claimed }
    jtag := if cold then {} else d.jtag
    sep := if cold then {} else { sensors := vmap d.sep.sensors fun _ x => x.kept }
    rst := d.rst
    pwr := { aonBor := d.pwr.aonBor, holdCause := d.pwr.holdCause }
    host := { smbAddr := d.host.smbAddr, perst := d.host.perst }
    qspi := { flash := d.qspi.flash }
    err := { first := if cold then 0 else d.err.first }
    out := d.out
    encPins := d.encPins
    captPins := d.captPins
    safe := { pins := d.safe.pins, pinAt := d.safe.pinAt }
    real := d.real
    fresh := d.fresh }

/-- The directory, if MAGIC, ACTIVE and CRC hold (R519). -/
def readDir (flash : Memory) : Option FlashDir :=
  let b := flash.read 0xFF 0 64
  if b.take 4 = [0x52, 0x46, 0x44, 0x31] && fieldAt b 4 1 < 2 &&
      fieldAt b 0x3C 4 = (crc32c (b.take 0x3C)).toNat then
    some { active := fieldAt b 4 1, fw := (fieldAt b 8 4, fieldAt b 0xC 4),
           img := (fieldAt b 0x10 4, fieldAt b 0x14 4), recOfs := fieldAt b 0x18 4 }
  else none

/-- SYS_BOOT_CAUSE (R528). -/
def Die.bootCause (d : Die) : W32 :=
  BitVec.ofNat 32 (d.boot.cause.toNat + flag d.boot.minimal 4 + d.boot.lastFail.toNat * 256
    + d.boot.causeTries.toNat * 65536 + flag d.boot.fwCopy 19 + flag d.boot.src 20)

/-- The entries of the boot record area (R521): number, erased, and SEQ if the CRC holds. -/
def bootEntries (flash : Memory) (base : Nat) : List (Nat × Bool × Option Nat) :=
  (List.range 2048).map fun i =>
    let b := flash.read 0xFF (base + 32 * i) 32
    (i, b.all (· = 0xFF),
      if fieldAt b 0x1C 4 = (crc32c (b.take 0x1C)).toNat then some (fieldAt b 0 4) else none)

/-- A boot record goes to the first erased entry after the one with the highest SEQ; a full ring
first loses the 4 KiB sector of its oldest entry (R521). `body` is bytes 0x04-0x1B. -/
def putBootRecord (flash : Memory) (base : Nat) (body : List Byte) : Memory :=
  let es := bootEntries flash base
  let top := es.foldl (fun (m : Option (Nat × Nat)) e =>
    match e.2.2, m with
    | some q, some (_, q') => if q' < q then some (e.1, q) else m
    | some q, none => some (e.1, q)
    | none, _ => m) none
  let start := match top with | some (i, _) => i + 1 | none => 0
  let seq := match top with | some (_, q) => q + 1 | none => 0
  let entry := leBytes 4 seq ++ body
  let bytes := entry ++ leBytes 4 (crc32c entry).toNat
  let order := (List.range 2048).map fun k => (start + k) % 2048
  let erased (i : Nat) : Bool := (es[i]?.map (·.2.1)).getD false
  match order.find? erased with
  | some i => flash.write 0xFF (base + 32 * i) bytes
  | none =>
    let oldest := es.foldl (fun (m : Option (Nat × Nat)) e =>
      match e.2.2, m with
      | some q, some (_, q') => if q < q' then some (e.1, q) else m
      | some q, none => some (e.1, q)
      | none, _ => m) none
    let i := match oldest with | some (i, _) => i | none => 0
    let sector := base + 32 * i / 4096 * 4096
    (flash.erase sector 4096).write 0xFF sector bytes

/-- Bytes 0x04-0x1B of the record of this start: SYS_BOOT_CAUSE, FW_ID and IMG_ID (R521). -/
def Die.bootRecBody (d : Die) : List Byte :=
  leBytes 4 d.bootCause.toNat ++ d.sec.fwId.take 12 ++ d.img.id.take 8

/-- A body written to the record area, if the directory can be read (R521). -/
def Die.flushBootRecord (body : List Byte) (d : Die) : Die :=
  match readDir d.qspi.flash with
  | none => d
  | some dir => { d with qspi := { d.qspi with flash := putBootRecord d.qspi.flash dir.recOfs body } }

/-- A boot record is written, after a running QSPI command (R521, R585). -/
def Die.bootRecord (d : Die) : Die :=
  if d.qspi.busy then
    { d with boot := { d.boot with recWait := d.boot.recWait ++ [d.bootRecBody] } }
  else d.flushBootRecord d.bootRecBody

/-- A failed start: LAST_FAIL and a boot record are written, and the die will restart itself
(R524). -/
def Die.failStart (code : Nat) (d : Die) : Die :=
  ({ d with boot := { d.boot with lastFail := BitVec.ofNat 8 code, phase := .failed, fwPush := false },
            img := { d.img with pushReady := false } }).bootRecord

/-- A start begins: its cause, the requests of KEEP and FAB, the IRC, and a new challenge
(R522, R528, R548, R559). -/
def Die.beginStart (cause : Nat) (d : Die) : Die :=
  let c := leBytes 16 (d.freeVal 128).toNat
  let d := d.useFree
  let d := { d with
    boot := { d.boot with phase := .starting, cause := BitVec.ofNat 4 cause, minimal := false,
                          fwCopy := false },
    clk := { d.clk with irc := true },
    sec := { d.sec with challenge := c },
    pwr := { d.pwr with wakeQueue := [domFab, domKeep] ++ if d.boot.src then [domPcie] else [] } }
  let d := (d.updDom domFab fun m => { m with req := 2 }).updDom domKeep fun m => { m with req := 2 }
  let d := if d.boot.resetInBoot then
      ({ d with boot := { d.boot with resetInBoot := false,
                                      lastFail := BitVec.ofNat 8 failResetInBoot } }).bootRecord
    else d
  d.nextWake

/-- A restart without a reset pin: self-restart, RESTART_PEER, brown-out or RETRY (R524, R528). -/
def Die.restart (cause : Nat) (d : Die) : Die :=
  let d := { d with boot := { d.boot with phase := .reset } }
  (d.afterReset false).beginStart cause

/-- R526: minimal mode. The recovery function is put in service where FAB is ON. -/
def Die.enterMinimal (d : Die) : Die :=
  let d := { d with boot := { d.boot with phase := .minimal, minimal := true } }
  let d := d.log .degrade d.uidBoot 0x29
  if d.awake domFab && (d.dom domPcie).state = .off then
    (d.updDom domPcie fun m => { m with req := 2 }).wakeChain domPcie
  else d

/-- Steps 1 and 2 of R522, once the essential domains are ON (R541). -/
def Die.bootStep1 (d : Die) : Die :=
  if d.boot.phase = .starting && d.awake domFab && d.awake domKeep then
    let t := d.boot.tries
    let d := { d with boot := { d.boot with causeTries := t }, pwr := { d.pwr with holdCause := 0 } }
    if 3 ≤ t.toNat then d.enterMinimal
    else { d with boot := { d.boot with phase := .rom, tries := t + 1, fwPush := d.boot.src, fwBuf := [] }
                  img := { d.img with pushReady := d.boot.src, readyAt := d.real } }
  else d

/-- R545: the regulator of a waking domain is ready; a start goes on with step 1. -/
def Die.domRegReady (i : Nat) (d : Die) : Die := (d.domReady i).bootStep1

/-- R546: what the loss of an essential domain, or of the AON regulator, does to a start. -/
def Die.essentialLost (i : Nat) (d : Die) : Die :=
  if i = 0 then { d with boot := { d.boot with phase := .reset }, pwr := { d.pwr with holdCause := 1 } }
  else if i = domKeep then
    if d.boot.phase = .starting then
      { d with boot := { d.boot with phase := .reset }, pwr := { d.pwr with holdCause := 3 } }
    else d
  else if i = domFab then
    if d.boot.phase = .starting then
      ({ d with boot := { d.boot with lastFail := BitVec.ofNat 8 failClock } }).enterMinimal
    else d
  else if i = domPcie && d.boot.src && d.inBoot then d.failStart failPushTimeout
  else d

/-- R545: 2 ms of an attempt pass with no ready. Before the 4th the switch opens for 100 µs; after
it the domain is UNAVAILABLE. Index 0 stands for the AON regulator itself (R546). -/
def Die.domWakeTimeout (i : Nat) (d : Die) : Die :=
  let m := d.dom i
  if i = 0 then (if d.boot.phase = .starting then d.essentialLost 0 else d)
  else if m.state = .waking && m.closed then
    if m.attempts.toNat < 4 then
      let d := d.updDom i fun m => { m with closed := false, attempts := m.attempts + 1, since := d.real }
      ({ d with pwr := { d.pwr with cnt := vupd d.pwr.cnt 3 satInc } }).log .info (d.uidDom i) 0x11
    else
      let d := d.updDom i fun m => { m with state := .unavailable, closed := false }
      let d := ({ d with pwr := { d.pwr with
          wakeQueue := if i = domFab || i = domKeep then [] else d.pwr.wakeQueue } }).log .degrade (d.uidDom i) 0x12
      d.essentialLost i
  else d

/-- R545: the switch has been open for 100 µs and closes for the next attempt. -/
def Die.domWakeRetry (i : Nat) (d : Die) : Die :=
  if (d.dom i).state = .waking && !(d.dom i).closed then
    d.updDom i fun m => { m with closed := true, since := d.real }
  else d

/-- R551: an AON brown-out. -/
def Die.brownOut (d : Die) : Die :=
  let lost := vmap d.pwr.doms fun _ m => decide (m.state = .ret)
  let d := { d with boot := { d.boot with tries := 0, phase := .reset, borPending := true,
                                          resetInBoot := false } }
  let r := d.afterReset false
  let r := { r with boot := { r.boot with lastFail := 0, causeTries := 0 },
                    pwr := { r.pwr with aonBor := true, doms := vmap lost fun _ l => { lost := l } } }
  let r := if lost.toList.any (fun l => l) then r.msix 3 else r
  r.beginStart 4

/-- The PLL did not lock within 2 ms (R549 step 2). -/
def Die.pllLockTimeout (d : Die) : Die :=
  if d.clk.pllRunning && !d.clk.lock then
    let d := { d with clk := { d.clk with pllRunning := false, since := d.real } }
    if d.clk.attempts.toNat < 4 then d
    else
      let d := { d with clk := { d.clk with pllFail := true, pllEn := false },
                        boot := { d.boot with lastFail := BitVec.ofNat 8 failClock } }
      (((d.raise 3 false).log .degrade (d.uid 15 4) 0x14).enterMinimal)
  else d

/-- After 100 µs stopped the PLL starts again (R549 step 2). -/
def Die.pllRestart (d : Die) : Die :=
  if d.clk.pllEn && !d.clk.pllRunning && 0 < d.clk.attempts.toNat && d.clk.attempts.toNat < 4 &&
      !d.clk.pllFail then
    { d with clk := { d.clk with pllRunning := true, attempts := d.clk.attempts + 1, since := d.real } }
  else d

/-- The PLL locks (R549 step 2). -/
def Die.pllLock (d : Die) : Die :=
  if d.clk.pllRunning then { d with clk := { d.clk with lock := true } } else d

/-! Signatures and firmware -/

/-- A slot of R516 is programmed: not all zero. -/
def Security.programmed (s : Security) (slot : Nat) : Bool :=
  match s.keyHash[slot]? with
  | some h => h.any (· ≠ 0)
  | none => false

/-- R518: programmed and not revoked. -/
def Security.usable (s : Security) (slot : Nat) : Bool :=
  s.programmed slot && !((s.revoked[slot]?).getD true)

/-- The signature block of R499 over a message digest: 0 authentic, 1 KEY, 2 ECDSA, 3 HSS, in the
order of R502 step 4 and R522 step 5 (R500, R518). -/
def Security.checkSig (s : Security) (digest blk : List Byte) : Nat :=
  let se := fieldAt blk 0 1
  let sl := fieldAt blk 1 1
  let pe := sliceBytes blk 4 96
  let pl := sliceBytes blk 0xC4 60
  if 4 ≤ se || 4 ≤ sl || !s.usable se || !s.usable (4 + sl) ||
      s.keyHash[se]? ≠ some (sha384 pe) || s.keyHash[4 + sl]? ≠ some (sha384 pl)
  then 1
  else if !ecdsaVerify pe digest (sliceBytes blk 0x64 96) then 2
  else if !hssVerify pl digest (sliceBytes blk 0x100 5076) then 3
  else 0

/-- The firmware container of R520: 0 or the LAST_FAIL code of step 5 of R522. -/
def Die.fwCheck (fw : List Byte) (d : Die) : Nat :=
  let total := fieldAt fw 8 4
  let sig := fieldAt fw 0xC 4
  let code := fieldAt fw 0x18 4
  if !(fw.take 4 = [0x4B, 0x46, 0x57, 0x31] && fieldAt fw 4 2 = 1 && fieldAt fw 6 1 ≤ 64 &&
      total = sig + 5344 && sig % 16 = 0 && 0x40 + code ≤ sig && fieldAt fw 0x10 2 = 0xC128 &&
      fieldAt fw 0x12 1 = 0xB1 && fieldAt fw 0x14 4 < code && fieldAt fw 0x14 4 % 2 = 0 &&
      1 ≤ code && code ≤ 393216 && total ≤ fw.length) then failFwFormat
  else
    let id := sha384 (fw.take sig)
    match d.sec.checkSig id (sliceBytes fw sig 5344) with
    | 0 => if fieldAt fw 6 1 < d.sec.fused then 7 else 0
    | n => 3 + n

/-- Step 6 of R522: FW_ID is set, the code stands in keeper SRAM, the watchdog of 20 s starts. -/
def Die.fwStart (fw : List Byte) (d : Die) : Die :=
  let sig := fieldAt fw 0xC 4
  { d with
    sec := { d.sec with fwId := sha384 (fw.take sig) }
    sram := d.sram.write 0 0x02500000 (sliceBytes fw 0x40 (fieldAt fw 0x18 4))
    boot := { d.boot with phase := .firmware, wdAt := d.real, fwSvn := BitVec.ofNat 8 (fieldAt fw 6 1),
                          fwEntry := BitVec.ofNat 32 (fieldAt fw 0x14 4), fwPush := false, fwBuf := [],
                          fwSlots := (fieldAt fw sig 1, fieldAt fw (sig + 1) 1) }
    img := { d.img with pushReady := false } }

/-- A firmware copy of the flash: TOTAL_LEN bytes from its offset. -/
def readFw (flash : Memory) (ofs : Nat) : List Byte :=
  let hd := flash.read 0xFF ofs 64
  flash.read 0xFF ofs (min (fieldAt hd 8 4) 400000)

/-- The host has pushed a whole container: its TOTAL_LEN bytes, or more than any has (R508, R520). -/
def Boot.pushed (b : Boot) : Bool :=
  64 ≤ b.fwBuf.length && (fieldAt b.fwBuf 8 4 ≤ b.fwBuf.length || 400000 < fieldAt b.fwBuf 8 4)

/-- Steps 3 to 6 of R522 end. -/
def Die.fwLoadDone (otpOk : Bool) (d : Die) : Die :=
  if d.boot.phase ≠ .rom then d
  else if !otpOk then d.failStart failOtp
  else if d.boot.src then
    if !d.boot.pushed then d
    else match d.fwCheck d.boot.fwBuf with
      | 0 => d.fwStart d.boot.fwBuf
      | c => d.failStart c
  else
    match readDir d.qspi.flash with
    | none => d.failStart failFlashDir
    | some dir =>
      let ofs (k : Nat) := if k = 0 then dir.fw.1 else dir.fw.2
      let fw1 := readFw d.qspi.flash (ofs dir.active)
      let d1 := { d with boot := { d.boot with fwCopy := decide (dir.active = 1) } }
      if d1.fwCheck fw1 = 0 then d1.fwStart fw1
      else
        let fw2 := readFw d.qspi.flash (ofs (1 - dir.active))
        let d2 := { d with boot := { d.boot with fwCopy := decide (dir.active = 0) } }
        match d2.fwCheck fw2 with
        | 0 => d2.fwStart fw2
        | c => d2.failStart c

/-- BOOT_OK (R523, R527, R529, R551): keeper only. LIVE toggles from here on (log entry 23). -/
def Die.bootOk (src : Source) (d : Die) : Die :=
  if src ≠ .keeper then d.refuse
  else if d.boot.phase ≠ .firmware then d.accept
  else
    let d := d.accept
    let d := { d with boot := { d.boot with tries := 0, phase := .complete } }
    let d := d.bootRecord
    let d := if d.boot.lastFail ≠ 0 then
        ({ d with boot := { d.boot with lastFail := 0 } }).log .warn d.uidBoot 0x28 else d
    let d := if d.boot.borPending then
        ({ d with boot := { d.boot with borPending := false } }).log .degrade (d.uid 15 3) 0x13 else d
    if d.err.fatalOwn then d else { d with red := { d.red with live := true, quiet := 0 } }

/-- FAIL with FAIL_CODE: keeper only (R529). -/
def Die.bootFail (src : Source) (code : Byte) (d : Die) : Die :=
  if src ≠ .keeper then d.refuse
  else if d.boot.phase ≠ .firmware then d.accept
  else d.accept.failStart (if code = 12 then failImage else failReported)

/-- RETRY: accepted only in minimal mode (R526). -/
def Die.bootRetry (d : Die) : Die :=
  if d.boot.phase ≠ .minimal then d.refuse
  else (({ d with boot := { d.boot with tries := 0 } }).restart 5).accept

/-! Attestation -/

/-- The 192 bytes of the report that both signatures cover (R535). -/
def Die.attSnapshot (d : Die) : List Byte :=
  let usable (a : Nat) : Nat :=
    (List.range 4).foldl (fun n s => n + flag (d.sec.usable (4 * a + s)) (4 * a + s)) 0
  [0x41, 0x54, 0x52, 0x31] ++ leBytes 2 1 ++ leBytes 2 0xC128 ++ [0xB1] ++ leBytes 1 d.id.num
    ++ leBytes 1 d.sec.fused
    ++ leBytes 1 (flag d.red.grant 0 + flag d.boot.minimal 1 + flag d.sec.nonInv 2
        + flag d.sec.inv 3 + flag d.red.degraded 4)
    ++ leBytes 4 d.bootCause.toNat ++ sliceBytes (Config.deviceId d.id.num) 0 16
    ++ d.sec.nonce.toList ++ sliceBytes d.sec.fwId 0 48 ++ sliceBytes d.img.id 0 48
    ++ leBytes 1 d.img.svn.toNat ++ [d.boot.fwSvn] ++ leBytes 1 (usable 0 + usable 1) ++ [0]
    ++ leBytes 4 d.time.cyc.toNat ++ leBytes 4 d.time.ns.toNat ++ [d.time.wrap8] ++ [0, 0, 0]
    ++ leBytes 4 (d.sec.reportSeq + 1).toNat ++ List.replicate 12 0

/-- A new bottom tree must be claimed before the next signature (R536). -/
def Security.needsTree (s : Security) : Bool :=
  match s.leaves with
  | none => true
  | some q => decide (1024 ≤ q)

/-- ATT_REQ (R535, R537). -/
def Die.attReq (d : Die) : Die :=
  if d.sec.state ≠ .idle then d.refuse
  else
    let st := if d.sec.needsTree && d.sec.claimed < 1024 then SecState.claim else .attest
    { d.accept with sec := { d.sec with snapshot := d.attSnapshot, state := st } }

/-- An operation of the security block ends (R539). -/
def Die.secDone (result : Nat) (d : Die) : Die :=
  ({ d with sec := { d.sec with state := .idle, done := true, result := BitVec.ofNat 4 result } }
    ).raise 0 d.sec.done

/-- The claim of the next bottom tree: bit j burns, with j the bits burned so far (R536). -/
def Die.claimTree (d : Die) : Die :=
  let d := { d with sec := { d.sec with claimed := d.sec.claimed + 1, leaves := some 0,
                                        cnt := vupd d.sec.cnt 3 satInc } }
  if 1024 - d.sec.claimed ≤ 16 && !d.sec.lmsLowDone then
    ({ d with sec := { d.sec with lmsLowDone := true } }).log .warn d.uidBoot 0x30
  else d

/-- The report is signed and placed in SEC_ATT_BUF (R535, R536). -/
def Die.signReport (d : Die) : Die :=
  let digest := sha384 d.sec.snapshot
  let j := d.sec.claimed - 1
  let q := d.sec.leaves.getD 0
  ({ d with sec := { d.sec with
      attBuf := d.sec.snapshot ++ sliceBytes (ecdsaSign d.id.num digest) 0 96
        ++ sliceBytes (Config.hssSign d.id.num j q digest) 0 5076,
      leaves := some (q + 1), reportSeq := d.sec.reportSeq + 1,
      cnt := vupd d.sec.cnt 0 satInc } }).secDone 0

/-- ATT_REPORT_DONE (R535, R536, R539). -/
def Die.attReportDone (burnOk : Bool) (d : Die) : Die :=
  if d.sec.state = .attest || d.sec.state = .claim then
    if d.sec.needsTree then
      if 1024 ≤ d.sec.claimed then
        ((({ d with sec := { d.sec with lmsExhausted := true } }).log .warn d.uidBoot 0x2F)).secDone 8
      else if !burnOk then
        ({ d with sec := { d.sec with claimed := d.sec.claimed + 1 } }).secDone 9
      else d.claimTree.signReport
    else d.signReport
  else d

/-! Tokens -/

/-- TOKEN_GO (R531, R537). -/
def Die.tokenGo (d : Die) : Die :=
  if d.sec.state ≠ .idle then d.refuse
  else { d.accept with sec := { d.sec with state := .token } }

/-- The slot of a token's operation: ECDSA 0-3, then LMS 0-3 (R530, R538). -/
def tokenSlot (t : List Byte) : Nat := 4 * fieldAt t 6 1 + fieldAt t 5 1

/-- R531 step 1: MAGIC, OP, ARG, ALG and the reserved fields. -/
def tokenFormatOk (t : List Byte) : Bool :=
  let op := fieldAt t 4 1
  let arg := fieldAt t 5 1
  let alg := fieldAt t 6 1
  t.take 4 = [0x53, 0x54, 0x4B, 0x31] && fieldAt t 7 1 = 0 && fieldAt t 0x58 8 = 0 &&
    ((op = 1 && arg < 4 && alg = 0) || ((op = 2 || op = 3) && arg < 4 && alg < 2)) &&
    (op = 2 || fieldAt t 0x28 48 = 0)

/-- R531 step 4: the state rules of the operation. -/
def Die.tokenStateOk (t : List Byte) (d : Die) : Bool × Nat :=
  let op := fieldAt t 4 1
  let arg := fieldAt t 5 1
  let alg := fieldAt t 6 1
  let slot := tokenSlot t
  let signed := if alg = 0 then fieldAt t 0x60 1 else 4 + fieldAt t 0x61 1
  if op = 1 then (!(bit (BitVec.ofNat 8 arg) 1 && d.boot.phase ≠ .minimal && !d.img.isEmpty), 7)
  else if op = 2 then (!d.sec.programmed slot && signed ≠ slot, 6)
  else (d.sec.usable slot &&
    (List.range 4).any (fun k => 4 * alg + k ≠ slot && d.sec.usable (4 * alg + k)), 6)

/-- The check of a token: 0, or the RESULT of its first failure (R531, R539). -/
def Die.tokenCheck (t : List Byte) (d : Die) : Nat :=
  if !tokenFormatOk t then 1
  else if sliceBytes t 8 16 ≠ sliceBytes (Config.deviceId d.id.num) 0 16 ||
      sliceBytes t 0x18 16 ≠ d.sec.challenge then 2
  else match d.sec.checkSig (sha384 (t.take 0x60)) (sliceBytes t 0x60 5344) with
    | 0 => let r := d.tokenStateOk t; if r.1 then 0 else r.2
    | n => 2 + n

/-- The operation of an accepted token (R530, R532). -/
def Die.tokenApply (t : List Byte) (d : Die) : Die :=
  let op := fieldAt t 4 1
  let arg := BitVec.ofNat 8 (fieldAt t 5 1)
  if op = 1 then
    ({ d with sec := { d.sec with nonInv := d.sec.nonInv || bit arg 0, inv := d.sec.inv || bit arg 1 } }
      ).log .warn d.uidBoot 0x2A
  else if op = 2 then
    ({ d with sec := { d.sec with keyHash := d.sec.keyHash.setIfInBounds (tokenSlot t) (sliceBytes t 0x28 48) } }
      ).log .info d.uidBoot 0x2D
  else
    ({ d with sec := { d.sec with revoked := d.sec.revoked.setIfInBounds (tokenSlot t) true } }
      ).log .info d.uidBoot 0x2C

/-- The fuses of KEY_PROG or REVOKE do not all read back in both cells (R539): one that fails reads as burned or
not, which the manual leaves open (log entry 2), and no other effect of the operation is taken. -/
def Die.tokenPartBurn (t : List Byte) (d : Die) : Die :=
  let slot := tokenSlot t
  (if fieldAt t 4 1 = 2 then
    { d with sec := { d.sec with
        keyHash := d.sec.keyHash.setIfInBounds slot
          (List.zipWith (· &&& ·) (sliceBytes t 0x28 48) (leBytes 48 (d.freeVal 384).toNat)) } }
  else
    { d with sec := { d.sec with revoked := d.sec.revoked.setIfInBounds slot (d.freeVal 1 == 1#1) } }).useFree

/-- TOKEN_CHECK_DONE (R531, R540): accepted or refused, a new challenge is drawn. -/
def Die.tokenCheckDone (burnOk : Bool) (challenge : BitVec 128) (d : Die) : Die :=
  if d.sec.state ≠ .token then d
  else
    let t := d.sec.tokenBuf.read 0 0 5440
    let r := d.tokenCheck t
    let d := { d with sec := { d.sec with challenge := leBytes 16 challenge.toNat } }
    let refuse (d : Die) (r : Nat) : Die :=
      (({ d with sec := { d.sec with cnt := vupd d.sec.cnt 2 satInc } }).log .warn d.uidBoot 0x2B).secDone r
    let d := { d with sec := { d.sec with cnt := vupd d.sec.cnt 1 satInc } }
    if r ≠ 0 then refuse d r
    else if !burnOk && fieldAt t 4 1 ≠ 1 then (d.tokenPartBurn t).secDone 9
    else (d.tokenApply t).secDone 0

/-! The security version and debug -/

/-- SVN_COMMIT (R534, R537): a target not above the fused version, or above the SVN of the
running firmware or of the image, ends with RESULT SVN. -/
def Die.svnCommit (d : Die) : Die :=
  if d.sec.state ≠ .idle then d.refuse
  else
    let t := d.sec.svnTarget.toNat
    if d.sec.fused < t && t ≤ 64 && t ≤ d.boot.fwSvn.toNat && t ≤ d.img.svn.toNat then
      { d.accept with sec := { d.sec with state := .burn } }
    else d.accept.secDone 10

/-- SVN_BURN_DONE (R517, R534, R539): `burned` bits read back in both cells, in order. A bit that
does not ends the burn with BURN_FAIL; whether it reads as burned the manual leaves open (log entry 2). -/
def Die.svnBurnDone (burned : Nat) (d : Die) : Die :=
  if d.sec.state ≠ .burn then d
  else
    let want := d.sec.svnTarget.toNat - d.sec.fused
    let k := min burned want
    let d := { d with sec := { d.sec with fused := d.sec.fused + k } }
    if k = want then (d.log .info d.uidBoot 0x2E).secDone 0
    else ({ d with sec := { d.sec with fused := d.sec.fused + (d.freeVal 1).toNat } }).useFree.secDone 9

/-- DBG_LOCK closes every scope (R532). -/
def Die.dbgLock (d : Die) : Die :=
  { d.accept with sec := { d.sec with nonInv := false, inv := false } }

/-- SEC_CTRL.CLR_CNT (R538). -/
def Die.secClrCnt (d : Die) : Die :=
  { d.accept with sec := { d.sec with cnt := Vector.replicate 5 0 } }

/-! Boundary scan -/

/-- IDCODE of both dies (R533). -/
def jtagId : W32 := 0x1C12886B

/-- The bits of a word, least significant first, as a scan path shifts them out. -/
def scanBits {w : Nat} (x : BitVec w) : List Bool := (List.range w).map fun i => x.getLsbD i

/-- EXTEST or CLAMP selected: after the die's first GRANT_REQ since `POR_N` it stops LIVE (R533). -/
def Die.scanDrives (i : JtagInstr) (d : Die) : Die :=
  let d := { d with jtag := { d.jtag with instr := i } }
  if d.jtag.grantReqSeen then { d with red := { d.red with live := false } } else d

/-- The boundary register after the bits of a scan have been shifted in. -/
def shiftIn (cells tdi : List Bool) : List Bool := (cells ++ tdi).drop tdi.length

end Sys2Proof.Machine
end

