-- ==== Sys2Proof/Machine/EngDecode.lean ====
section
/-! DEFINITION. The words of the loop engine (R327-R346): what each word decodes to, or none for a
reserved encoding. The loader and the replay runs read programs with it. -/

namespace Sys2Proof.Machine

/-- A field of an instruction word, bits [hi:lo]. -/
def ef (w : W32) (hi lo : Nat) : Nat := bits w hi lo

def regF (w : W32) (lo : Nat) : Fin 16 := Fin.ofNat 16 (ef w (lo + 3) lo)
def accF (w : W32) (lo : Nat) : Fin 4 := Fin.ofNat 4 (ef w (lo + 1) lo)
def idxF (w : W32) (lo : Nat) : Fin 8 := Fin.ofNat 8 (ef w (lo + 2) lo)

/-- A signed field of `n` bits as the 17-bit immediate. -/
def sext17 (n x : Nat) : BitVec 17 := (BitVec.ofNat n x).signExtend 17

/-- Address mode `mode` with an index field and an `n`-bit immediate field; a field that the mode
does not use must be 0 (R328). -/
def amode (mode n mj imm : Nat) : Option AMode :=
  match mode with
  | 0 => if mj = 0 ∧ imm = 0 then some .plain else none
  | 1 => if mj = 0 then some (.offset (sext17 n imm)) else none
  | 2 => if imm = 0 then some (.postReg (Fin.ofNat 8 mj)) else none
  | 3 => if mj = 0 then some (.postImm (sext17 n imm)) else none
  | _ => none

/-- The memory operand of format M: bits [21:0]. -/
def memM (w : W32) : Option MemOp :=
  let mode := ef w 18 17
  let f := ef w 16 0
  let am := if mode = 2 then (if f % 2 ^ 14 = 0 then some (AMode.postReg (Fin.ofNat 8 (f / 2 ^ 14))) else none)
    else amode mode 17 0 f
  am.map fun m => { pk := idxF w 19, mode := m }

/-- The memory operand of format V. -/
def memV (w : W32) : Option MemOp :=
  if ef w 18 17 = 1 then none
  else (amode (ef w 18 17) 12 (ef w 14 12) (ef w 11 0)).map fun m => { pk := idxF w 19, mode := m }

/-- The memory operand of format S. -/
def memS (w : W32) : Option MemOp :=
  (amode (ef w 14 13) 10 (ef w 12 10) (ef w 9 0)).map fun m => { pk := idxF w 15, mode := m }

/-- A word is its instruction only when its other fields are 0. -/
def only (c : Bool) (o : EngOp) : Option EngOp := if c then some o else none

/-- Special registers of R339: which codes exist, and which are read only. -/
def sregOk (s : Nat) : Bool := decide (s ≤ 0x27)
def sregRo (s : Nat) : Bool := decide (0x24 ≤ s)

/-- The ALU group by fn (R331). -/
def decAlu (w : W32) : Option EngOp :=
  let d := regF w 22
  let a := regF w 18
  let b := regF w 14
  let sh := BitVec.ofNat 6 (ef w 13 8)
  let sh0 := ef w 13 8 = 0 ∧ ef w 7 6 = 0
  let b0 := ef w 17 14 = 0
  match ef w 5 0 with
  | 0x01 => only sh0 (.add d a b)
  | 0x02 => only sh0 (.sub d a b)
  | 0x03 => only sh0 (.and d a b)
  | 0x04 => only sh0 (.or d a b)
  | 0x05 => only sh0 (.xor d a b)
  | 0x06 => only (sh0 ∧ ef w 25 22 = 0) (.cmp a b)
  | 0x07 => only sh0 (.min d a b)
  | 0x08 => only sh0 (.max d a b)
  | 0x09 => only (sh0 ∧ b0) (.abs d a)
  | 0x0A => only (sh0 ∧ b0) (.neg d a)
  | 0x0B => only (sh0 ∧ b0) (.mov d a)
  | 0x0C => only sh0 (.sll d a b)
  | 0x0D => only sh0 (.sra d a b)
  | 0x0E => only sh0 (.srl d a b)
  | 0x0F => only (b0 ∧ ef w 7 6 = 0) (.slli d a sh)
  | 0x10 => only (b0 ∧ ef w 7 6 = 0) (.srai d a sh)
  | 0x11 => only (b0 ∧ ef w 7 6 = 0) (.srli d a sh)
  | 0x12 => only (sh0 ∧ b0) (.expx d a)
  | 0x13 => only sh0 (.norm d b a)
  | _ => none

/-- The accumulator group by fn (R336). -/
def decAcc (w : W32) : Option EngOp :=
  let d := accF w 24
  let s := accF w 22
  let x := regF w 18
  let neg := w.getLsbD 17
  let sh := BitVec.ofNat 6 (ef w 13 8)
  let gap := ef w 16 14 = 0 ∧ ef w 7 6 = 0
  let s0 := ef w 23 22 = 0
  let x0 := ef w 21 18 = 0
  let n0 := neg = false
  let sh0 := ef w 13 8 = 0
  match ef w 5 0 with
  | 0x01 => only (gap ∧ s0 ∧ x0 ∧ n0 ∧ sh0) (.clra d)
  | 0x02 => only (gap ∧ s0) (.mova neg d x sh)
  | 0x03 => only (gap ∧ x0 ∧ sh0) (.adda neg d s)
  | 0x04 => only (gap ∧ s0 ∧ x0 ∧ n0) (.shra d sh)
  | 0x05 => only (gap ∧ s0 ∧ x0 ∧ n0) (.shla d sh)
  | 0x06 => only (gap ∧ x0 ∧ n0 ∧ sh0) (.cpya d s)
  | 0x07 => only (gap ∧ s0 ∧ n0 ∧ sh0) (.expxAcc x d)
  | 0x08 => only (gap ∧ s0 ∧ n0 ∧ sh0) (.normAcc d x)
  | _ => none

/-- A word of a program (R329); none is a reserved encoding (R327). -/
def decodeEng (w : W32) : Option EngOp :=
  let d := regF w 22
  let a := regF w 18
  let b := regF w 14
  let imm18 := BitVec.ofNat 18 (ef w 17 0)
  let tgt := BitVec.ofNat 12 (ef w 11 0)
  match ef w 31 26 with
  | 0x00 => decAlu w
  | 0x01 => some (.addi d a imm18)
  | 0x02 => some (.andi d a imm18)
  | 0x03 => some (.ori d a imm18)
  | 0x04 => some (.xori d a imm18)
  | 0x05 => only (ef w 25 22 = 0) (.cmpi a imm18)
  | 0x06 => some (.movi d (BitVec.ofNat 22 (ef w 21 0)))
  | 0x07 => only (ef w 21 16 = 0) (.movh d (BitVec.ofNat 16 (ef w 15 0)))
  | 0x08 => (memM w).map fun m => .ld d m
  | 0x09 => (memM w).map fun m => .st d m
  | 0x0A => only (ef w 7 0 = 0) (.muln d a b (BitVec.ofNat 6 (ef w 13 8)))
  | 0x10 => only (ef w 13 0 = 0) (.mac (w.getLsbD 23) (w.getLsbD 22) (accF w 24) a b)
  | 0x11 => (memV w).map fun m => .qmac (w.getLsbD 16) (w.getLsbD 15) d m
  | 0x12 => (memV w).map fun m =>
      .dmac (w.getLsbD 16) (w.getLsbD 15) (w.getLsbD 22) (Fin.ofNat 8 (ef w 25 23)) m
  | 0x13 => decAcc w
  | 0x14 => only (ef w 13 0 = 0) (.nrw d (accF w 20) (BitVec.ofNat 6 (ef w 19 14)))
  | 0x15 => (memS w).map fun m => .nst (accF w 24) (BitVec.ofNat 6 (ef w 23 18)) m
  | 0x18 =>
    let c : ACls := match ef w 25 24 with | 0 => .p | 1 => .m | 2 => .b | _ => .l
    only (ef w 20 20 = 0) (.amov c (idxF w 21) (BitVec.ofNat 20 (ef w 19 0)))
  | 0x19 =>
    if ef w 25 22 = 0 ∧ 2 ≤ ef w 18 17 then (memM w).map fun m => .pmod m else none
  | 0x1A => only (sregOk (ef w 21 16) ∧ ef w 15 0 = 0) (.mfs d (BitVec.ofNat 6 (ef w 21 16)))
  | 0x1B => only (sregOk (ef w 21 16) ∧ !sregRo (ef w 21 16) ∧ ef w 15 0 = 0)
      (.mts (BitVec.ofNat 6 (ef w 21 16)) d)
  | 0x20 => only (ef w 21 12 = 0 ∧ ef w 25 22 ≠ 15) (.branch (BitVec.ofNat 4 (ef w 25 22)) tgt)
  | 0x21 => only (ef w 25 12 = 0) (.call tgt)
  | 0x22 => only (ef w 25 0 = 0) .ret
  | 0x23 => only (ef w 24 12 = 0) (.loop (Fin.ofNat 2 (ef w 25 25)) tgt)
  | 0x24 => only (ef w 24 24 = 0)
      (.loopi (Fin.ofNat 2 (ef w 25 25)) (BitVec.ofNat 12 (ef w 23 12)) tgt)
  | 0x28 => only (ef w 25 22 = 0 ∧ ef w 17 0 = 0) (.waitq a)
  | 0x29 => only (ef w 17 0 = 0) (.getq d a)
  | 0x2A => only (ef w 16 0 = 0) (.putq d a (w.getLsbD 17))
  | 0x30 => only (ef w 21 0 = 0) (.time d)
  | 0x31 => only (ef w 25 0 = 0) .cairn
  | 0x32 => only (ef w 25 16 = 0) (.sig (BitVec.ofNat 16 (ef w 15 0)))
  | 0x33 => only (ef w 25 16 = 0) (.endRun (BitVec.ofNat 16 (ef w 15 0)))
  | 0x34 => only (ef w 25 0 = 0) .nop
  | _ => none

/-- An immediate fits a signed field of `n` bits. -/
def immFits (n : Nat) (i : BitVec 17) : Bool :=
  decide (-(2 ^ (n - 1) : Nat) ≤ i.toInt) && decide (i.toInt < (2 ^ (n - 1) : Nat))

/-- The mode of a memory operand exists in a format with `n`-bit immediates; `noOffset` and
`postOnly` bar mode 1, and modes 0 and 1 (R328, R329). -/
def MemOp.fits (n : Nat) (noOffset postOnly : Bool) (m : MemOp) : Bool :=
  match m.mode with
  | .plain => !postOnly
  | .offset i => !noOffset && !postOnly && immFits n i
  | .postReg _ => true
  | .postImm i => immFits n i

/-- R327: the operand combination of an instruction is not a reserved one. -/
def EngOp.valid : EngOp → Bool
  | .pmod m => m.fits 17 true true
  | .qmac _ _ _ m => m.fits 12 true false
  | .dmac _ _ _ _ m => m.fits 12 true false
  | .nst _ _ m => m.fits 10 false false
  | .mfs _ s => sregOk s.toNat
  | .mts s _ => sregOk s.toNat && !sregRo s.toNat
  | .branch c _ => c ≠ 15
  | _ => true

end Sys2Proof.Machine
end

