-- ==== Sys2Proof/Machine/Block/Parse.lean ====
section
/-! DEFINITION. What the sections without a byte layout say: the manual names their content (R496) and
not how it is written, so each reading is a constant without a body (log entry 8). -/

namespace Sys2Proof.Config

open Machine

/-- The CELL section. -/
opaque parseCell : List Byte → Option CellSec
/-- How many ball records of R627 a PINS section begins with. -/
opaque pinsRecords : List Byte → Nat
/-- The functions of ports that a PINS section gives besides its ball records. -/
opaque parsePorts : List Byte → Option PinsSec
/-- The POWER section. -/
opaque parsePower : List Byte → Option (List PowerDecl)
/-- The QUEUE section: declarations and port bindings. -/
opaque parseQueue : List Byte → Option (List QueueDecl × List PortDecl)
/-- The PROG section of a role engine: header and instruction words. -/
opaque parseProg : Nat → List Byte → Option RoleProg
/-- The GEOM section. -/
opaque parseGeom : List Byte → Option GeomSec
/-- Loader rules whose inputs lie in those sections and in no field the manual names: the first one a section
breaks, as rule and UID. -/
opaque brokenRule : Nat → Nat → List Byte → Option (Nat × W16)

end Sys2Proof.Config
end

