-- ==== Sys2Proof/Machine/Pins.lean ====
section
/-! DEFINITION. The balls of the package: which signal each carries, and the ball records of the PINS
section (chapter 21). -/

namespace Sys2Proof.Machine

/-- The signals of the package in the groups of R618-R621. -/
inductive Sig where
  /-- `SAnn_A1`, `SAnn_A2`, `SAnn_B1`, `SAnn_B2`: axis and output 0 to 3. -/
  | saOut (a o : Nat)
  | saFlt (a : Nat)
  | saCmp (a : Nat)
  /-- `SAnn_HOME`, `SAnn_LIMNEG`, `SAnn_LIMPOS`: axis and input 0 to 2. -/
  | saIn (a k : Nat)
  | trig (k : Nat)
  | capt (k : Nat)
  | canTx (n : Nat)
  | canRx (n : Nat)
  /-- `SAFE_OUT_A` and `SAFE_OUT_B`. -/
  | safeOut (b : Bool)
  | foghorn
  /-- `DUTY_A` and `DUTY_B`. -/
  | duty (b : Bool)
  /-- `SAFE_INj_A` and `SAFE_INj_B`. -/
  | safeIn (j : Nat) (b : Bool)
  /-- `SMB_SCL`, and true for `SMB_SDA`. -/
  | smb (sda : Bool)
  | addrSel (k : Nat)
  | mblTxd (n : Nat)
  | mblDe (n : Nat)
  | mblRxd (n : Nat)
  /-- `ENCnn_A`, `ENCnn_B`, `ENCnn_I`: port and input 0 to 2. -/
  | encIn (k i : Nat)
  | encClk (k : Nat)
  /-- `ENCnn_AO`, `ENCnn_BO`, `ENCnn_IO`: port and output 0 to 2. -/
  | encOut (k i : Nat)
  /-- A per-die signal: its row in R620, counted 0 to 18. -/
  | die (i : Nat)
  deriving DecidableEq, Repr

/-- What a ball is (R617-R622). -/
inductive BallUse where
  | signal (s : Sig)
  | reserved
  /-- One ball of a CML or HCSL pair. -/
  | serdes
  | vss
  | vddCoreA
  | vddCoreB
  | vddSram
  | vdd33
  | vdd18
  | vinAon
  | vddaSd09
  | vddaSd18
  deriving DecidableEq, Repr

/-- Column of signal column k (R617). -/
def sigColumn (k : Nat) : Nat := 4 * (k / 3) + 5 + k % 3

/-- The signal column of a column of the north and south fields; none in a VSS column (R617). -/
def columnSig (col : Nat) : Option Nat := if col % 4 = 0 then none else some (3 * (col / 4 - 1) + (col - 1) % 4)

/-- Rows 01 to 07 of the north field (R618); none is a reserved slot. -/
def northSig (row k : Nat) : Option Sig :=
  if row ≤ 5 && k < 32 then
    (if k % 2 = 0 then (if row ≤ 4 then some (.saOut (k / 2) (row - 1)) else some (.saFlt (k / 2)))
     else if row = 1 then some (.saCmp (k / 2))
     else if row ≤ 4 then some (.saIn (k / 2) (row - 2)) else none)
  else if row = 6 then
    (if k < 8 then some (.trig k)
     else if k < 16 then some (.capt (k - 8))
     else if k < 24 then (if k % 2 = 0 then some (.canTx ((k - 16) / 2)) else some (.canRx ((k - 16) / 2)))
     else if k < 26 then some (.safeOut (k = 25))
     else if k = 26 then some .foghorn
     else if k < 29 then some (.duty (k = 28)) else none)
  else if row = 7 then
    (if k < 8 then some (.safeIn (k / 2) (k % 2 = 1))
     else if k < 10 then some (.smb (k = 9))
     else if k < 13 then some (.addrSel (k - 10)) else none)
  else none

/-- Rows 46 and 48 to 51 of the south field (R619). -/
def southSig (row k : Nat) : Option Sig :=
  if row = 46 && k < 24 then
    (match k % 3 with | 0 => some (.mblTxd (k / 3)) | 1 => some (.mblDe (k / 3)) | _ => some (.mblRxd (k / 3)))
  else if 48 ≤ row && row ≤ 51 && k < 32 then
    (if k % 2 = 0 then (if row = 51 then some (.encClk (k / 2)) else some (.encIn (k / 2) (row - 48)))
     else if row ≤ 50 then some (.encOut (k / 2) (row - 48)) else none)
  else none

/-- The die A balls of R620 in its order: POR_N, WRST_N, BOOT_SEL, REFCLK, AVS_CLK, AVS_MDATA, AVS_SDATA,
QSPI_SCK, QSPI_CS_N, QSPI_IO0 to 3, TCK, TMS, TDI, TDO, TRST_N, PCIE_PERST_N. -/
def edgeBalls : List (Nat × Nat) :=
  [(2, 2), (2, 3), (2, 4), (3, 2), (3, 3), (3, 4), (4, 2), (4, 3), (4, 4), (5, 2), (5, 3), (5, 4), (6, 2),
   (6, 3), (6, 4), (7, 2), (7, 3), (7, 4), (36, 2)]

/-- A die edge ball at its die A column: signals, SerDes pairs, supplies (R620-R622); the JTAG balls of the
die B edge are reserved. -/
def edgeUse (dieB : Bool) (row col : Nat) : BallUse :=
  match edgeBalls.idxOf? (row, col) with
  | some i => if dieB && 13 ≤ i && i ≤ 17 then .reserved else .signal (.die i)
  | none =>
    if (col = 2 || col = 3) && 10 ≤ row && row ≤ 34 && row % 2 = 0 then .serdes
    else if (col = 1 && row ≤ 8) || (row = 50 && (col = 2 || col = 3)) then .vdd18
    else if row = 46 && (col = 2 || col = 3) then .vinAon
    else if col = 4 && 10 ≤ row && row ≤ 44 && row % 2 = 0 then .vddaSd09
    else if col = 4 && 9 ≤ row && row ≤ 43 && row % 2 = 1 then .vddaSd18
    else .vss

/-- What ball rr.cc is (R616-R622). -/
def ballUse (row col : Nat) : BallUse :=
  if col ≤ 4 then edgeUse false row col
  else if 49 ≤ col then edgeUse true row (53 - col)
  else if row ≤ 8 || 45 ≤ row then
    match columnSig col with
    | none => .vss
    | some k =>
      if row = 8 || row = 45 then .vdd33
      else if row = 47 || row = 52 then .vss
      else match (if row ≤ 7 then northSig row k else southSig row k) with
        | some s => .signal s
        | none => .reserved
  else if (row + col) % 2 = 1 then .vss
  else if 37 ≤ row then .vddSram
  else if col ≤ 26 then .vddCoreA
  else .vddCoreB

/-- The ball of a shared signal, or of a per-die signal on a die (R618-R620). -/
def Sig.ball (dieB : Bool) : Sig → Nat × Nat
  | .saOut a o => (o + 1, sigColumn (2 * a))
  | .saFlt a => (5, sigColumn (2 * a))
  | .saCmp a => (1, sigColumn (2 * a + 1))
  | .saIn a k => (k + 2, sigColumn (2 * a + 1))
  | .trig k => (6, sigColumn k)
  | .capt k => (6, sigColumn (8 + k))
  | .canTx n => (6, sigColumn (16 + 2 * n))
  | .canRx n => (6, sigColumn (17 + 2 * n))
  | .safeOut b => (6, sigColumn (if b then 25 else 24))
  | .foghorn => (6, sigColumn 26)
  | .duty b => (6, sigColumn (if b then 28 else 27))
  | .safeIn j b => (7, sigColumn (2 * j + if b then 1 else 0))
  | .smb b => (7, sigColumn (if b then 9 else 8))
  | .addrSel k => (7, sigColumn (10 + k))
  | .mblTxd n => (46, sigColumn (3 * n))
  | .mblDe n => (46, sigColumn (3 * n + 1))
  | .mblRxd n => (46, sigColumn (3 * n + 2))
  | .encIn k i => (48 + i, sigColumn (2 * k))
  | .encClk k => (51, sigColumn (2 * k))
  | .encOut k i => (48 + i, sigColumn (2 * k + 1))
  | .die i =>
    let b := (edgeBalls[i]?).getD (0, 0)
    if dieB then (b.1, 53 - b.2) else b

/-- A signal that a die drives with a push-pull or three-state pad: DRIVE and SLEW apply to it (R623, R627). -/
def Sig.isOut : Sig → Bool
  | .saOut .. | .saCmp _ | .trig _ | .canTx _ | .safeOut _ | .duty _ | .mblTxd _ | .mblDe _ | .encClk _ | .encOut .. => true
  | .die i => (4 ≤ i && i ≤ 5) || (7 ≤ i && i ≤ 12) || i = 16
  | _ => false

/-- The pull of R623 on a signal's pads: 1 none, 2 PU, 3 PD, the codes of PULL. -/
def Sig.pull : Sig → Nat
  | .mblTxd _ | .mblDe _ | .saOut .. | .saCmp _ | .encOut .. | .trig _ | .safeIn .. | .addrSel _ => 3
  | .canTx _ | .canRx _ | .saFlt _ | .encClk _ => 2
  | .die i =>
    if i ≤ 1 || i = 6 || (9 ≤ i && i ≤ 12) || i = 14 || i = 15 || i = 17 then 2
    else if i = 2 || i = 13 then 3 else 1
  | _ => 1

/-! The records of the PINS section (R627) -/

/-- A record from its four bytes. -/
def BallRec.ofBytes (b : List Byte) : BallRec :=
  let u := fieldAt b 2 1
  { row := fieldAt b 0 1, col := fieldAt b 1 1, use := u % 2 = 1, pull := u / 2 % 4, drive := u / 8 % 4,
    fast := u / 32 % 2 = 1, rsvd := u / 64 + 4 * fieldAt b 3 1 }

/-- The records in the first `4 n` bytes of a section. -/
def ballRecords (n : Nat) (b : List Byte) : List BallRec :=
  (List.range n).map fun i => BallRec.ofBytes (sliceBytes b (4 * i) 4)

/-- Place of a record in ball order: by row, then by column. -/
def BallRec.key (r : BallRec) : Nat := r.row * 256 + r.col

/-- The signal of a record's ball, with the die of a per-die ball. -/
def BallRec.signal (r : BallRec) : Option Sig :=
  if 1 ≤ r.row && r.row ≤ 52 && 1 ≤ r.col && r.col ≤ 52 then
    match ballUse r.row r.col with | .signal s => some s | _ => none
  else none

/-- The pull in force on a ball with a record: PULL, or that of R623. -/
def BallRec.pullOf (r : BallRec) (s : Sig) : Nat := if r.pull = 0 then s.pull else r.pull

/-- A signal carries its function: its ball has a record with USE = 1 (R627). -/
def PinsSec.uses (p : PinsSec) (s : Sig) (dieB : Bool := false) : Bool :=
  p.balls.any fun r => r.use && (r.row, r.col) = s.ball dieB

/-- The signal of a die carries its function there (R627). -/
def Die.ballUsed (d : Die) (s : Sig) : Bool := d.img.pins.uses s (d.id = .b)

/-- The unit of a signal is one that the image uses (R14, R628): lane, CAN controller, axis or port; a
signal that belongs to none of these always is. -/
def PinsSec.unitUsed (p : PinsSec) : Sig → Bool
  | .saOut a _ | .saFlt a | .saCmp a | .saIn a _ => p.axes.contains a
  | .canTx n | .canRx n => p.cans.contains n
  | .mblTxd n | .mblDe n | .mblRxd n => p.lanes.contains n
  | .encIn k _ | .encClk k | .encOut k _ => p.encs.contains k
  | _ => true

/-- A record meets R628: its ball carries a signal of a settable type, every reserved value and field is 0,
and it is used for no unit that is not. -/
def PinsSec.recordOk (p : PinsSec) (r : BallRec) : Bool :=
  match r.signal with
  | none => false
  | some s =>
    r.rsvd = 0 && r.drive ≠ 3 && (s.isOut || (r.drive = 0 && !r.fast)) && (!r.use || p.unitUsed s)

/-- R643: a record of `MBLn_TXD` or `MBLn_DE` is fast and drives more than 4 mA. -/
def BallRec.laneOk (r : BallRec) : Bool :=
  match r.signal with
  | some (.mblTxd _) | some (.mblDe _) => r.fast && r.drive ≠ 0
  | _ => true

end Sys2Proof.Machine
end

