-- ==== Sys2Proof/Machine/Can.lean ====
section
/-! DEFINITION. The CAN FD controllers (chapter 13). -/

namespace Sys2Proof.Machine

/-! Values -/

/-- Data bytes of a frame by its DLC and format (R404). -/
def canLen (fdf : Bool) (dlc : Nat) : Nat :=
  if dlc ≤ 8 then dlc
  else if fdf then ([12, 16, 20, 24, 32, 48, 64][dlc - 9]?).getD 64 else 8

/-- The bit times of R405 in one phase: prescaler and segments as the registers hold them. -/
def canPhaseOk (brp tseg1 tseg2 sjw least maxBrp maxSeg1 minSeg1 maxSeg2 minSeg2 : Nat) : Bool :=
  1 ≤ brp && brp ≤ maxBrp && minSeg1 ≤ tseg1 && tseg1 ≤ maxSeg1 && minSeg2 ≤ tseg2 && tseg2 ≤ maxSeg2 &&
    1 ≤ sjw && sjw ≤ tseg2 && least ≤ brp * (1 + tseg1 + tseg2)

/-- CAN_NBT lies inside the table of R405. -/
def canNbtOk (w : BitVec 27) : Bool :=
  canPhaseOk (bits w 4 0 + 1) (bits w 12 5 + 1) (bits w 19 13 + 1) (bits w 26 20 + 1) 80 32 256 2 128 2

/-- CAN_DBT lies inside the table of R405. -/
def canDbtOk (w : BitVec 18) : Bool :=
  canPhaseOk (bits w 4 0 + 1) (bits w 9 5 + 1) (bits w 13 10 + 1) (bits w 17 14 + 1) 16 32 32 1 16 1

/-- R406: TDC = 1 above 1 Mbit/s in the data phase, and a data prescaler of 1 or 2 with it. -/
def canTdcOk (dbt : BitVec 18) (tdc : BitVec 15) : Bool :=
  let brp := bits dbt 4 0 + 1
  let mtq := brp * (1 + (bits dbt 9 5 + 1) + (bits dbt 13 10 + 1))
  if bit tdc 0 then brp ≤ 2 else 80 ≤ mtq

/-- The arbitration field as a number, dominant bits as 0: the smaller wins (R407). A base frame is
followed by dominant bits here, so it wins against an extended frame with its base identifier. -/
def canArb (id : W32) : Nat :=
  let base := bits id 28 18
  if bit id 29 then base * 2 ^ 21 + 3 * 2 ^ 19 + bits id 17 0 * 2 + flag (bit id 30) 0
  else base * 2 ^ 21 + flag (bit id 30) 20

/-- The rank field of an identifier: its three least significant bits (R418). A base identifier
stands in bits [28:18], so these are bits [20:18] of a base frame (log entry 60). -/
def canRankPos (id : W32) : Nat := if bit id 29 then 0 else 18

def canRank (id : W32) : Nat := bits id (canRankPos id + 2) (canRankPos id)

/-- An identifier word with another rank. -/
def canWithRank (id : W32) (rank : BitVec 3) : W32 :=
  let p := canRankPos id
  BitVec.ofNat 32 (id.toNat - canRank id * 2 ^ p + rank.toNat * 2 ^ p)

/-- A filter matches a frame (R410). -/
def CanFilter.hits (f : CanFilter) (id : W32) : Bool :=
  bit f.id 31 && bit f.id 29 == bit id 29 && (id ^^^ f.id) &&& f.mask &&& 0x1FFFFFFF == 0

/-- Where a received frame goes: accepted with the FILTER index of R412, or rejected (R410). -/
def Can.accepts (c : Can) (id : W32) : Option Nat :=
  match (List.range 32).find? (fun i => ((c.cfg.filters[i]?).getD {}).hits id) with
  | some i => if bit ((c.cfg.filters[i]?).getD {}).id 30 then none else some i
  | none => if c.cfg.acceptAll then some 31 else none

/-- R419: a valid reference message: classical data frame, DLC 8, REF_ID apart from the rank, and
byte 0 agrees with the rank. -/
def Can.validRef (c : Can) (f : CanFrame) : Bool :=
  let id := f.id &&& 0x3FFFFFFF
  !bit f.id 30 && !bit f.fmt 4 && bits f.fmt 3 0 = 8 &&
    canWithRank id 0 = canWithRank (BitVec.ofNat 32 c.cfg.refId.toNat) 0 &&
    ((f.data[0]?).getD 0).toNat % 8 = canRank id

/-- The reference message of this controller with the time of its SOF edge (R418). -/
def Can.refFrame (c : Can) (m : Byte × W16) (sof : W32) : CanFrame :=
  { id := canWithRank (BitVec.ofNat 32 c.cfg.refId.toNat) c.cfg.refRank
    fmt := 8
    data := [BitVec.ofNat 8 c.cfg.refRank.toNat, m.1] ++ leBytes 2 m.2.toNat ++ leBytes 4 sof.toNat }

/-! Access to the controllers of a die -/

def Die.can (d : Die) (n : Nat) : Can := (d.cans[n]?).getD {}

def Die.updCan (d : Die) (n : Nat) (f : Can → Can) : Die :=
  { d with cans := d.cans.setIfInBounds n (f (d.can n)) }

def Can.count (i : Fin 9) (c : Can) : Can := { c with cnt := vupd c.cnt i satInc }

def Can.buf (c : Can) (b : Fin 3) : TxBuf := vget c.bufs b

def Can.updBuf (b : Fin 3) (f : TxBuf → TxBuf) (c : Can) : Can := { c with bufs := vupd c.bufs b f }

/-- Error active or error passive: the controller takes part in the traffic. -/
def Can.onBus (c : Can) : Bool := c.st = .active || c.st = .passive

/-- Only the holder of the grant drives the bus (R403); the standby copies its buffers and FIFO
(R422). -/
def Die.canDrives (d : Die) (n : Nat) : Bool := d.red.gateOpen && (d.unit 7 n).state = .active

/-! Selection (R407, R415, R416) -/

/-- The pending buffer that is offered next (R407). -/
def Can.best (c : Can) : Option (Fin 3) :=
  let l := (List.finRange 3).filter fun b => (c.buf b).pending
  if c.cfg.txord then l.head?
  else l.foldl (fun o b =>
    match o with
    | none => some b
    | some a => if canArb (c.buf b).id < canArb (c.buf a).id then some b else some a) none

/-- R416: restricted operation and bus monitoring take effect when the bus is idle. -/
def Can.idleModes (c : Can) : Can :=
  if c.offer = .none && !c.receiving then { c with romOn := c.rom, monOn := c.mon } else c

/-- The bus is idle or a frame has ended: the next frame is offered (R407). -/
def Can.select (c : Can) : Can :=
  let c := c.idleModes
  if c.offer = .none && !c.receiving && c.onBus && !c.romOn && !c.monOn then
    match c.refDue with
    | some m => { c with offer := .ref, refBus := some m }
    | none =>
      match c.best with
      | some b => { c with offer := .buf b }
      | none => c
  else c

/-- A buffer ends (R427). -/
def Can.finish (b : Fin 3) (result : Nat) : Can → Can :=
  Can.updBuf b fun t =>
    { t with pending := false, aborting := false, result := BitVec.ofNat 3 result, done := true }

/-- The frame on the bus ends without success: SS_FAIL, ABORTED, ALONE_FAIL, or it stays pending
(R408, R409, R417). `alone`: the attempt was the last one that ALONE_SS allows. -/
def Can.offerLost (alone : Bool) (c : Can) : Can :=
  let c' := { c with offer := .none, refBus := none }
  match c.offer with
  | .buf b =>
    let t := c.buf b
    if bit t.fmt 6 then c'.finish b 3
    else if t.aborting then c'.finish b 2
    else if alone then c'.finish b 4
    else c'
  | _ => c'

/-- The offered frame does not start, or breaks off without counting against its buffer; an aborted
buffer is released (R409, R415). -/
def Can.withdraw (c : Can) : Can :=
  let c' := { c with offer := .none, refBus := none }
  match c.offer with
  | .buf b => if (c.buf b).aborting then c'.finish b 2 else c'
  | _ => c'

/-! Error confinement (R414, R423) -/

/-- The state follows TEC and REC (R423), with its records. -/
def Die.canConfine (n : Nat) (d : Die) : Die :=
  let c := d.can n
  if c.onBus && 255 < c.tec then
    (d.updCan n fun c =>
      ({ c.withdraw with st := .busoff, boCnt := 0, receiving := false }).count 3).log .warn (d.uid 7 n) 0xC0
  else if c.st = .active && (127 < c.tec || 127 < c.rec') then
    (d.updCan n fun c => { c with st := .passive }).log .info (d.uid 7 n) 0xC1
  else if c.st = .passive && c.tec ≤ 127 && c.rec' ≤ 127 then d.updCan n fun c => { c with st := .active }
  else d

/-- TEC and REC change only while the controller takes part and is not restricted (R416). -/
def Can.errors (tec rec' : Nat) (c : Can) : Can :=
  if c.onBus && !c.romOn then { c with tec := min 256 (c.tec + tec), rec' := min 255 (c.rec' + rec') } else c

/-! The reference service (R418-R420) -/

/-- The transitions of R419 that hang on EN, the controller's state and the modes in force. -/
def Can.refService (c : Can) : Can :=
  if !c.cfg.refEn || c.directOn then { c with ref := .off, refDue := none, refOpen := false, refMissed := 0 }
  else
    match c.ref with
    | .off => if c.st = .active then { c with ref := .follow, refMissed := 0 } else c
    | .master =>
      if c.st = .busoff || c.romOn then { c with ref := .follow, refDue := none, refMissed := 0 } else c
    | _ => c

/-- After every command: the modes that wait for an idle bus, the reference service, then the next frame is offered. -/
def Can.settle (c : Can) : Can := c.idleModes.refService.select

/-- A reference message is due (R418). -/
def Can.refTick (cyc : W32) (per : Nat) (c : Can) : Can :=
  if c.cfg.refPeriod ≠ 0 && cyc.toNat % c.cfg.refPeriod.toNat = 0 && (c.ref = .follow || c.ref = .master) then
    let c := { c with refOpen := true, refAt := per }
    if c.ref = .master then
      let c := if c.refDue.isSome then ({ c with seq := c.seq + 1 }).count 7 else c
      { c with refDue := some (c.seq, cyc.setWidth 16) }
    else c
  else c

/-- Direct mode follows its request; back in hardware mode the bit timing, the filters and the reference settings are
the image's again (R421). -/
def Can.directMode (c : Can) : Can :=
  { c with directOn := c.direct,
           cfg := if c.directOn && !c.direct then
               { c.image with init := c.cfg.init, txord := c.cfg.txord, pxd := c.cfg.pxd, acceptAll := c.cfg.acceptAll }
             else c.cfg }

/-- The boundary of a cell cycle: direct mode (R421) and the references due. -/
def Die.canBoundary (d : Die) : Die :=
  { d with cans := vmap d.cans fun _ c =>
      (c.directMode.refService.refTick d.time.cyc d.time.per).settle }

/-- A received valid reference message (R419, R420). -/
def Die.canRef (n : Nat) (f : CanFrame) (sof : W32) (d : Die) : Die :=
  let c := d.can n
  match c.ref with
  | .follow =>
    let ofs := BitVec.ofNat 32 (fieldAt f.data 4 4) - sof - BitVec.ofNat 32 c.cfg.refDly.toNat
    let skew := d.time.jumpTh.toNat < ofs.toInt.natAbs
    let d := d.updCan n fun c =>
      ({ c with refOfs := ofs, refOpen := false, refMissed := 0, refHeard := true,
                refSkew := c.refSkew || skew }).count 8
    if skew then d.logOnce c.refSkew .warn (d.uid 7 n) 0xC5 else d
  | .master =>
    d.updCan n fun c =>
      if canRank f.id < c.cfg.refRank.toNat then
        { c with ref := .follow, refDue := none, refOpen := false, refMissed := 0, refHeard := true }
      else { c with refOpen := false }
  | _ => d

/-- CAN_REF_MISSED: half a period has passed since a due time without a valid reference message
(R419). -/
def Die.canRefMissed (n : Nat) (d : Die) : Die :=
  let c := d.can n
  if d.canDrives n && c.refOpen then
    let m := c.refMissed + 1
    if c.ref = .follow && 2 ≤ m then
      let d' := d.updCan n fun c => { c with refOpen := false, refMissed := 0, ref := .master, refHeard := false }
      (if c.refHeard then d'.log .warn (d.uid 7 n) 0xC4 else d').updCan n Can.settle
    else d.updCan n fun c => { c with refOpen := false, refMissed := m }
  else d

/-- CAN_CTRL.REF_RESTART (R419). -/
def Die.canRefRestart (n : Nat) (d : Die) : Die :=
  d.updCan n fun c =>
    (if c.ref = .stopped then { c with ref := .follow, refMissed := 0, refClash := 0 } else c).settle

/-! Traffic -/

/-- The FIFO takes an accepted frame, or it is full (R411). -/
def Die.canStore (n : Nat) (e : CanEntry) (d : Die) : Die :=
  let c := d.can n
  if c.fifo.length < 32 then d.updCan n fun c => { c with fifo := c.fifo ++ [e] }
  else (d.updCan n fun c => ({ c with ovf := true }).count 5).logOnce c.ovf .warn (d.uid 7 n) 0xC3

/-- REC after a frame received without error: one less; from above 127 a value between 119 and 127
that ISO 11898-1 leaves open (log entry 2). -/
def Die.canRecDown (n : Nat) (d : Die) : Die :=
  let c := d.can n
  if c.romOn then d
  else if 127 < c.rec' then
    ({ d with fresh := d.fresh + 1 }).updCan n fun c => { c with rec' := 119 + (d.freeVal 8).toNat % 9 }
  else d.updCan n fun c => { c with rec' := c.rec' - 1 }

/-- CAN_FRAME_RX: a frame of another node ends without error; `sof` is TIME_NS at its SOF edge
(R410-R413, R417, R419). A controller that does not drive follows the bus: its FIFO and its reference service hold what
the duty die forwards (R422, log entry 123). -/
def Die.canFrameRx (n : Nat) (f : CanFrame) (sof : W32) (d : Die) : Die :=
  let c := d.can n
  if c.onBus || c.receiving then
    let drives := d.canDrives n
    let len := if bit f.id 30 then 0 else canLen (bit f.fmt 4) (bits f.fmt 3 0)
    let data := sliceBytes (f.data.take len) 0 64
    let isRef := c.cfg.refEn && !c.directOn && c.validRef f && c.ref ≠ .off && c.ref ≠ .stopped
    let d := d.updCan n fun c =>
      ({ c.withdraw with receiving := false, alone := false }).count 1
    let d := (d.canRecDown n).canConfine n
    let d := match if drives then c.accepts f.id else none with
      | some i =>
        d.canStore n { id := f.id &&& 0x7FFFFFFF, time := sof, data := data,
                       fmt := (f.fmt &&& 0x7F) ||| BitVec.ofNat 32 (flag isRef 7 + i * 256) }
      | none => d
    let d := if isRef && drives then d.canRef n f sof else d
    d.updCan n Can.settle
  else d

/-- The measured loop delay and the range of the secondary sample point (R406). -/
def Die.canTdc (n : Nat) (fd : Bool) (tdcv : BitVec 7) (d : Die) : Die :=
  let c := d.can n
  if fd && bit c.cfg.tdc 0 then
    let out := 127 < tdcv.toNat + bits c.cfg.tdc 7 1
    let d := d.updCan n fun c => { c with tdcv := tdcv, tdcRange := c.tdcRange || out }
    if out then d.logOnce c.tdcRange .warn (d.uid 7 n) 0xC6 else d
  else d

/-- CAN_TX_DONE: the frame on the bus is acknowledged and ends well; `sof` is the time of its SOF
edge and `tdcv` the loop delay measured in an FD frame (R406, R407, R413, R418). -/
def Die.canTxDone (n : Nat) (sof : W32) (tdcv : BitVec 7) (d : Die) : Die :=
  let c := d.can n
  if !d.canDrives n || c.offer = .none then d
  else
    let frame : CanFrame := match c.offer with
      | .buf b =>
        let t := c.buf b
        let fd := bit t.fmt 4
        { id := t.id,
          fmt := BitVec.ofNat 32 (bits t.fmt 5 0 + flag (fd && c.st = .passive) 6),
          data := if bit t.id 30 then [] else t.data.take (canLen fd (bits t.fmt 3 0)) }
      | _ => c.refFrame (c.refBus.getD (c.seq, 0)) sof
    let d := d.emit (.can n frame.id.toNat frame.fmt frame.data)
    let d := d.canTdc n (bit frame.fmt 4) tdcv
    let d := d.updCan n fun c =>
      let c := ({ c with alone := false, ackRun := 0, offer := .none, tec := if c.romOn then c.tec else c.tec - 1 }
        ).count 0
      match (d.can n).offer with
      | .buf b => c.finish b 1
      | _ =>
        ({ c with refBus := none, refOpen := false, refMissed := 0, refClash := 0,
                  refDue := if c.refDue = c.refBus then none else c.refDue,
                  seq := if c.refDue = c.refBus then c.seq + 1 else c.seq }).count 6
    (d.canConfine n).updCan n Can.settle

/-- CAN_ARB_LOST: the frame on the bus loses arbitration; the controller receives the winner
(R408). -/
def Die.canArbLost (n : Nat) (d : Die) : Die :=
  if !d.canDrives n || (d.can n).offer = .none then d
  else d.updCan n fun c =>
    { c.offerLost false with receiving := true }

/-- The bookkeeping of acknowledge errors (R417). -/
def Die.canAckError (n : Nat) (d : Die) : Die :=
  let c := d.can n
  let run := c.ackRun + 1
  let d := d.updCan n fun c => ({ c with ackRun := run }).count 2
  if run = 16 then
    (d.updCan n fun c => ({ c with alone := true }).count 4).log .warn (d.uid 7 n) 0xC2
  else d

/-- What an error does to TEC and REC by ISO 11898-1 (R414, R417). -/
def Can.errorStep (e : CanErr) (c : Can) : Can :=
  match e with
  | .ack dom => if c.st = .passive && !dom then c else c.errors 8 0
  | .bit _ => c.errors 8 0
  | .arbStuff => c
  | .txOther => c.errors 8 0
  | .rx => c.errors 0 1
  | .rxDominant => c.errors 0 8
  | .inFlag true => c.errors 8 0
  | .inFlag false => c.errors 0 8

/-- The error is one of the controller's own frame. -/
def CanErr.ofOwn : CanErr → Bool
  | .ack _ => true | .bit _ => true | .arbStuff => true | .txOther => true | _ => false

/-- CAN_REF_CLASH: the fourth bit error in a row in the data field of its own reference (R419). -/
def Die.canClash (n : Nat) (e : CanErr) (d : Die) : Die :=
  let c := d.can n
  if c.offer = .ref then
    let k := if e = .bit true then c.refClash + 1 else 0
    if 4 ≤ k && c.ref = .master then
      (d.updCan n fun c => { c with refClash := 0, ref := .stopped, refDue := none, refOpen := false }
        ).log .degrade (d.uid 7 n) 0xC8
    else d.updCan n fun c => { c with refClash := k }
  else d

/-- The controller takes an error: one of its own frame while it has one on the bus; one that does not drive the bus
sends no frame and no flag and sees a receiver's errors only (R422). -/
def Die.canSeesError (n : Nat) (e : CanErr) (d : Die) : Bool :=
  let c := d.can n
  (if d.canDrives n then !e.ofOwn || c.offer ≠ .none else e = .rx || e = .rxDominant) &&
    (c.onBus || c.offer ≠ .none || c.receiving)

/-- The loop delay that the frame on the bus has measured before it was broken off (R406). -/
def Die.canTdcBroken (n : Nat) (tdcv : Option (BitVec 7)) (d : Die) : Die :=
  match (d.can n).offer, tdcv with
  | .buf b, some v => d.canTdc n (bit ((d.can n).buf b).fmt 4) v
  | _, _ => d

/-- CAN_BUS_ERROR: an error on the bus (R408, R414-R417); `tdcv`: the loop delay measured in its own FD frame, where that
came so far (R406). An error ends the frame of another node too, and a new choice follows (R407). -/
def Die.canBusError (n : Nat) (e : CanErr) (tdcv : Option (BitVec 7)) (d : Die) : Die :=
  let c := d.can n
  if !d.canSeesError n e then d
  else
    let d := if e.ofOwn then d.canTdcBroken n tdcv else d
    let wasAlone := c.alone && c.aloneSs
    let isAck := match e with | .ack _ => true | _ => false
    let d := d.updCan n (Can.errorStep e)
    let d := if isAck then d.canAckError n
      else d.updCan n fun c => { c with ackRun := 0 }
    let d := d.canClash n e
    let d := d.updCan n fun c =>
      if e.ofOwn then c.offerLost (isAck && wasAlone) else { c.withdraw with receiving := false }
    let d := d.canConfine n
    d.updCan n fun c => (if c.romOn && c.onBus then { c with st := .integrate } else c).settle

/-- CAN_BUSOFF_RECOVERY: `k` more occurrences of 11 consecutive recessive bits; the 128th recovers the
controller (R414, R423). -/
def Die.canBusoffRecovery (n k : Nat) (d : Die) : Die :=
  d.updCan n fun c =>
    if c.st ≠ .busoff then c
    else if 128 ≤ c.boCnt + k then ({ c with st := .active, tec := 0, rec' := 0, boCnt := 128 }).settle
    else { c with boCnt := c.boCnt + k }

/-- CAN_INTEGRATED: 11 consecutive recessive bits end bus integration (R423); a controller whose counts stand above 127
is PASSIVE at once. -/
def Die.canIntegrated (n : Nat) (d : Die) : Die :=
  if (d.can n).st ≠ .integrate then d
  else ((d.updCan n fun c => { c with st := .active, receiving := false }).canConfine n).updCan n Can.settle

/-- CAN_PROTOCOL_EXC: a protocol exception event (R423); with PXD = 1 the bit is a form error. -/
def Die.canProtocolExc (n : Nat) (d : Die) : Die :=
  let c := d.can n
  if !c.onBus then d
  else if c.cfg.pxd then d.canBusError n .rx none
  else
    (d.updCan n fun c => { c.withdraw with st := .integrate, receiving := false }).log .info (d.uid 7 n) 0xC7

/-! Commands -/

/-- TX_REQ: TXB_CTRL.REQ; refused with ABORT in the same write, or for a remote FD frame
(R409, R424). -/
def Die.canTxReq (n : Nat) (b : Fin 3) (withAbort : Bool) (d : Die) : Die :=
  let t := (d.can n).buf b
  if withAbort || (bit t.fmt 4 && bit t.id 30) then d.refuse
  else if t.pending then d
  else d.updCan n fun c => (c.updBuf b fun t => { t with pending := true, result := 0, aborting := false }).settle

/-- TX_ABORT: TXB_CTRL.ABORT (R409). -/
def Die.canTxAbort (n : Nat) (b : Fin 3) (d : Die) : Die :=
  d.updCan n fun c =>
    if !(c.buf b).pending then c
    else if c.offer = .buf b then c.updBuf b fun t => { t with aborting := true }
    else c.finish b 2

/-- CAN_RX_POP: the oldest entry leaves the FIFO (R411). -/
def Die.canRxPop (n : Nat) (d : Die) : Die := d.updCan n fun c => { c with fifo := c.fifo.drop 1 }

/-- CAN_INIT: a write of CAN_CTRL.INIT (R414, R423). -/
def Die.canInit (n : Nat) (on : Bool) (d : Die) : Die :=
  let c := d.can n
  if on && c.st = .busoff then d.refuse
  else d.updCan n fun c =>
    let c : Can := { c with cfg := { c.cfg with init := on } }
    match c.st with
    | .init => if on then c else ({ c with st := .integrate }).settle
    | .integrate | .active | .passive =>
      if on then ({ c with st := .init, tec := 0, rec' := 0 }).settle else c
    | _ => c

/-- CAN_ROM and CAN_MON: in force at the next bus idle (R416, R425). -/
def Die.canRom (n : Nat) (on : Bool) (d : Die) : Die := d.updCan n fun c => ({ c with rom := on }).settle
def Die.canMon (n : Nat) (on : Bool) (d : Die) : Die := d.updCan n fun c => ({ c with mon := on }).settle

/-- CAN_DIRECT: in force at the next boundary of a cell cycle (R421). -/
def Die.canDirect (n : Nat) (on : Bool) (d : Die) : Die := d.updCan n fun c => { c with direct := on }

/-! Placement and takeover -/

/-- The settings of the image in force; a controller in use leaves OFF (R421, R423). -/
def Can.place (cfg : CanCfg) (c : Can) : Can :=
  { c with cfg := cfg, image := cfg, tec := 0, rec' := 0, st := if cfg.init then .init else .integrate, offer := .none,
           receiving := false }

/-- R422: the standby holds the buffers, the FIFO, the reference state and SEQ of the duty die. -/
def Can.mirror (src dst : Can) : Can :=
  { dst with bufs := src.bufs, fifo := src.fifo, ref := src.ref, seq := src.seq, refDue := src.refDue,
             refMissed := src.refMissed, refOfs := src.refOfs, refOpen := src.refOpen, refClash := src.refClash, refHeard := src.refHeard }

/-- R422: the controllers of a new duty die start bus integration with TEC = REC = 0. -/
def Can.takeover (c : Can) : Can :=
  let bufs := c.bufs.map fun (t : TxBuf) =>
    if t.aborting then { t with pending := false, aborting := false, result := 2, done := true } else t
  match c.st with
  | .off | .init => { c with bufs := bufs }
  | _ => { c with bufs := bufs, st := .integrate, tec := 0, rec' := 0, offer := .none, refBus := none,
                  receiving := false }

def Die.canTakeover (d : Die) : Die := { d with cans := vmap d.cans fun _ c => c.takeover }

end Sys2Proof.Machine
end

