-- ==== Sys2Proof/Machine/Num.lean ====
section
/-! DEFINITION. Exact numbers behind the fixed-point formats (R4, R57, R60), and trapezoids of plan
time. A computation whose internal rounding the manual does not give is exact here and is narrowed
where a result is stored (log entry 30). -/

namespace Sys2Proof.Machine

/-- The value of an integer content with `f` fraction bits. -/
def qv (f : Nat) (x : Int) : Rat := mkRat x (2 ^ f)

/-- 2^e for an integer exponent. -/
def pow2 (e : Int) : Rat := if 0 ≤ e then ((2 ^ e.toNat : Nat) : Rat) else mkRat 1 (2 ^ (-e).toNat)

/-- Nearest integer, ties to even (R4, R60). -/
def ratRound (r : Rat) : Int := roundDiv r.num r.den

/-- An exact value narrowed to `f` fraction bits, without a limit. -/
def toQ (f : Nat) (r : Rat) : Int := ratRound (r * (2 ^ f : Nat))

/-- An exact value narrowed to `f` fraction bits as an engine narrows it: truncated where `tr` holds, else to nearest
even (R306). -/
def toQB (tr : Bool) (f : Nat) (r : Rat) : Int := if tr then (r * (2 ^ f : Nat)).floor else toQ f r

/-- An integer division with the same rounding. -/
def roundDivB (tr : Bool) (x : Int) (n : Nat) : Int := if tr then Int.fdiv x n else roundDiv x n

/-- An exact value narrowed to a 32-bit word with `f` fraction bits: nearest even, saturating (R4). -/
def toWord (f : Nat) (r : Rat) : W32 := fit32 (toQ f r)

def ratAbs (r : Rat) : Rat := if r < 0 then -r else r
def ratMax (a b : Rat) : Rat := if a < b then b else a
def ratMin (a b : Rat) : Rat := if b < a then b else a
def ratClamp (lim r : Rat) : Rat := ratMax (-lim) (ratMin lim r)
def ratSgn (r : Rat) : Rat := if r < 0 then -1 else if 0 < r then 1 else 0

/-- Integer square root by halving steps: the largest r with r * r ≤ x, for x below 4^n. -/
def isqrtBits (x : Nat) : Nat → Nat → Nat
  | 0, r => r
  | n + 1, r => if (r + 2 ^ n) * (r + 2 ^ n) ≤ x then isqrtBits x n (r + 2 ^ n) else isqrtBits x n r

def isqrt (x : Nat) : Nat := isqrtBits x (x.log2 / 2 + 1) 0

/-- Square root truncated to `f` fraction bits; 0 of a negative number. -/
def ratSqrtDown (f : Nat) (r : Rat) : Rat :=
  mkRat (isqrt ((r * (4 ^ f : Nat)).floor.toNat)) (2 ^ f)

/-- The value of an S16E8 word (R57). -/
def s16e8 (w : W32) : Rat := qv 15 (bits w 31 16) * pow2 (BitVec.ofNat 8 (bits w 7 0)).toInt

/-- The nearest S16E8 word of a non-negative value (R57): the mantissa lies in [1, 2) but for values below 2^-128,
which keep the exponent -128; one beyond the format is its largest word; 0 for 0. -/
def toS16E8 (r : Rat) : W32 :=
  if r ≤ 0 then 0
  else
    let e : Int := (r.num.toNat.log2 : Int) - r.den.log2
    let e := if r < pow2 e then e - 1 else e
    let e := max (-128) e
    let m := toQ 15 (r * pow2 (-e))
    let (m, e) := if 65535 < m then (32768, e + 1) else (m, e)
    let (m, e) : Int × Int := if 127 < e then (65535, 127) else (m, e)
    BitVec.ofNat 32 (m.toNat * 65536) ||| (BitVec.ofInt 8 e).zeroExtend 32

end Sys2Proof.Machine
end

