-- ==== Sys2Proof/Machine/Queue.lean ====
section
/-! DEFINITION. Credits, the lookout window, commit, squash and tuning (chapter 05). -/

namespace Sys2Proof.Machine

def Die.queue (d : Die) (q : Nat) : Queue := (d.qrc.queues[q]?).getD {}

def Die.updQueue (q : Nat) (f : Queue → Queue) (d : Die) : Die :=
  { d with qrc := { d.qrc with queues := d.qrc.queues.setIfInBounds q (f (d.queue q)) } }

/-- UID of a queue (R34). -/
def Die.uidQueue (d : Die) (q : Nat) : W16 := d.uid 13 q

/-- The first declared queue with a property. -/
def Die.findQueue (d : Die) (p : Queue → Bool) : Option Nat :=
  (List.range 1024).find? fun q => (d.queue q).used && p (d.queue q)

/-- Distance of a 16-bit target from CYC, in [-2^15, 2^15) (R7). -/
def tgtDist (tgt : W16) (cyc : W32) : Int := (tgt - BitVec.ofNat 16 cyc.toNat).toInt

/-- The low 16 bits of a cycle number. -/
def tgtOf (cyc : W32) : W16 := BitVec.ofNat 16 cyc.toNat

/-- The entry header of R152. -/
def QEntry.header (e : QEntry) : W32 :=
  BitVec.ofNat 32 (e.epoch.toNat * 2 ^ 24 + e.tgt.toNat * 2 ^ 8 + flag e.commit 7 + flag e.last 6)

/-- The bytes of an entry in its slot of the ring: header, then payload (R152). -/
def QEntry.bytes (e : QEntry) : List Byte := (e.header :: e.payload).flatMap fun w => leBytes 4 w.toNat

/-- An entry as bytes of its slot spell it (R152). -/
def QEntry.ofBytes (e : QEntry) (b : List Byte) : QEntry :=
  let h := fieldAt b 0 4
  { e with epoch := BitVec.ofNat 8 (h / 2 ^ 24), tgt := BitVec.ofNat 16 (h / 2 ^ 8), commit := h.testBit 7,
           last := h.testBit 6,
           payload := (List.range e.payload.length).map fun i => BitVec.ofNat 32 (fieldAt b (4 + 4 * i) 4) }

/-- Bytes of one slot of the ring. -/
def Queue.stride (q : Queue) : Nat := 4 * (q.words + 1)

/-- Place of an entry of the queue in BAR2. -/
def Queue.place (q : Queue) (e : QEntry) : Nat := q.base + e.slot * q.stride

/-- An address of BAR2 lies in the ring. -/
def Queue.holds (q : Queue) (a : Nat) : Bool := decide (q.base ≤ a) && decide (a < q.base + q.depth * q.stride)

/-- The byte of the ring at a BAR2 offset, where an entry of the queue stands there (R152). -/
def Queue.byteAt (q : Queue) (a : Nat) : Option Byte :=
  match (q.port ++ q.ring).find? fun e => decide (q.place e ≤ a) && decide (a < q.place e + q.stride) with
  | none => none
  | some e => e.bytes[a - q.place e]?

/-- A byte written from outside into an entry that stands in the ring. -/
def Queue.pokeByte (a : Nat) (v : Byte) (q : Queue) : Queue :=
  let f (e : QEntry) : QEntry :=
    if decide (q.place e ≤ a) && decide (a < q.place e + q.stride) then e.ofBytes (e.bytes.set (a - q.place e) v)
    else e
  { q with ring := q.ring.map f, port := q.port.map f }

/-- The queues whose ring a range of BAR2 touches. -/
def Die.ringsIn (d : Die) (a n : Nat) : List Nat :=
  (List.range 1024).filter fun q =>
    let x := d.queue q
    x.used && decide (a < x.base + x.depth * x.stride) && decide (x.base < a + n)

/-- SRAM as BAR2 shows it: entries of the rings where they stand, memory elsewhere (R152, R566). -/
def Die.sramBytes (d : Die) (a n : Nat) : List Byte :=
  match d.ringsIn a n with
  | [] => d.sram.read 0 a n
  | l => (List.range n).map fun i =>
      ((l.filterMap fun q => (d.queue q).byteAt (a + i)).head?).getD (d.sram.get 0 (a + i))

/-- A byte written to SRAM through BAR2, into an entry of a ring too where one stands there. -/
def Die.pokeSram (d : Die) (c : Nat × Byte) : Die :=
  (d.ringsIn c.1 1).foldl (fun d q => d.updQueue q (Queue.pokeByte c.1 c.2))
    { d with sram := d.sram.put 0 c.1 c.2 }

/-- The slot `n` entries before the next one: a removal from the end of the ring takes slots back. -/
def Queue.backSlot (q : Queue) (n : Nat) : Nat := (q.nextSlot + q.depth - n % max 1 q.depth) % max 1 q.depth

/-- Entries held, the dequeue port included (R177). -/
def Queue.fill (q : Queue) : Nat := q.ring.length + q.port.length

/-- Credits the producer may still take (R155). -/
def Queue.free (q : Queue) : Nat := q.grant - (q.fill + q.taken)

/-- The newest group is open (R152, R177). -/
def Queue.isOpen (q : Queue) : Bool :=
  match q.ring.getLast? with
  | some e => !e.last
  | none => false

/-- A group of the ring is closed: its last entry is there (R152). -/
def Queue.closed (q : Queue) (tgt : W16) : Bool := q.ring.any fun e => e.tgt = tgt && e.last

/-- COMMIT set in every closed group with target below `cyc` + HC (R158). -/
def Queue.commit (cyc : W32) (q : Queue) : Queue :=
  let done (e : QEntry) : Bool := q.closed e.tgt && decide (tgtDist e.tgt cyc < q.hc)
  let ring := q.ring.map fun e => if done e then { e with commit := true } else e
  let last := (ring.filter (·.commit)).getLast?
  { q with ring := ring, lastCommit := match last with | some e => e.tgt | none => q.lastCommit }

/-- The closed group that R153 still names once a squash has left `keep` of the ring: a group that is taken back
may be written again. -/
def Queue.closedAfter (q : Queue) (keep : List QEntry) : Option W32 :=
  q.closedCyc.bind fun c =>
    if (q.ring.any fun e => e.tgt = tgtOf c) && !(keep.any fun e => e.tgt = tgtOf c) then none else some c

/-- R161: EPOCH rises, uncommitted entries and held credits go. -/
def Queue.squash (q : Queue) : Queue :=
  let keep := q.ring.filter (·.commit)
  { q with epoch := q.epoch + 1, ring := keep, taken := 0, closedCyc := q.closedAfter keep, nextSlot := q.backSlot (q.ring.length - keep.length),
           cntSquash := satInc q.cntSquash,
           squashNow := q.squashNow + (q.ring.length - keep.length) }

/-- R163: a fault squash also removes committed entries and the dequeue port. -/
def Queue.faultSquashNow (q : Queue) : Queue :=
  { q with epoch := q.epoch + 1, ring := [], port := [], taken := 0, closedCyc := none,
           cntSquash := satInc q.cntSquash, squashNow := q.squashNow + q.fill,
           faultSquash := false }

/-- What an enqueue comes to (R153, R156, R157, R162). -/
inductive EnqResult where
  | done
  /-- No free credit: the producer stalls. -/
  | stall
  /-- The target lies beyond the lookout window: the enqueue waits. -/
  | wait
  /-- The target lies in the past: refused, CNT_LATE. -/
  | late
  /-- Out of order: refused, ORDER_ERR. -/
  | order
  /-- The entry carries an old epoch: refused. -/
  | oldEpoch
  deriving DecidableEq, Repr

/-- The cycle that a target names, as CYC reads `cyc` (R7). -/
def tgtCyc (tgt : W16) (cyc : W32) : W32 := cyc + BitVec.ofInt 32 (tgtDist tgt cyc)

/-- R153: the enqueue breaks the order of targets, each taken as the cycle it names (R7). A closed group counts
after its consumer has taken it too (R345). -/
def Queue.outOfOrder (q : Queue) (tgt : W16) (cyc : W32) : Bool :=
  q.closedCyc = some (tgtCyc tgt cyc) ||
  match (q.port ++ q.ring).getLast? with
  | none => false
  | some e =>
    let k := tgtDist tgt cyc - tgtDist e.tgt cyc
    decide (k < 0) || (decide (k = 0) && e.last) || (decide (0 < k) && !e.last)

/-- How an enqueue for a target under a credit of `epoch` is judged. -/
def Queue.judge (q : Queue) (epoch : Byte) (tgt : W16) (cyc : W32) : EnqResult :=
  if epoch ≠ q.epoch then .oldEpoch
  else if tgtDist tgt cyc < 0 then .late
  else if q.lookout < tgtDist tgt cyc then .wait
  else if q.outOfOrder tgt cyc then .order
  else .done

/-- An entry that passed `judge` enters the ring; it uses a taken credit, and a group closed inside
the commit horizon is committed (R152, R158). -/
def Queue.push (tgt : W16) (last : Bool) (payload : List W32) (cyc : W32) (q : Queue) : Queue :=
  let e : QEntry := { epoch := q.epoch, tgt := tgt, last := last, payload := payload, slot := q.nextSlot }
  let q := { q with ring := q.ring ++ [e], taken := q.taken - 1, lastTgt := tgt,
                    nextSlot := (q.nextSlot + 1) % max 1 q.depth, enqNow := q.enqNow + 1,
                    closedCyc := if last then some (tgtCyc tgt cyc) else q.closedCyc }
  if last then q.commit cyc else q

/-- A producer takes a credit, if one is free (R155). -/
def Queue.take (q : Queue) : Option Queue :=
  if 0 < q.free then some { q with taken := q.taken + 1 } else none

/-- A stall for credit, counted once a cycle (R156). -/
def Queue.stall (q : Queue) : Queue :=
  if q.stalled then q else { q with stalled := true, cntStall := satInc q.cntStall }

/-- ORDER_ERR and its record (R153, R573). -/
def Die.orderErr (q : Nat) (d : Die) : Die :=
  let was := d.qrc.orderErr
  let d := { d with qrc := { d.qrc with orderErr := true, lastQ := BitVec.ofNat 10 q } }
  (d.log .warn (d.uidQueue q) 0x60).raise 57 was

/-- An enqueue carried out or refused, with its counters and records. A waiting or stalled one
changes nothing here. The credit of a late or misordered entry stays with the producer. -/
def Die.enqueue (q : Nat) (epoch : Byte) (tgt : W16) (last : Bool) (payload : List W32) (d : Die) :
    EnqResult × Die :=
  match (d.queue q).judge epoch tgt d.time.cyc with
  | .done => (.done, d.updQueue q (Queue.push tgt last payload d.time.cyc))
  | .late => (.late, d.updQueue q fun x => { x with cntLate := satInc x.cntLate })
  | .order => (.order, d.orderErr q)
  | r => (r, d)

/-- The credit of a producer's next entry: one it still holds after a refusal, or a free one
(R153, R155). -/
def Queue.credit (q : Queue) : Option Queue := if 0 < q.taken then some q else q.take

/-- Entries a producer can still write on the credits it holds and those that are free. -/
def Queue.room (q : Queue) : Nat := q.free + q.taken

/-- A device producer writes an entry under a credit; without one it stalls. -/
def Die.produce (q : Nat) (tgt : W16) (last : Bool) (payload : List W32) (d : Die) : Die :=
  match (d.queue q).credit with
  | none => d.updQueue q Queue.stall
  | some x => ((d.updQueue q fun _ => x).enqueue q x.epoch tgt last payload).2

/-- A producer writes a whole group, or none of it and a stall (R156). -/
def Die.produceGroup (q : Nat) (tgt : W16) (payloads : List (List W32)) (d : Die) : Die :=
  if (d.queue q).room < payloads.length then d.updQueue q Queue.stall
  else
    let n := payloads.length
    (payloads.zipIdx.foldl (fun d p => d.produce q tgt (p.2 + 1 = n) p.1) d)

/-- The committed groups below `cyc`: dropped at a dequeue, one count each (R159). -/
def Queue.dropLate (cyc : W32) (q : Queue) : Queue :=
  let isLate (e : QEntry) : Bool := e.commit && decide (tgtDist e.tgt cyc < 0)
  let groups := (q.ring.filter fun e => isLate e && e.last).length
  { q with ring := q.ring.filter (fun e => !isLate e), cntLate := satAdd groups q.cntLate }

/-- An underrun: counted, and recorded at the second in a row (R159, R160). -/
def Die.underrun (q : Nat) (d : Die) : Die :=
  let x := d.queue q
  let k := x.underruns + 1
  let d := d.updQueue q fun x => { x with cntUnderrun := satInc x.cntUnderrun, underruns := k,
                                          underrunDone := x.underrunDone || 2 ≤ k }
  if 2 ≤ k && !x.underrunDone then d.log .warn (d.uidQueue q) 0x61 else d

/-- Dequeue for cycle `cyc` (R159): the committed group, or none after an underrun. `keep`: the
consumer is a loop engine, whose dequeue port holds the group until it is released (R155). -/
def Die.dequeue (q : Nat) (cyc : W32) (keep : Bool) (d : Die) : Option (List QEntry) × Die :=
  let x := (d.queue q).dropLate cyc
  let g := x.ring.filter fun e => e.commit && e.tgt = tgtOf cyc
  if g.isEmpty then (none, (d.updQueue q fun _ => x).underrun q)
  else
    let x' := { x with ring := x.ring.filter (fun e => !(e.commit && e.tgt = tgtOf cyc)),
                       port := if keep then g else x.port, underruns := 0, underrunDone := false,
                       before := some (x.underruns, x.underrunDone) }
    (some g, d.updQueue q fun _ => x')

/-- An entry just dequeued counts as an underrun of its queue, once a dequeue (R159, R192). -/
def Die.skewUnderrun (q : Nat) (d : Die) : Die :=
  match (d.queue q).before with
  | none => d
  | some (k, done) =>
    (d.updQueue q fun x => { x with underruns := k, underrunDone := done, before := none }).underrun q

/-- The consuming engine releases what it dequeued (R155). -/
def Queue.release (q : Queue) : Queue := { q with port := [] }

/-- A squash of a queue by request (R161). -/
def Die.squashQueue (q : Nat) (d : Die) : Die := d.updQueue q Queue.squash

/-- A fault squash is requested; it acts at the next boundary (R163, R164). -/
def Die.requestFaultSquash (q : Nat) (d : Die) : Die :=
  d.updQueue q fun x => { x with faultSquash := true }

/-! Boundaries -/

/-- Entries squashed and enqueued over the last 256 cycles, the one just ended included (R171). -/
def Queue.excess (q : Queue) : Bool :=
  let enq := q.hist.foldl (fun a h => a + h.1) q.enqNow
  let sq := q.hist.foldl (fun a h => a + h.2) q.squashNow
  decide (enq < 2 * sq)

def Queue.gHi (q : Queue) : Nat := min q.cap.toNat q.depth
def Queue.gLo (q : Queue) : Nat := min (min 8 q.depth) q.cap.toNat

/-- R171, R172: the tuner's step; the Bool says that the cap kept a rise away. -/
def Queue.tune (freeze : Bool) (q : Queue) : Queue × Bool :=
  let next := { q with stalled := false, enqNow := 0, squashNow := 0,
                       hist := ((q.enqNow, q.squashNow) :: q.hist).take 255 }
  if freeze then (next, false)
  else if q.stalled then
    if q.grant = q.cap.toNat ∧ q.cap.toNat < q.depth then (next, true)
    else ({ next with grant := min (q.grant + 1) (max q.gHi q.grant) }, false)
  else if q.excess then
    ({ next with grant := max (q.grant - max 1 (q.grant / 8)) (min q.gLo q.grant) }, false)
  else (next, false)

/-- The cap kept the tuner from a rise (R172, R573). -/
def Die.creditConflict (q : Nat) (d : Die) : Die :=
  let had := (d.queue q).conflict
  let was := d.qrc.creditConflict
  let d := d.updQueue q fun x => { x with conflict := true }
  let d := { d with qrc := { d.qrc with creditConflict := true, lastQ := BitVec.ofNat 10 q } }
  (d.logOnce had .info (d.uidQueue q) 0x62).raise 57 was

/-- Step 1 of R164 for one queue. -/
def Die.boundaryFault (d : Die) (q : Nat) : Die :=
  if (d.queue q).faultSquash then
    (d.updQueue q Queue.faultSquashNow).log .info (d.uidQueue q) 0x63
  else d

/-- Steps 3 and 4 of R164 for one queue at the boundary of cycle `d.time.cyc`. -/
def Die.boundaryCommit (d : Die) (q : Nat) : Die :=
  let t := ((d.queue q).commit d.time.cyc).tune d.qrc.freeze
  let d := d.updQueue q fun _ => { t.1 with rebind := t.1.rebind - 1 }
  if t.2 then d.creditConflict q else d

/-- The declared queues. -/
def Die.usedQueues (d : Die) : List Nat := (List.range 1024).filter fun q => (d.queue q).used

/-- R164 at a boundary; `sq` are the queues of its step 2, and `refill` is what the producers write in the
cycle that starts: a group that it closes inside the commit horizon is committed as it closes (R158). A queue
that meets both squashes takes one (R166). -/
def Die.boundaryQueues (sq : List Nat) (refill : Die → Die) (d : Die) : Die :=
  let qs := d.usedQueues
  let sq := sq.eraseDups.filter fun q => !(d.queue q).faultSquash
  let d := qs.foldl Die.boundaryFault d
  refill (qs.foldl Die.boundaryCommit (sq.foldl (fun d q => d.squashQueue q) d))

/-! Commands of the QRC block -/

/-- QRC_Q_CMD.SQUASH: HS queues only (R178). -/
def Die.cmdSquash (q : Nat) (d : Die) : Die :=
  if (d.queue q).used && (d.queue q).cls = .hs then d.accept.squashQueue q else d.refuse

/-- QRC_Q_CMD.CLR_CNT (R178). -/
def Die.cmdClrCnt (q : Nat) (d : Die) : Die :=
  d.accept.updQueue q fun x => { x with cntStall := 0, cntSquash := 0, cntUnderrun := 0, cntLate := 0 }

/-- A write of QRC_Q_CAP (R172, R173): G never rises; a cap above the depth is refused. -/
def Die.cmdCap (q : Nat) (cap : BitVec 9) (d : Die) : Die :=
  if (d.queue q).depth < cap.toNat then d.refuse
  else d.accept.updQueue q fun x => { x with cap := cap, grant := min x.grant cap.toNat }

/-- A queue as the image declares it: empty, EPOCH 0, CAP the depth, G = min(CAP, depth), HC held at
1 for SP (R127, R150, R171, R173). -/
def QueueDecl.queue (x : QueueDecl) : Queue :=
  { used := true, cls := x.cls, prod := x.prod, cons := x.cons, depth := x.depth, words := x.words,
    lookout := x.lookout, hc := if x.cls = .sp then 1 else x.hc, feeds := x.feeds,
    base := x.base, cap := BitVec.ofNat 9 x.depth, grant := x.depth }

/-- R170: a new duty die starts every queue empty, EPOCH 0, G = cap. -/
def Queue.restart (q : Queue) : Queue :=
  { q with epoch := 0, grant := min q.cap.toNat q.depth, ring := [], port := [], taken := 0,
           nextSlot := 0, before := none, stalled := false, enqNow := 0, squashNow := 0,
           hist := [], underruns := 0, underrunDone := false, faultSquash := false, rebind := 0, lastGroup := [],
           lastCyc := none, closedCyc := none, tried := none }

end Sys2Proof.Machine
end

