-- ==== Sys2Proof/Machine/Time.lean ====
section
/-! DEFINITION. Cell time, its corrections, the cycle generator, triggers, captures and time ports
(chapter 14). -/

namespace Sys2Proof.Machine

/-- UID of the time counter, the triggers and the captures (R458). -/
def Die.uidTime (d : Die) : W16 := d.uid 15 7

/-- TIME_NS and its fraction as one number of 2^-32 ns. -/
def TimeUnit.value (t : TimeUnit) : Nat := t.ns.toNat * 2 ^ 32 + t.frac.toNat

/-- The bound of R435 on rate plus amortisation: ±500 ppm in 2^-32 ns per tick. -/
def rateMax : Int := 8589934

/-- TIME_RATE plus the amortisation term, before the clamp (R435, R437). -/
def TimeUnit.wanted (t : TimeUnit) : Int :=
  t.rate.toInt + Int.sign t.remaining * (t.slewPpm.toNat * 17180 : Nat)

/-- What one tick amortises (R435, R437): the clamped sum less the rate. -/
def TimeUnit.amortTick (t : TimeUnit) : Int := clampI (-rateMax) rateMax t.wanted - t.rate.toInt

/-- How much of the remainder `n` ticks absorb; the last tick adds only what remains (R437). -/
def TimeUnit.amortised (t : TimeUnit) (n : Nat) : Int :=
  let a := t.amortTick
  if t.remaining.natAbs ≤ a.natAbs * n then t.remaining else a * n

/-- One tick without amortisation in 2^-32 ns (R434). -/
def TimeUnit.baseTick (t : TimeUnit) : Int := 4 * 2 ^ 32 + t.rate.toInt

/-- `n` CLK_PER ticks (R434, R437, R440). -/
def TimeUnit.ticks (n : Nat) (t : TimeUnit) : TimeUnit :=
  let am := t.amortised n
  let v := (t.value : Int) + t.baseTick * n + am
  let q := Int.toNat v
  { t with ns := BitVec.ofNat 32 (q / 2 ^ 32), frac := BitVec.ofNat 32 q,
           remaining := t.remaining - am,
           wrap8 := t.wrap8 + BitVec.ofNat 8 (q / 2 ^ 64), per := t.per + n }

/-- Smallest number of ticks whose sum is at least `x`, for a positive tick. -/
def ceilTicks (x per : Int) : Nat := if x ≤ 0 ∨ per ≤ 0 then 0 else Int.toNat ((x + per - 1) / per)

/-- Ticks until TIME_NS has advanced by at least `need` ns. -/
def TimeUnit.ticksFor (need : Int) (t : TimeUnit) : Nat :=
  let x := need * 2 ^ 32 - t.frac.toNat
  let a := t.amortTick
  if t.remaining = 0 ∨ a = 0 then ceilTicks x t.baseTick
  else
    let nAm := ceilTicks t.remaining.natAbs a.natAbs
    let n := ceilTicks x (t.baseTick + a)
    if n < nAm then n else max nAm (ceilTicks (x - t.remaining) t.baseTick)

/-- Ticks until TIME_NS reaches `target` as R446 and R448 test it: a signed difference of 0 or
more; none if it has been reached. -/
def TimeUnit.ticksTo (target : W32) (t : TimeUnit) : Nat := t.ticksFor (diff32 target t.ns)

/-- The epoch of R441 that the device uses now: seconds and nanoseconds, or none when stale. -/
def TimeUnit.epochUsed (t : TimeUnit) : Option (Nat × Nat) :=
  match t.epoch with
  | none => none
  | some e =>
    if e.tag = t.wrap8 then some (e.sec, e.ns)
    else if e.tag + 1 = t.wrap8 && t.ns.toNat < 1000000000 then
      let n := e.ns + 294967296
      some (e.sec + 4 + n / 1000000000, n % 1000000000)
    else none

/-- Domain time in ns of TIME_NS now, by the epoch used (R441). -/
def TimeUnit.domainNs (t : TimeUnit) : Option Nat :=
  t.epochUsed.map fun e => e.1 * 1000000000 + e.2 + t.ns.toNat

/-- EPOCH_STALE follows the epoch; entry counts, is recorded and raises vector 4 (R441, R573). -/
def Die.judgeEpoch (d : Die) : Die :=
  let stale := d.time.epochUsed.isNone
  let was := d.time.epochStale
  let d := { d with time := { d.time with epochStale := stale } }
  if stale && !was then
    (({ d with time := { d.time with cnt := vupd d.time.cnt 4 satInc } }).log .warn d.uidTime 0xD3
      ).msix 4
  else d

/-- `n` ticks of a die whose CLK_PER runs; a stopped one does not count (R434). -/
def Die.elapse (n : Nat) (d : Die) : Die :=
  if d.clkPer then ({ d with time := d.time.ticks n }).judgeEpoch else d

/-- RATE_CLAMP is set and counted, and recorded once until it is cleared (R435, R573). -/
def Die.rateClamped (d : Die) : Die :=
  let was := d.time.rateClamp
  let d := { d with time := { d.time with rateClamp := true, cnt := vupd d.time.cnt 3 satInc } }
  (d.logOnce was .info d.uidTime 0xD2).raise 4 was

/-- The clamp of R435 is judged on the sum in force. -/
def Die.judgeRate (d : Die) : Die :=
  if clampI (-rateMax) rateMax d.time.wanted = d.time.wanted then d else d.rateClamped

/-- A write of TIME_RATE (R435). -/
def Die.writeRate (v : W32) (d : Die) : Die :=
  let c := clampI (-rateMax) rateMax v.toInt
  let d := { d with time := { d.time with rate := BitVec.ofInt 32 c } }
  if c = v.toInt then d.judgeRate else d.rateClamped

/-! Triggers -/

def Die.trigger (k : Fin 8) (d : Die) : Trigger := vget d.trig k

def Die.updTrig (k : Fin 8) (f : Trigger → Trigger) (d : Die) : Die :=
  { d with trig := vupd d.trig k f }

/-- A late firing: how far the compare of a PERIODIC trigger moves on to lie in the future, in
periods (R449). -/
def skipPeriods (late period : Nat) : Nat := if period = 0 then 0 else late / period + 1

/-- The output becomes active at tick `per`; SINGLE disarms, PERIODIC takes its next compare (R448). -/
def Trigger.fire (per : Nat) (t : Trigger) : Trigger :=
  let t := { t with active := true, onAt := per }
  if t.mode = 1 then { t with armed := false }
  else if t.mode = 2 then { t with cmp := t.cmp + t.period }
  else t

/-- A compare found in the past half-window fires at once with LATE (R449). -/
def Trigger.fireLate (now : W32) (per : Nat) (t : Trigger) : Trigger :=
  let t := { t with active := true, onAt := per, late := true, cntLate := satInc t.cntLate }
  if t.mode = 1 then { t with armed := false }
  else
    let k := skipPeriods (diff32 now t.cmp).toNat t.period.toNat
    { t with cmp := t.cmp + BitVec.ofNat 32 (k * t.period.toNat), cntSkip := satAdd (k - 1) t.cntSkip }

/-- An armed SINGLE or PERIODIC trigger whose compare lies in the past half-window (R449). -/
def Die.judgeLate (k : Fin 8) (d : Die) : Die :=
  let t := d.trigger k
  if t.armed && (t.mode = 1 || t.mode = 2) && 0 ≤ diff32 d.time.ns t.cmp then
    ((d.updTrig k (Trigger.fireLate d.time.ns d.time.per)).logOnce t.late .info d.uidTime 0xD5).raise 5 t.late
  else d

/-- The level that a die puts on `TRIGk`: by POL, inactive in mode OFF; none where the gate is closed or the ball
unused (R25, R448, R455, R627). -/
def Die.trigPin (d : Die) (k : Fin 8) : Option Bool :=
  let t := d.trigger k
  if d.red.gateOpen && d.ballUsed (.trig k) then some ((t.active && t.mode ≠ 0) != t.pol) else none

/-- After a step every armed compare is evaluated against the new TIME_NS (R438, R449, R451). -/
def Die.judgeAllLate (d : Die) : Die :=
  (List.finRange 8).foldl (fun d k => d.judgeLate k) d

/-- A TRIG_PERIOD that PERIODIC mode does not take (R448). -/
def Trigger.badPeriod (period : W32) (t : Trigger) : Bool := period.toNat < 100 || period.toNat < 8 * t.pw.toNat

/-- TRIGGER_FIRE (R448). -/
def Die.triggerFire (k : Fin 8) (d : Die) : Die :=
  d.updTrig k fun t => { t.fire d.time.per with onCyc := some d.time.cyc }

/-- The compare of a trigger is reached and its firing has yet to come (R448). -/
def Die.trigReached (k : Fin 8) (d : Die) : Bool :=
  let t := d.trigger k
  ((t.mode = 1 || t.mode = 2) && t.armed && 0 ≤ diff32 d.time.ns t.cmp) ||
    (t.mode = 3 && d.time.cycRun && t.onCyc ≠ some d.time.cyc && d.time.cyc.toNat % max 1 t.cdiv.toNat = 0 &&
      0 ≤ diff32 d.time.ns (d.time.start + t.cmp))

/-- A write of TRIG_CMP (R448, R449); T_c bounds CYCLE mode. A firing of this tick completes first (R451). -/
def Die.writeTrigCmp (k : Fin 8) (v : W32) (d : Die) : Die :=
  let d := if d.trigReached k then d.triggerFire k else d
  let t := d.trigger k
  if t.mode = 2 && t.badPeriod t.period then d.refuse
  else if t.mode = 3 && d.img.cell.tc ≤ v.toNat then d.refuse
  else
    let arms := t.mode = 1 || t.mode = 2
    (d.accept.updTrig k fun t => { t with cmp := v, armed := arms }).judgeLate k

/-! Corrections -/

/-- A step by `o` ns (R436, R438): value, wraps, next nominal start; the remainder goes to 0. -/
def TimeUnit.step (o : W32) (t : TimeUnit) : TimeUnit :=
  let ns := t.ns + o
  let w := if 0 < o.toInt ∧ ns.toNat < t.ns.toNat then t.wrap8 + 1
    else if o.toInt < 0 ∧ t.ns.toNat < ns.toNat then t.wrap8 - 1 else t.wrap8
  { t with ns := ns, wrap8 := w, nominal := t.nominal + o, start := t.start + o, remaining := 0,
           token := false, locked := true, qual := t.corrQual, cnt := vupd t.cnt 2 satInc }

/-- A write of TIME_CORR with offset `o`, by the first row of R436 that matches. -/
def Die.writeCorr (o : W32) (d : Die) : Die :=
  let t := d.time
  if t.token then
    (({ d with time := t.step o }).log .info d.uidTime 0xD1).judgeEpoch.judgeAllLate
  else if t.jumpTh ≠ 0 && o.toInt.natAbs ≤ t.jumpTh.toNat then
    let t' := { t with remaining := o.toInt * 2 ^ 32, qual := t.corrQual,
                       cnt := vupd t.cnt 0 satInc }
    ({ d with time := t' }).judgeRate
  else
    let was := t.jumpRefused
    let t' := { t with jumpRefused := true, cnt := vupd t.cnt 1 satInc }
    (({ d with time := t' }).logOnce was .warn d.uidTime 0xD0).raise 4 was

/-- GRANT_STEP (R439). -/
def Die.grantStep (d : Die) : Die := { d with time := { d.time with token := true } }

/-- CLR_CNT (R453). -/
def Die.clrTimeCnt (d : Die) : Die :=
  { d with time := { d.time with cnt := Vector.replicate 6 0 } }

/-- A read of TIME_NS latches WRAP8 (R440). -/
def Die.readTimeNs (d : Die) : Die :=
  { d with time := { d.time with wrapLatch := d.time.wrap8 } }

/-- A write of TIME_EPOCH_TAG commits the three words (R441). -/
def Die.writeEpochTag (tag : Byte) (d : Die) : Die :=
  if tag = d.time.wrap8 || tag + 1 = d.time.wrap8 then
    let e : Epoch := { sec := d.time.epochSecLo.toNat + d.time.epochSecHi.toNat * 2 ^ 32,
                       ns := d.time.epochNs.toNat, tag := tag }
    ({ d.accept with time := { d.time with epoch := some e } }).judgeEpoch
  else d.refuse

/-! Captures -/

/-- A pin `CAPTk` takes a level; an unused ball is ignored (R450, R627). -/
def Die.captSee (k : Fin 8) (level : Bool) (d : Die) : Die :=
  let was := bit d.captPins k
  let m := BitVec.ofNat 8 (2 ^ k.val)
  let d := { d with captPins := if level then d.captPins ||| m else d.captPins &&& ~~~m }
  if was = level || !d.awake domKeep || !d.ballUsed (.capt k) then d
  else { d with capt := vupd d.capt k fun c =>
    { c with pend := feedInput c.filt.toNat d.time.per d.time.ns 0 level c.pend } }

/-- A filtered edge at a capture input: its TIME_NS at the pin is stored (R450, R573). -/
def Die.captureEdge (k : Fin 8) (ns : W32) (rising : Bool) (d : Die) : Die :=
  let c := vget d.capt k
  if !d.awake domKeep || !(bit c.edge (if rising then 0 else 1)) then d
  else if c.fifo.length < 4 then
    let d' := { d with capt := vset d.capt k { c with fifo := c.fifo ++ [(ns, rising)] } }
    d'.raise 5 (!c.fifo.isEmpty)
  else
    let d' := { d with capt := vset d.capt k { c with ovf := true } }
    (d'.logOnce c.ovf .warn d.uidTime 0xD6).raise 5 c.ovf

/-- The filtered edges of a capture that are due at this tick. -/
def Die.captFiltered (k : Fin 8) (d : Die) : Die :=
  let isDue (e : InEdge) : Bool := decide (e.due ≤ d.time.per)
  let es := (vget d.capt k).pend.filter isDue
  if es.isEmpty then d
  else
    let d := { d with capt := vupd d.capt k fun c => { c with pend := c.pend.filter fun e => !isDue e } }
    es.foldl (fun d e => d.captureEdge k e.ns e.level) d

/-- A write of CAPT_POP (R456). -/
def Die.captPop (k : Fin 8) (d : Die) : Die :=
  { d with capt := vupd d.capt k fun c => { c with fifo := c.fifo.drop 1 } }

/-! The cycle generator -/

/-- The phase error e of a nominal start against the domain grid, in (-T_c/2, T_c/2] (R446). -/
def TimeUnit.phase (tc : Nat) (t : TimeUnit) : Int :=
  match t.domainNs with
  | none => 0
  | some now =>
    let dom := (now : Int) - diff32 t.ns t.nominal - t.cycAlign.toNat
    let r := dom % tc
    if 2 * r ≤ tc then r else r - tc

/-- A cell cycle starts at the tick reached (R446): CYC, start time, phase error and next nominal
start. -/
def TimeUnit.startCycle (tc : Nat) (t : TimeUnit) : TimeUnit :=
  let e := t.phase tc
  let s : Int := t.cycSlew.toNat
  { t with cyc := if t.cycFirst then 0 else t.cyc + 1, cycFirst := false, start := t.ns,
           cycPhase := BitVec.ofInt 32 e,
           nominal := t.nominal + BitVec.ofInt 32 ((tc : Int) - clampI (-s) s e) }

/-- The first nominal start after an image load: the first multiple of T_c above TIME_NS (R446). -/
def TimeUnit.beginCycles (tc : Nat) (t : TimeUnit) : TimeUnit :=
  { t with cycRun := true, cycFirst := true, cyc := 0,
           nominal := BitVec.ofNat 32 ((t.ns.toNat / tc + 1) * tc) }

/-- The standby counter against that of the duty die (R447): a difference above 16 ns steps it. -/
def Die.followTime (duty : TimeUnit) (d : Die) : Die :=
  let diff := diff32 duty.ns d.time.ns
  let d := { d with time := { d.time with dieSkewNs := BitVec.ofInt 32 diff } }
  if 16 < diff.natAbs then
    let was := d.time.dieSkew
    let t := { d.time with ns := duty.ns, frac := duty.frac, wrap8 := duty.wrap8, remaining := 0, dieSkew := true,
                           cnt := vupd d.time.cnt 5 satInc }
    ((({ d with time := t }).log .warn d.uidTime 0xD4).raise 4 was).judgeEpoch.judgeAllLate
  else d

/-! Time ports -/

def Die.port (p : Fin 2) (d : Die) : EthPort := vget d.eth p

def Die.updPort (p : Fin 2) (f : EthPort → EthPort) (d : Die) : Die :=
  { d with eth := vupd d.eth p f }

/-- The port is in service: its domain is ON and the image gives it a mode (R14, R457). -/
def Die.portOn (p : Fin 2) (d : Die) : Bool :=
  d.awake (30 + p.val) && d.img.pins.eths.contains p.val && (d.port p).mode ≠ 0

/-- One more on counter `i` of a port (R457). -/
def Die.countPort (p : Fin 2) (i : Fin 5) (d : Die) : Die :=
  d.updPort p fun e => { e with cnt := vupd e.cnt i satInc }

/-- A stamp FIFO of 16 is full: TS_OVF (R442). -/
def Die.stampOvf (p : Fin 2) (d : Die) : Die :=
  let was := (d.port p).tsOvf
  ((d.updPort p fun e => { e with tsOvf := true }).logOnce was .warn (d.uid 8 p) 0xD7).raise (6 + p) was

/-- A stamp `ns` from TIME_NS with its latency applied, and WRAP8 of that time (R442). -/
def TimeUnit.stampAt (lat : Int) (t : TimeUnit) : W32 × Byte :=
  let v := (t.ns.toNat : Int) + lat
  (BitVec.ofInt 32 v,
    if v < 0 then t.wrap8 - 1 else if 2 ^ 32 ≤ v then t.wrap8 + 1 else t.wrap8)

/-- A received PTP message of the profile: its domain is the image's and it is no Pdelay (R432). -/
def ptpTaken (domain : Nat) (m : List Byte) : Bool :=
  let ty := fieldAt m 0 1 % 16
  fieldAt m 4 1 = domain && ty ≠ 2 && ty ≠ 3 && ty ≠ 0xA

/-- An event message is Sync or Delay_Req (R442). -/
def ptpEvent (m : List Byte) : Bool := fieldAt m 0 1 % 16 < 2

/-- sequenceId, a big-endian field at 30. -/
def ptpSeq (m : List Byte) : W16 := BitVec.ofNat 16 (fieldAt m 30 1 * 256 + fieldAt m 31 1)

/-- The keeper of the duty die chooses at most one port as the time source (R433); which one, its algorithm says
(log entry 29). -/
def Die.chooseSource (d : Die) : Die :=
  if d.red.grant then
    let v := (d.freeVal 2).toNat
    { d.useFree with eth := vmap d.eth fun p x => { x with roleSrc := decide (v = p + 1) } }
  else d

/-- PTP_EVENT_RX: stamped with RX_LAT subtracted, or an interrupt in host-assisted mode
(R442, R445). -/
def Die.ptpRx (p : Fin 2) (m : List Byte) (d : Die) : Die :=
  let e := d.port p
  let taken := d.portOn p && ptpTaken d.img.pins.ptpDomain m
  let d := if taken then d.chooseSource else d
  if !taken || !ptpEvent m then d
  else if e.host then d.msix (6 + p)
  else if 16 ≤ e.rxFifo.length then d.stampOvf p
  else
    let st := d.time.stampAt (-(e.rxLat.toNat : Int))
    let x : Stamp := { ns := st.1, wrap8 := st.2, messageType := BitVec.ofNat 4 (fieldAt m 0 1),
                       oneStep := false, sequenceId := ptpSeq m }
    d.updPort p fun e => { e with rxFifo := e.rxFifo ++ [x] }

/-- Sum of the big-endian 16-bit words of a byte list, the last one padded with 0. -/
def sum16 : List Byte → Nat
  | [] => 0
  | [a] => a.toNat * 256
  | a :: b :: r => a.toNat * 256 + b.toNat + sum16 r

/-- Ones' complement folding to 16 bits. -/
def fold16 (x : Nat) : Nat := if x = 0 then 0 else (x - 1) % 65535 + 1

/-- Over UDP with a checksum, the 2 trailing bytes absorb what changed in the message, so that the
UDP checksum stays correct (R443). -/
def repairTrailer (udp : Bool) (udpSum : Nat) (old new : List Byte) : List Byte :=
  if udp && udpSum ≠ 0 then
    let n := new.length - 2
    let t := fold16 (sum16 old + 65535 - fold16 (sum16 (new.take n)))
    new.take n ++ beBytes 2 t
  else new

/-- PTP_EVENT_TX: one-step insertion, two-step fallback, the transmit stamp (R442-R445). -/
def Die.ptpTx (p : Fin 2) (frame : List Byte) (ofs : Nat) (udp : Bool) (d : Die) : Die :=
  let e := d.port p
  if !d.portOn p then d
  else
    let m := frame.drop ofs
    let st := d.time.stampAt e.txLat.toNat
    let sync := fieldAt m 0 1 % 16 = 0
    let wantsOne := sync && !(bit (BitVec.ofNat 8 (fieldAt m 6 1)) 1)
    let one := wantsOne && !e.host && !d.time.epochUsed.isNone
    let m1 :=
      if one then
        let ns := (d.time.domainNs.getD 0) + e.txLat.toNat
        overlay m 34 (beBytes 6 (ns / 1000000000) ++ beBytes 4 (ns % 1000000000))
      else if wantsOne then
        overlay m 6 [BitVec.ofNat 8 (fieldAt m 6 1) ||| 2]
      else m
    let udpSum := if udp then fieldAt (frame.drop (ofs - 2)) 0 2 else 0
    let out := frame.take ofs ++ repairTrailer (udp && wantsOne) udpSum m m1
    let d := (d.emit (.eth p out)).countPort p 3
    let d := if wantsOne && !one then d.countPort p 4 else d
    if !ptpEvent m then d
    else if e.host then d.msix (6 + p)
    else if 16 ≤ e.txFifo.length then d.stampOvf p
    else
      let x : Stamp := { ns := st.1, wrap8 := st.2, messageType := BitVec.ofNat 4 (fieldAt m 0 1),
                         oneStep := one, sequenceId := ptpSeq m }
      d.updPort p fun e => { e with txFifo := e.txFifo ++ [x] }

/-- A write of ETH_TS_POP (R442, R457). -/
def Die.tsPop (p : Fin 2) (rx tx : Bool) (d : Die) : Die :=
  d.updPort p fun e => { e with rxFifo := if rx then e.rxFifo.drop 1 else e.rxFifo,
                                txFifo := if tx then e.txFifo.drop 1 else e.txFifo }

/-- The link of a port goes or returns (R429, R573). -/
def Die.linkChange (p : Fin 2) (up : Bool) (d : Die) : Die :=
  if !d.portOn p || (d.port p).link = up then d
  else
    let d := d.updPort p fun e => { e with link := up, roleSrc := e.roleSrc && up }
    ((if up then d.log .info (d.uid 8 p) 0xD9 else d.log .warn (d.uid 8 p) 0xD8)).msix (6 + p)

/-- R30: a node announce with the own node ID from a foreign MAC address. -/
def Die.announceRx (src payload : List Byte) (d : Die) : Die :=
  if fieldAt payload 0 1 = 0x81 && !d.img.isEmpty &&
      fieldAt payload 2 2 % 4096 = d.host.nodeId.toNat && !(d.img.pins.macs.contains src) then
    let was := d.host.nodeDup
    (({ d with host := { d.host with nodeDup := true } }).logOnce was .warn uidPackage 0x3E).raise 0 was
  else d

/-- The node announce frame of R431. -/
def Die.announce (p : Fin 2) (d : Die) : List Byte :=
  List.replicate 6 0xFF ++ sliceBytes ((d.img.pins.macs[2 * d.id.num + p.val]?).getD []) 0 6
    ++ [0x88, 0xB5] ++ [0x81] ++ leBytes 1 d.id.num ++ leBytes 2 d.host.nodeId.toNat
    ++ leBytes 4 d.time.cyc.toNat ++ sliceBytes d.img.id 0 8

/-- Each used time port of the duty die sends the announce in cycles with CYC mod 32,768 = 0
(R431). -/
def Die.sendAnnounces (d : Die) : Die :=
  if d.red.grant && d.time.cyc.toNat % 32768 = 0 then
    (List.finRange 2).foldl (fun d p =>
      if d.portOn p then (d.emit (.eth p (d.announce p))).countPort p 3 else d) d
  else d

end Sys2Proof.Machine
end

