-- ==== Sys2Proof/Machine/Enc.lean ====
section
/-! DEFINITION. Feedback ports (chapter 08). -/

namespace Sys2Proof.Machine

def Die.enc (d : Die) (k : Nat) : Enc := (d.encs[k]?).getD {}

def Die.updEnc (k : Nat) (f : Enc → Enc) (d : Die) : Die :=
  { d with encs := d.encs.setIfInBounds k (f (d.enc k)) }

def Die.uidEnc (d : Die) (k : Nat) : W16 := d.uid 10 k

/-- The level of an input of a port: an unused ball reads inactive, low (R253, R627). -/
def Die.encRaw (d : Die) (k : Nat) (ch : Fin 3) : Bool :=
  bit ((d.encPins[k]?).getD 0) ch && d.ballUsed (.encIn k ch)

def Enc.bump (i : Fin 6) (x : Enc) : Enc := { x with cnt := vupd x.cnt i satInc }

def Enc.isInc (x : Enc) : Bool := x.cfg.mode = 1

/-! Faults (R284, R285) -/

/-- The speed history starts anew (R276). The direction of the last edge stays: a reversal against it still counts
(R261). -/
def Enc.forgetEdges (x : Enc) : Enc :=
  { x with edges := 0, edgesNow := 0, revNow := false, window := none, method := false, revFirst := false }

/-- Neither the revolution in progress nor the one that starts at the next index event is compared (R263). The
count at the last index event stays: R262 forms D at every second event (log entry 118). -/
def Enc.forgetIndex (x : Enc) : Enc := { x with idxFresh := true }

/-- An event that causes a fault: a port in RUN (or SYNC, where `sync`) enters FAULT (R284). -/
def Die.encFault (k : Nat) (cause : BitVec 2) (sync : Bool) (d : Die) : Die :=
  let x := d.enc k
  let d := d.updEnc k fun x => { x with faultCyc := some d.time.cyc }
  if x.state = .run || (sync && x.state = .sync) then
    (d.updEnc k fun x =>
      { (x.forgetEdges.forgetIndex) with state := .fault, cause := cause, prev := none, bad := 0 }
      ).log .warn (d.uidEnc k) 0x92
  else d

/-- CLR_FAULT takes effect, unless an event of this cycle causes a fault (R284, R285). -/
def Enc.clearFault (cyc : W32) (now : W32) (x : Enc) : Enc :=
  if x.state = .fault && x.faultCyc ≠ some cyc then
    if x.isInc then { (x.forgetEdges) with state := .run, cause := 0, speed := 0, still := true }
    else { x with state := .sync, cause := 0, prev := none, bad := 0, goodNs := now, emuOn := false }
  else x

/-! Incremental mode (R258-R264) -/

/-- The next level pair of R258 with A leading B. -/
def quadUp : Bool × Bool → Bool × Bool
  | (false, false) => (true, false)
  | (true, false) => (true, true)
  | (true, true) => (false, true)
  | (false, true) => (false, false)

/-- A count edge in a direction at time `now`, tick `at'` (R258, R261, R276). -/
def Enc.countEdge (now : W32) (at' : Nat) (neg : Bool) (x : Enc) : Enc :=
  let rev := x.hasDir && (x.dir != neg)
  let dt := now - x.edgeNs
  let long := x.edges = 0 || decide (x.act.tStop.toNat * 1000 ≤ dt.toNat)
  let y := if rev then x.bump 5 else x
  { y with count := if neg then x.count - 1 else x.count + 1, dir := neg, hasDir := true,
           edges := if long then 1 else x.edges + 1, interval := dt, edgeNs := now, edgeAt := at', revFirst := rev,
           edgesNow := x.edgesNow + 1, revNow := x.revNow || rev,
           revRev := x.revRev || (rev && x.revPend.isSome), revPend := if rev then some now else x.revPend }

/-- ENC_COUNT_EDGE (R258, R259): the filtered levels become `a` and `b`. -/
def Die.encEdge (k : Nat) (a b : Bool) (d : Die) : Die :=
  let x := d.enc k
  if x.state = .off || !x.isInc || (a = x.a && b = x.b) then d
  else
    let put (y : Enc) : Enc := { y with a := a, b := b }
    if a ≠ x.a && b ≠ x.b then
      (d.updEnc k fun x => { (put (x.bump 1)) with quadErr := true, quadSince := true }
        ).logOnce x.quadErr .warn (d.uidEnc k) 0x90
    else d.updEnc k fun x => put (x.countEdge d.time.ns d.time.per (quadUp (x.a, x.b) ≠ (a, b)))

/-- The index check of R262 and R263 for a revolution that ends with D. -/
def Die.indexCheck (k : Nat) (dd : W32) (d : Die) : Die :=
  let x := d.enc k
  let err := ((dd.toInt.natAbs : Int) - 4 * x.act.lines.toNat).natAbs
  if x.act.tol.toNat < err then
    let d := (d.updEnc k fun x => { (x.bump 3) with mismatch := true }
      ).logOnce x.mismatch .warn (d.uidEnc k) 0x91
    if x.cfg.idxFault then d.encFault k 3 false else d
  else d

/-- A write of ENC_CNT_SET acts in this sample: it waits, and the strobe of this cycle is due (R285). -/
def Die.encSetting (d : Die) (k : Nat) : Bool :=
  let x := d.enc k
  x.setTo.isSome && d.time.cycRun && x.entryCyc ≠ some d.time.cyc &&
    decide (0 ≤ diff32 d.time.ns (d.time.start + BitVec.ofNat 32 (x.cfg.sampleOfs.toNat * 16)))

/-- ENC_INDEX (R260, R262, R263, R285): a rising filtered edge of I. -/
def Die.encIndex (k : Nat) (d : Die) : Die :=
  let x := d.enc k
  if x.state = .off || !x.isInc || (x.cfg.idxGate && !(x.a && x.b)) then d
  else
    let now := d.time.ns
    let set := d.encSetting k
    let count := if set then x.setTo.getD 0 else x.count
    let has := x.revRev || (match x.revPend with | some t => t ≠ now | none => false)
    let put := d.updEnc k fun x =>
      { x with idxPos := count, idxSeen := true, idxSince := true, idxLast := some count,
               idxFirst := x.idxLast.isNone || x.idxFresh || set, idxFresh := false, revRev := false,
               revPend := x.revPend.filter (fun t => t = now), idxNs := some now }
    match x.idxLast with
    | none => put
    | some last =>
      let d := put.updEnc k fun x => { x with idxDiff := count - last }
      if x.act.lines = 0 || has || x.idxFirst || x.idxFresh || set then d else d.indexCheck k (count - last)

/-! Input filter (R257) -/

/-- A pin of a port takes a level: the same for both dies (R255). Only an INC port counts edges; the frames of a
serial port come as sampled words (log entry 46). -/
def Die.encSee (k : Nat) (ch : Fin 3) (level : Bool) (d : Die) : Die :=
  let was := d.encRaw k ch
  let pins := (d.encPins[k]?).getD 0
  let d := { d with encPins := d.encPins.setIfInBounds k (putBit3 ch level pins) }
  let x := d.enc k
  if x.state = .off || !x.isInc || d.encRaw k ch = was then d
  else d.updEnc k fun x => { x with pend := feedInput x.cfg.filt.toNat d.time.per d.time.ns ch level x.pend }

/-- The level of a channel after the changes that are due. -/
def levelAfter (es : List InEdge) (ch : Fin 3) (was : Bool) : Bool :=
  match (es.filter (·.ch = ch)).getLast? with | some e => e.level | none => was

/-- The filtered levels of a port follow what is due at this tick: the count edge before the index event (R257,
R260). -/
def Die.encFiltered (k : Nat) (d : Die) : Die :=
  let x := d.enc k
  let es := x.pend.filter fun e => decide (e.due ≤ d.time.per)
  if es.isEmpty then d
  else
    let up := levelAfter es 2 x.i
    let d := d.updEnc k fun x =>
      { x with pend := x.pend.filter (fun e => !decide (e.due ≤ d.time.per)), i := up }
    let d := d.encEdge k (levelAfter es 0 x.a) (levelAfter es 1 x.b)
    if up && !x.i then d.encIndex k else d

/-- Every input change under way on a die. -/
def Die.pending (d : Die) : List InEdge := d.encs.toList.flatMap (·.pend) ++ d.capt.toList.flatMap (·.pend)

/-- The earliest tick at which a filtered level changes. -/
def Die.nextFiltered (d : Die) : Option Nat := (d.pending.map (·.due)).min?

/-- The filtered levels of every input follow what is due at this tick. -/
def Die.filtersDue (d : Die) : Die :=
  (List.finRange 8).foldl (fun d k => d.captFiltered k) ((List.range 16).foldl (fun d k => d.encFiltered k) d)

/-- The clock runs on by `n` ticks, and every filtered change of that time comes at its own tick (R257). `fuel`
is the number of changes under way. -/
def Die.runFilters : Nat → Nat → Die → Die
  | 0, n, d => d.elapse n
  | fuel + 1, n, d =>
    match d.nextFiltered with
    | none => d.elapse n
    | some t =>
      let m := t - d.time.per
      if m ≤ n then
        ((d.elapse m).filtersDue).runFilters fuel (n - m)
      else d.elapse n

/-- The die's own clock `n` ticks on; LIVE has been quiet for them unless it toggles (R473, R475). -/
def Die.aged (n : Nat) (d : Die) : Die :=
  { d with real := d.real + n, red := { d.red with quiet := if d.red.live then 0 else d.red.quiet + n } }

/-- `n` ticks of a die. -/
def Die.pass (n : Nat) (d : Die) : Die := (d.runFilters d.pending.length n).aged n

/-! The sample (R273-R279) -/

/-- The RX queue a port feeds (R274). -/
def Die.encQueue (d : Die) (k : Nat) : Option Nat :=
  d.findQueue fun q => q.cls = .rx && decide (bits q.prod 13 0 = bits (d.uidEnc k) 13 0)

/-- Word 3 of R274. -/
def Enc.word3 (x : Enc) (stat : Nat) : W32 :=
  BitVec.ofNat 32 (x.posHi.toNat + flag x.still 8 + flag x.quadSince 9 + flag x.idxSince 10 + flag x.method 11
    + stat * 2 ^ 12)

/-- An entry of the port is written now: the port runs, and on the duty die its queue has a credit; a standby
follows the entries of the duty die (R156, R255, R275, log entry 118). -/
def Die.encWrites (d : Die) (k : Nat) : Bool :=
  (d.enc k).state = .run && (!d.red.grant ||
    match d.encQueue k with
    | some q => (d.queue q).credit.isSome
    | none => false)

/-- The entry for the cycle in progress, written by the duty die for a port in RUN (R255, R274, R275). Bits 9 and
10 tell what came since the previous entry: a strobe that writes none keeps them. -/
def Die.encEntry (k stat : Nat) (d : Die) : Die :=
  let x := d.enc k
  let e := [x.pos, x.speed, x.time, x.word3 stat]
  let written := d.encWrites k
  let d := if d.red.grant && x.state = .run then
      match d.encQueue k with
      | some q => d.produce q (tgtOf d.time.cyc) true e
      | none => d
    else d
  d.updEnc k fun x => { (x.bump 0) with quadSince := x.quadSince && !written, idxSince := x.idxSince && !written,
                                        entryCyc := some d.time.cyc }

/-- A speed in Q25.6 rounded toward 0 (R276). A speed without a value (no time has passed) or beyond
the format is a free value (log entry 2). -/
def Die.encSpeed (d : Die) (num : Int) (dt : Int) : W32 × Die :=
  if dt ≤ 0 then (d.freeVal 32, d.useFree)
  else
    let v := Int.tdiv (num * 64 * 1000000000) dt
    if clampS 32 v = v then (BitVec.ofInt 32 v, d) else (d.freeVal 32, d.useFree)

/-- The count method at a strobe (R277). -/
def Enc.nextMethod (x : Enc) : Bool :=
  let n := x.act.switchN.toNat
  if x.revNow then false else if n ≤ x.edgesNow then true else x.method && decide (n ≤ 2 * x.edgesNow)

/-- The limit of R278 on a magnitude in Q25.6, by the time since the latest edge. -/
def decay (since : Int) (v : Int) : Int :=
  if since ≤ 0 then v
  else
    let lim := Int.tdiv (64 * 1000000000) since
    if lim < v.natAbs then (if v < 0 then -lim else lim) else v

/-- The whole time of which `r` are the low 32 bits in ns and which lasted `ticks` ticks of 4 ns: TIME_NS may have
wrapped in it. -/
def spanNs (r : W32) (ticks : Nat) : Nat := r.toNat + (4 * ticks + 2 ^ 31 - r.toNat) / 2 ^ 32 * 2 ^ 32

/-- Speed and STILL of a sample at time `now` (R276-R278). The count method with no edge before the previous
strobe has no window: the value is free (log entry 2). -/
def Die.incSpeed (k : Nat) (now : W32) (d : Die) : (W32 × Bool) × Die :=
  let x := d.enc k
  let since := diff32 now x.edgeNs
  let one : Int := if x.dir then -1 else 1
  if x.edges = 0 || decide ((x.act.tStop.toNat : Int) * 1000 ≤ since) || x.edges = 1 || x.revFirst then
    ((0, true), d)
  else
    let r := match x.method, x.window with
      | true, some w => d.encSpeed (x.count - w.2.1).toInt (spanNs (x.edgeNs - w.1) (x.edgeAt - w.2.2))
      | true, none => d.encSpeed one 0
      | false, _ => d.encSpeed one x.interval.toNat
    ((BitVec.ofInt 32 (decay since r.1.toInt), false), r.2)

/-- ENC_CNT_SET takes effect (R277, R285): an edge of the same sample counts on from the value written, an index
event of the same sample has latched it already; the window of the count method
moves with the count, which no edge changed. -/
def Enc.setCount (now v : W32) (x : Enc) : Enc :=
  let c := if x.edges ≠ 0 && x.edgeNs = now then (if x.dir then v - 1 else v + 1) else v
  let x := { x with count := c, setTo := none,
                    window := x.window.map fun (w : W32 × W32 × Nat) => (w.1, w.2.1 + (c - x.count), w.2.2) }
  if x.idxNs = some now && x.idxFirst then x else x.forgetIndex

/-- Commands held for the strobe (R256, R285, R287): ENC_CNT_SET, CLR_FAULT, CLR_CNT; what waits for the strobe
after moves up. -/
def Enc.applyHeld (cyc now : W32) (x : Enc) : Enc :=
  let x := match x.setTo with
    | none => x
    | some v => x.setCount now v
  let x := if x.clrCnt then { x with cnt := Vector.replicate 6 0, clrCnt := false } else x
  let x := if x.clrFault then { (x.clearFault cyc now) with clrFault := false } else x
  { x with setTo := x.later.setTo, clrFault := x.later.clrFault, clrCnt := x.later.clrCnt, later := {} }

/-- ENC_SAMPLE_STROBE (R273). -/
def Die.encStrobe (k : Nat) (d : Die) : Die :=
  let x := d.enc k
  if x.state = .off || !x.isInc then d
  else
    let now := d.time.ns
    let d := d.updEnc k fun x =>
      let x := { (x.applyHeld d.time.cyc now) with act := x.regs }
      let x := if x.act.tStop.toNat * 1000 ≤ (now - x.edgeNs).toNat then { x with edges := 0 } else x
      { x with method := x.nextMethod }
    let r := d.incSpeed k now
    let d := r.2.updEnc k fun x =>
      { x with pos := x.count, posHi := 0, speed := r.1.1, still := r.1.2, time := now }
    (d.encEntry k 0).updEnc k fun x =>
      { x with edgesNow := 0, revNow := false, window := if x.hasDir then some (x.edgeNs, x.count, x.edgeAt) else none }

/-! Frames (R266-R272, R279) -/

/-- Gray code of `n` bits decoded. -/
def grayDecode : Nat → Nat → Nat
  | 0, g => g
  | n + 1, g => grayDecode n (g ^^^ (g >>> (2 ^ n)))

/-- Bits of a number that are 1, by parity. -/
def oddOnes : Nat → Nat → Bool
  | 0, _ => false
  | n + 1, x => (x % 2 = 1) != oddOnes n (x / 2)

/-- The fields of a received word of LEN bits (R267): P and the status bits; MT + ST bits of P. -/
def EncCfg.posBits (c : EncCfg) : Nat := c.len.toNat - c.nstat.toNat - (if c.parity then 1 else 0)
def EncCfg.st (c : EncCfg) : Nat := c.posBits - c.mt.toNat
def EncCfg.position (c : EncCfg) (w : Nat) : Nat :=
  let g := w / 2 ^ (c.len.toNat - c.posBits) % 2 ^ c.posBits
  if c.gray then grayDecode 6 g else g
def EncCfg.statBits (c : EncCfg) (w : Nat) : Nat := w / (if c.parity then 2 else 1) % 2 ^ c.nstat.toNat

/-- Why a frame is bad (R268, R270). -/
inductive BadFrame where
  | frame
  | parity
  | errBit
  deriving DecidableEq, Repr

/-- R268 in its order; `early` is a failed ready check or a wrong length. -/
def EncCfg.judge (c : EncCfg) (early : Bool) (w : Nat) (endHigh : Bool) : Option BadFrame :=
  let s := c.statBits w
  let hit := (List.range 4).any fun i => i < c.nstat.toNat && bit c.errMask i && (s / 2 ^ i % 2 = 1) = c.errPol
  if early then some .frame
  else if c.parity && oddOnes c.len.toNat (w % 2 ^ c.len.toNat) then some .parity
  else if c.endChk && endHigh then some .frame
  else if hit then some .errBit
  else none

/-- A bad frame (R268, R284). -/
def Die.encBad (k : Nat) (why : BadFrame) (d : Die) : Die :=
  let d := d.updEnc k fun x =>
    let x := { (x.bump 2) with bad := x.bad + 1, prev := none }
    match why with
    | .frame => { x with frameErr := true }
    | .parity => { x with parityErr := true }
    | .errBit => { x with errBit := true }
  let x := d.enc k
  if x.cfg.errLimit.toNat ≤ x.bad then d.encFault k 1 true else d

/-- E of R281 for an unwrapped P. -/
def EncCfg.emuTarget (c : EncCfg) (p : Int) : Int := Int.fdiv (p * 4 * c.emuLines.toNat) (2 ^ c.st)

/-- The steps of the newest frame do not fit one cell cycle at the EMU_DIV spacing (R281). -/
def Enc.emuLags (tc : Nat) (x : Enc) : Bool := decide (tc < x.emuN * (x.cfg.emuDiv.toNat * 4))

/-- The emulator at a good frame: C follows from the first frame on, and EMU_LAG (R281, R282). -/
def Die.emuFrame (k : Nat) (d : Die) : Die :=
  let x := d.enc k
  if x.cfg.pt ≠ 2 then d
  else
    let e := x.cfg.emuTarget x.unwrapped
    if !x.emuOn then d.updEnc k fun x => { x with emuC := e, emuOn := true }
    else
      let d := d.updEnc k fun x => { x with emuAt := d.time.per, emuN := (e - x.emuC).natAbs }
      if (d.enc k).emuLags d.img.cell.tc then
        (d.updEnc k fun x => { x with emuLag := true }).logOnce x.emuLag .info (d.uidEnc k) 0x93
      else d

/-- A good frame measured at `at` (R271, R274, R279, R284). -/
def Die.encGood (k w : Nat) (mt : W32) (d : Die) : Die :=
  let x := d.enc k
  let n := x.cfg.posBits
  let p := x.cfg.position w
  let delta (q : Nat) : Int := (BitVec.ofInt n ((p : Int) - q)).toInt
  let r : (W32 × Bool) × Die := match x.prev with
    | none => ((0, true), d)
    | some (q, t) => let s := d.encSpeed (delta q) (diff32 mt t); ((s.1, false), s.2)
  let moved : Int := match x.prev with | none => 0 | some (q, _) => delta q
  let d := r.2.updEnc k fun x =>
    { x with state := if x.state = .sync then .run else x.state, pos := BitVec.ofNat 32 p,
             posHi := BitVec.ofNat 8 (p / 2 ^ 32), speed := r.1.1, still := r.1.2, time := mt, bad := 0,
             goodNs := d.time.ns, dir := if moved = 0 then x.dir else decide (moved < 0),
             prev := some (p, mt), act := x.regs,
             unwrapped := if x.emuOn then x.unwrapped + (BitVec.ofInt n ((p : Int) - x.unwrapped)).toInt else p }
  let d := d.emuFrame k
  if x.entryCyc = some d.time.cyc then d.updEnc k (Enc.bump 4) else d.encEntry k (x.cfg.statBits w)

/-- A received frame judged. -/
def Die.encFrame (k : Nat) (early : Bool) (w : Nat) (endHigh : Bool) (mt : W32) (d : Die) : Die :=
  match (d.enc k).cfg.judge early w endHigh with
  | some why => d.encBad k why
  | none => d.encGood k w mt

/-- SSI_FRAME_START (R255, R266, R269): `ready` is a high data line. -/
def Die.ssiStart (k : Nat) (ready : Bool) (d : Die) : Die :=
  let x := d.enc k
  let soon := match x.frameEnd with
    | some t => decide ((d.time.ns - t).toNat < x.cfg.tm.toNat * 1000)
    | none => false
  if x.state = .off || x.cfg.mode ≠ 2 || !d.red.grant || x.frame.isSome || soon then d
  else if !ready then d.encBad k .frame
  else d.updEnc k fun x => { x with frame := some d.time.ns, frameAt := some d.time.per }

/-- SSI_FRAME_END (R267, R268): the word sampled, and the level of the END_CHK sample. -/
def Die.ssiEnd (k : Nat) (w : BitVec 40) (endHigh : Bool) (d : Die) : Die :=
  match (d.enc k).frame with
  | none => d
  | some mt =>
    (d.updEnc k fun x => { x with frame := none, frameEnd := some d.time.ns }).encFrame k false w.toNat endHigh mt

/-- LISTEN_FRAME (R255, R270, R271): a frame of `edges` falling edges from `mt` on. A port of the
standby die in SSI mode decodes the frames of the duty die the same way. Edges that come before the clock has been
high for LGAP belong to the frame before, which has too many. -/
def Die.listenFrame (k : Nat) (w : BitVec 40) (edges : Byte) (endHigh : Bool) (mt : W32) (d : Die) : Die :=
  let x := d.enc k
  if x.state = .off || !(x.cfg.mode = 3 || (x.cfg.mode = 2 && !d.red.grant)) then d
  else
    let near := match x.frameEnd with
      | some t => x.cfg.mode = 3 && decide ((mt - t).toNat < x.cfg.lgap.toNat * 1000)
      | none => false
    (d.updEnc k fun x => { x with frameEnd := some d.time.ns }).encFrame k
      (near || edges.toNat ≠ x.cfg.len.toNat + 1) w.toNat endHigh mt

/-- LISTEN_TIMEOUT (R272, R284, R285). -/
def Die.listenTimeout (k : Nat) (d : Die) : Die :=
  let x := d.enc k
  if x.cfg.mode ≠ 3 || decide ((d.time.ns - x.goodNs).toNat < x.cfg.errLimit.toNat * d.img.cell.tc) then d
  else if x.state = .run then (d.updEnc k fun x => { x with stale := true }).encFault k 2 false
  else if x.state = .fault && x.cause = 1 && x.faultCyc = some d.time.cyc then
    d.updEnc k fun x => { x with stale := true, cause := 2 }
  else d

/-- The emulator has a step to take. -/
def Enc.emuDue (x : Enc) : Bool :=
  x.state ≠ .off && x.cfg.pt = 2 && x.emuOn && x.emuC ≠ x.cfg.emuTarget x.unwrapped

/-- The direction of its next step. -/
def Enc.emuDir (x : Enc) : Int := if x.emuC < x.cfg.emuTarget x.unwrapped then 1 else -1

/-- The tick of its next step (R281): the n steps of a frame come at i · T_c / n after it, or EMU_DIV apart where
that is closer, and never within EMU_DIV of the step before (log entry 47). -/
def Enc.emuNext (tc : Nat) (x : Enc) : Nat :=
  let i := x.emuN + 1 - (x.cfg.emuTarget x.unwrapped - x.emuC).natAbs
  let at' := x.emuAt + (if x.emuLags tc then i * x.cfg.emuDiv.toNat else i * (tc / 4) / max 1 x.emuN)
  match x.emuLast with
  | some t => max at' (t + x.cfg.emuDiv.toNat)
  | none => at'

/-- A step of C at tick `now` (R281, R283). -/
def Enc.emuMove (now : Nat) (s : Int) (x : Enc) : Enc := { x with emuC := x.emuC + s, emuLast := some now }

/-- EMU_STEP on the die that drives the repeater (R281). -/
def Die.emuStep (k : Nat) (d : Die) : Die :=
  if d.red.grant && (d.enc k).emuDue then d.updEnc k (Enc.emuMove d.time.per (d.enc k).emuDir) else d

/-- The count nearest to `c` whose quadrature state is that of `c'`, the lower of two as near. -/
def quadNear (c c' : Int) : Int := match ((c' - c) % 4).toNat with | 0 => c | 1 => c + 1 | 2 => c - 2 | _ => c - 1

/-- The standby die reads the step back from the balls (R283). -/
def Die.emuTrack (k : Nat) (s : Int) (d : Die) : Die :=
  if (d.enc k).state ≠ .off && (d.enc k).cfg.pt = 2 && (d.enc k).emuOn then d.updEnc k (Enc.emuMove d.time.per s)
  else d

/-! Outputs (R253, R255, R265, R280, R281) -/

/-- The levels of A and B at a count of the emulator: both high at 0, and A leads B upward (R258, R281). -/
def quadLevels (c : Int) : Bool × Bool :=
  match (c % 4).toNat with
  | 0 => (true, true)
  | 1 => (false, true)
  | 2 => (false, false)
  | _ => (true, false)

/-- The clock of a frame, `t` ticks after its edge 0: LEN + 1 falling edges PER apart, each followed by ⌊PER/2⌋
ticks of low, the last by ⌈PER/2⌉ (R265, R266). -/
def EncCfg.clockLow (c : EncCfg) (t : Nat) : Bool :=
  let per := c.per.toNat
  let i := t / max 1 per
  if i < c.len.toNat then decide (t % max 1 per < per / 2)
  else decide (t - c.len.toNat * per < per - per / 2)

/-- `ENCnn_CLK` of a port that clocks its sensor: idle high (R265). -/
def Die.encClock (d : Die) (k : Nat) : Bool :=
  match (d.enc k).frameAt with
  | some t => !(d.enc k).cfg.clockLow (d.time.per - t)
  | none => true

/-- The outputs AO, BO, IO of a repeater: a copy of the pins (RAW), or the quadrature state of C (EMU). -/
def Die.encRepeat (d : Die) (k : Nat) : Option (Bool × Bool × Bool) :=
  let x := d.enc k
  if x.cfg.pt = 1 then some (d.encRaw k 0, d.encRaw k 1, d.encRaw k 2)
  else if x.cfg.pt = 2 then
    let q := quadLevels x.emuC
    some (q.1, q.2, x.emuC % (4 * x.cfg.emuLines.toNat) = 0 && q.1 && q.2)
  else none

/-- The level that a die puts on an output ball of a port, AO, BO, IO or 3 for CLK: none where the port is OFF, the
gate is closed or the ball unused, and where the mode drives nothing there (R14, R25, R253, R255, R627). -/
def Die.encPin (d : Die) (k : Nat) (o : Fin 4) : Option Bool :=
  if (d.enc k).state = .off || !d.red.gateOpen || !d.ballUsed (if o = 3 then .encClk k else .encOut k o) then none
  else if o = 3 then (if (d.enc k).cfg.mode = 2 then some (d.encClock k) else none)
  else (d.encRepeat k).map fun l => if o = 0 then l.1 else if o = 1 then l.2.1 else l.2.2

/-! Commands (R256, R284-R287) -/

/-- What waits for the next strobe and what waits for the one after change places. -/
def Enc.swapHeld (x : Enc) : Enc :=
  { x with setTo := x.later.setTo, clrFault := x.later.clrFault, clrCnt := x.later.clrCnt,
           later := { setTo := x.setTo, clrFault := x.clrFault, clrCnt := x.clrCnt } }

/-- The port has yet to make a strobe that the other die's port has made (R256). -/
def Die.encBehind (d p : Die) (k : Nat) : Bool :=
  match (p.enc k).entryCyc with
  | some b => (d.enc k).entryCyc ≠ some b && decide (0 ≤ diff32 b d.time.cyc)
  | none => false

/-- A command on a port that both dies carry out: at a port that is behind it waits for the strobe after its next,
so that it acts at the same strobe on both (R256). -/
def Die.encHold (k : Nat) (f : Die → Die) (p d : Die) : Die :=
  if (d.enc k).isInc && d.encBehind p k then (f (d.updEnc k Enc.swapHeld)).updEnc k Enc.swapHeld else f d

/-- ENC_CTRL.CLR_FAULT: held for the strobe of an INC port (R256), at once otherwise. -/
def Die.encClrFault (k : Nat) (d : Die) : Die :=
  let x := d.enc k
  if x.isInc then d.updEnc k fun x => { x with clrFault := true }
  else d.updEnc k (Enc.clearFault d.time.cyc d.time.ns)

/-- ENC_CTRL.CLR_CNT, likewise. -/
def Die.encClrCnt (k : Nat) (d : Die) : Die :=
  if (d.enc k).isInc then d.updEnc k fun x => { x with clrCnt := true }
  else d.updEnc k fun x => { x with cnt := Vector.replicate 6 0 }

/-- ENC_CNT_SET (R256, R286): INC only. -/
def Die.encCntSet (k : Nat) (v : W32) (d : Die) : Die :=
  if (d.enc k).isInc then d.updEnc k fun x => { x with setTo := some v } else d.refuse

/-- A takeover of the repeater by a new duty die: PT_GAP with RAW (R283). -/
def Die.encTake (d : Die) : Die :=
  (List.range 16).foldl (fun d k => d.updEnc k fun x =>
    if x.state ≠ .off && x.cfg.pt = 1 then { x with ptGap := true } else x) d

/-- The port the image in force gives (R284); its filters start from the levels at the pins (log entry 46). -/
def Enc.place (c : EncCfg) (r : EncRegs) (now : W32) (lvl : Fin 3 → Bool) : Enc :=
  let st := if c.mode = 0 then EncState.off else if c.mode = 1 then .run else .sync
  { state := st, cfg := c, regs := r, act := r, goodNs := now, a := lvl 0, b := lvl 1, i := lvl 2 }

end Sys2Proof.Machine
end

