-- ==== Sys2Proof/Machine/Axis.lean ====
section
/-! DEFINITION. Small axes: ramps, microsteps, drive, compare, homing (chapter 07). -/

namespace Sys2Proof.Machine

def Die.axis (d : Die) (a : Nat) : Axis := (d.axes[a]?).getD {}

def Die.updAxis (a : Nat) (f : Axis → Axis) (d : Die) : Die :=
  { d with axes := d.axes.setIfInBounds a (f (d.axis a)) }

def Die.uidAxis (d : Die) (a : Nat) : W16 := d.uid 9 a

/-- A new table of axes, with the levels that stand at the pins. -/
def Die.keepPins (d : Die) (l : Vector Axis 16) : Vector Axis 16 := vmap l fun a x => { x with inPin := (d.axis a).inPin }

def Axis.count (i : Fin 6) (x : Axis) : Axis := { x with cnt := vupd x.cnt i satInc }

/-! Units (R223) -/

def speedTick (r : W32) : Nat := r.toNat * 2 ^ 40 / 1000000
def accTick (r : W32) : Nat := r.toNat * 2 ^ 40 / 1000000000000

/-- Integer part of the position, as AX_POS. -/
def Axis.pint (x : Axis) : Int := Int.fdiv x.p (2 ^ 48)
def Axis.pos (x : Axis) : W32 := BitVec.ofInt 32 x.pint
/-- AX_VEL in U24.8 (R223). -/
def Axis.vel (x : Axis) : W32 := BitVec.ofNat 32 (x.vt * 1000000 / 2 ^ 40)

/-- The ramp's limits in internal units with a top speed. A V1 of at least VMAX lies above every speed, so that
A1 and D1 apply throughout (R225). -/
def AxRegs.limits (r : AxRegs) (c60 : Bool) (vmaxReg : W32) : AxLimits :=
  let vm := speedTick vmaxReg
  let off := 2 ^ 49
  if c60 then
    { vstart := 0, v1 := off, vmax := vm, a1 := accTick r.a1, a2 := accTick r.a1, d1 := accTick r.d1,
      d2 := accTick r.d1, dstop := accTick r.dstop, floor := speedTick 16384 }
  else
    { vstart := speedTick r.vstart, v1 := if vmaxReg.toNat ≤ r.v1.toNat then off else speedTick r.v1, vmax := vm, a1 := accTick r.a1, a2 := accTick r.a2,
      d1 := accTick r.d1, d2 := accTick r.d2, dstop := accTick r.dstop,
      floor := max (speedTick r.vstop) (speedTick 16384) }

/-- R224: the limits allow a move. `f16`: 16 × f_PWM in µsteps/s, where PWM mode asks for it. -/
def AxRegs.ok (r : AxRegs) (c60 : Bool) (pwmTop : Option Nat) (vmaxReg : W32) : Bool :=
  let vm := vmaxReg.toNat
  decide (0 < vm) && decide (vm ≤ 1000000 * 256) &&
    (match pwmTop with | none => true | some t => decide (vm * t ≤ 16 * 125000000 * 256)) &&
    (if c60 then r.a1 ≠ 0 && r.d1 ≠ 0
     else (r.v1 = 0 || (r.a1 ≠ 0 && r.d1 ≠ 0)) && (decide (vm ≤ r.v1.toNat) || (r.a2 ≠ 0 && r.d2 ≠ 0))) &&
    (c60 || (decide (r.vstart.toNat ≤ vm) && decide (r.vstop.toNat ≤ vm)))

def Die.axLimitsOk (d : Die) (a : Nat) (vmaxReg : W32) : Bool :=
  let x := d.axis a
  x.regs.ok x.cfg.c60 (if x.cfg.stepDir then none else some d.pwm.top.toNat) vmaxReg

/-! The tick (R225, R226) -/

/-- dstop(v, f), exact. -/
def AxLimits.stopDist (l : AxLimits) (v f : Nat) : Rat :=
  let sq (n : Nat) : Int := (n * n : Nat)
  if l.v1 = 0 then mkRat (sq v - sq f) (2 * l.d2)
  else if l.v1 < v then mkRat (sq v - sq l.v1) (2 * l.d2) + mkRat (sq l.v1 - sq f) (2 * l.d1)
  else mkRat (sq v - sq f) (2 * l.d1)

/-- brake(fl). -/
def AxLimits.slow (l : AxLimits) (v fl : Nat) : Nat := max fl (v - (if l.v1 < v then l.d2 else l.d1))

def Axis.sign (x : Axis) : Int := if x.neg then -1 else 1

/-- The position moves by one tick's step; the count wraps at 32 bits. -/
def Axis.advance (v : Nat) (x : Axis) : Axis :=
  { x with vt := v, p := Int.emod (x.p + x.sign * v + 2 ^ 79) (2 ^ 80) - 2 ^ 79 }

/-- RAMP_PHASE while speeding up or cruising, and while braking (R248). -/
def upPhase (l : AxLimits) (v : Nat) : BitVec 3 := if v = l.vmax then 3 else if v < l.v1 then 1 else 2
def downPhase (l : AxLimits) (v fl : Nat) : BitVec 3 := if v = fl then 6 else if l.v1 < v then 4 else 5

/-- One tick of R226 toward the target, the axis in motion or about to start. -/
def Axis.tickTarget (x : Axis) : Axis :=
  let l := x.lim
  let t := x.target.toInt
  let x := if x.vt = 0 then { x with neg := decide (t < x.pint), vt := l.vstart, phase := 1 } else x
  let rem : Int := (t * 2 ^ 48 - x.p) * x.sign
  let v := x.vt
  let (v', ph) : Nat × BitVec 3 :=
    if rem < 0 then (l.slow v 0, 7)
    else if (rem : Rat) ≤ l.stopDist v l.floor then (l.slow v l.floor, downPhase l (l.slow v l.floor) l.floor)
    else if v < l.vmax then
      let n := min l.vmax (v + (if v < l.v1 then l.a1 else l.a2))
      (n, upPhase l n)
    else (v, 3)
  let before := x.pint
  let y := { (x.advance v') with phase := ph }
  let crossed := if x.neg then decide (t ≤ before) && decide (y.pint ≤ t) && decide (before ≠ t || y.pint ≠ t)
    else decide (before ≤ t) && decide (t ≤ y.pint) && decide (before ≠ t || y.pint ≠ t)
  if crossed && decide (v' ≤ l.floor) then { y with p := t * 2 ^ 48, vt := 0, phase := 0 } else y

/-- A tick without an end: speed up to the limit in a direction; the other direction is left first. -/
def Axis.tickSeek (neg : Bool) (x : Axis) : Axis :=
  let l := x.lim
  if x.vt ≠ 0 && x.neg ≠ neg then { (x.advance (l.slow x.vt 0)) with phase := 7 }
  else
    let v := if x.vt = 0 then l.vstart else x.vt
    let v' := if l.vmax < v then l.slow v l.vmax else min l.vmax (v + (if v < l.v1 then l.a1 else l.a2))
    { ({ x with neg := neg }.advance v') with phase := upPhase l v' }

/-- A braking tick (R237, R244). -/
def Axis.tickBrake (dstop : Bool) (x : Axis) : Axis :=
  let v := if dstop then x.vt - x.lim.dstop else x.lim.slow x.vt 0
  { (x.advance v) with phase := if v = 0 then 0 else downPhase x.lim v 0 }

/-- Amplitude selection and HOLD_DELAY over a tick: AMP_RUN at constant speed, AMP_ACC while it changes
(R230). -/
def Axis.tickAmp (before : Nat) (x : Axis) : Axis :=
  if x.vt = 0 then
    if before ≠ 0 then { x with ampSel := 1, holdLeft := x.holdDelayUse.toNat * 1000 }
    else { x with holdLeft := x.holdLeft - 1 }
  else { x with ampSel := if x.vt = before then 1 else 2, holdLeft := 0 }

/-- An axis that is made to stand at once has come to rest: AMP_RUN and HOLD_DELAY begin (R230). -/
def Axis.tickAmpStop (x : Axis) : Axis :=
  if x.vt = 0 then x else { x with ampSel := 1, holdLeft := x.holdDelayUse.toNat * 1000 }

/-! Compare (R238, R239) -/

/-- The compare fires; a firing in a running pulse extends it (R239). -/
def Die.cmpFire (a : Nat) (d : Die) : Die :=
  let x := d.axis a
  let d := d.updAxis a fun x =>
    { (x.count 2) with fired := true, cmpTime := d.time.ns, cmpOut := x.cmpOut || x.pin,
                       cmpEnd := if x.pin then d.time.per + 250 * x.cmpPw.toNat else x.cmpEnd,
                       armed := x.bothDir && x.cont }
  if x.evt then (d.emit (.axisEvent a)).msix (20 + a) else d

/-- COMPARE_FIRE at a tick that moved the axis from `before`: a write of this tick wins. -/
def Die.tickCompare (a : Nat) (before : Int) (d : Die) : Die :=
  let x := d.axis a
  let c := x.cmpPos.toInt
  let now := x.pint
  if x.cmpWrite then
    if c = before then (d.updAxis a fun x => { x with cmpWrite := false, armed := true }).cmpFire a
    else
      let side := decide (c < before)
      d.updAxis a fun x => { x with cmpWrite := false, armed := true, side := side,
                                    behind := x.behind || (x.vt ≠ 0 && x.neg ≠ side) }
  else if !x.armed then d
  else
    let up := decide (before < c) && decide (c ≤ now)
    let down := decide (c < before) && decide (now ≤ c)
    if (if x.bothDir then up || down else if x.side then down else up) then d.cmpFire a else d

/-! Homing (R240-R242) -/

/-- A homing state is entered with a motion; host-stepped homing brakes, sets WAIT_STEP at rest and pauses
(R242). -/
def Axis.enterHome (st : BitVec 3) (m : AxMotion) (x : Axis) : Axis :=
  let x := { x with homeSt := st,
                    lim := x.act.limits x.cfg.c60 (if st = 4 then x.act.homeVslow else x.act.homeVfast) }
  if !x.act.hostStep then { x with motion := m, pausing := false }
  else if x.vt = 0 then { x with waitStep := true, pausing := false, heldMotion := m, motion := .none }
  else { x with pausing := true, heldMotion := m, motion := .brake false }

/-- Homing fails (R241). -/
def Die.homeFail (a err : Nat) (dstop : Bool) (d : Die) : Die :=
  (d.updAxis a fun x =>
    { x with homeSt := 7, homeErr := BitVec.ofNat 3 err, homed := false, waitStep := false,
             pausing := false, afterBrake := .none, motion := .brake dstop }).log .warn (d.uidAxis a) 0x81

/-- A homing state in which a further event counts. -/
def Axis.inHoming (x : Axis) : Bool := x.state = .homing && x.homeSt ≠ 6 && x.homeSt ≠ 7

/-- HOME_RANGE_EXCEEDED. -/
def Die.homeRange (a : Nat) (d : Die) : Die :=
  let x := d.axis a
  if x.inHoming && x.act.homeRange ≠ 0 && decide ((x.act.homeRange.toNat : Int) * 2 ^ 48 < ((x.p - x.homeStart).natAbs : Int)) then
    d.homeFail a 3 false
  else d

/-- The limits that stand active in a homing state act on it, on entry too (R241). -/
def Die.homeLimits (a : Nat) (d : Die) : Die :=
  let x := d.axis a
  let inDir := bit x.inFilt (if x.act.homeNeg then 1 else 2)
  let against := bit x.inFilt (if x.act.homeNeg then 2 else 1)
  if !x.inHoming || x.waitStep then d
  else if x.homeSt = 1 && inDir then
    if !x.act.revOnLimit then d.homeFail a 1 true
    else if against then (d.updAxis a fun x => { x with homeSt := 2 }).homeFail a 1 true
    else d.updAxis a fun x =>
      let y := x.enterHome 2 (.seek (!x.act.homeNeg))
      if x.vt = 0 then y
      else { y with motion := .brake true, afterBrake := if y.pausing then .none else .seek (!x.act.homeNeg) }
  else if x.homeSt = 2 && against then d.homeFail a 1 true
  else if (x.homeSt = 3 || x.homeSt = 4) && (inDir || against) then d.homeFail a 1 true
  else d

/-- The move of the axis has arrived: REST, or the next homing state (R226, R241). -/
def Die.axMoveDone (a : Nat) (d : Die) : Die :=
  let x := d.axis a
  if x.vt ≠ 0 || x.motion ≠ .target || x.pint ≠ x.target.toInt then d
  else if x.state = .moving then d.updAxis a fun x => { x with state := .rest, motion := .none, phase := 0 }
  else if x.state = .homing && x.homeSt = 3 then
    (d.updAxis a (Axis.enterHome 4 (.seek x.act.homeNeg))).homeLimits a
  else d

/-- A braking axis is at rest (R241, R245). -/
def Die.axBrakeDone (a : Nat) (d : Die) : Die :=
  let x := d.axis a
  let braking := match x.motion with | .brake _ => true | _ => false
  if x.vt ≠ 0 || !braking then d
  else if x.state = .stopping then
    d.updAxis a fun x =>
      { x with state := if x.stop = 2 then .stopped else .rest, motion := .none,
               stop := if x.stop = 2 then 2 else 0, ampSel := if x.stop = 2 then 0 else x.ampSel }
  else if x.state = .homing then
    if x.homeSt = 7 then d.updAxis a fun x => { x with state := .rest, motion := .none }
    else if x.waitStep then d
    else if x.pausing then
      d.updAxis a fun x => { x with waitStep := true, pausing := false, motion := .none }
    else if x.homeSt = 5 then
      d.updAxis a fun x =>
        let x := { x with p := x.p + (x.act.homeOffset.toInt - x.edge.toInt) * 2 ^ 48, homed := true, pausing := false }
        let x := x.enterHome 6 .none
        if x.act.hostStep then x else { x with state := .rest, motion := .none }
    else d.updAxis a fun x => { x with motion := x.afterBrake, afterBrake := .none }
  else d

/-- A raw level of an input that has held for DEBOUNCE µs and differs from the filtered state (R237). -/
def Axis.settled (now k : Nat) (x : Axis) : Bool :=
  bit x.inRaw k != bit x.inFilt k && decide (250 * x.debounce.toNat + (x.rawAt[k]?).getD 0 ≤ now)

/-- The sequencers of the die run moves: it holds the grant, or prepares to take it (R234). -/
def Die.axRuns (d : Die) : Bool :=
  d.red.grant || d.red.tk = .armed || d.red.tk = .shadow || d.red.tk = .waitoff

/-- A tick's ramp, position, amplitude, STEP pulse, compare and range (R223, R226, R236, R238, R241). DEDUCED (log
entry 117): a STEP pulse that falls on the tick at which DIR changes comes a tick later, 1 µs after it. -/
def Die.seqTick (a : Nat) (d : Die) : Die :=
  let x := d.axis a
  if x.state = .off || !d.axRuns then d
  else if x.state = .fault then d.updAxis a (Axis.tickAmp 0)
  else
    let before := x.pint
    let v0 := x.vt
    let y := match x.motion with
      | .none => x
      | .target => if x.vt = 0 && x.pint = x.target.toInt then x else x.tickTarget
      | .seek n => x.tickSeek n
      | .brake s => if x.vt = 0 then x else x.tickBrake s
    let y := y.tickAmp v0
    let unit (p : Int) : Int := if x.cfg.stepDiv then Int.fdiv p 16 else p
    let want := x.stepOwed + if x.cfg.stepDir && decide (unit before ≠ unit y.pint) then 1 else 0
    let step := decide (0 < want) && x.neg = y.neg
    let y := { y with stepOut := y.stepOut || step, stepAt := if step then d.time.per else y.stepAt,
                      stepOwed := if step then want - 1 else want }
    let d := ((d.updAxis a fun _ => y).tickCompare a before).homeRange a
    if v0 = 0 then d.axMoveDone a else d

/-! Commands (R227, R237, R241-R245) -/

/-- A limit switch is active in a direction while it matters (R237). -/
def Axis.limActive (x : Axis) (neg : Bool) : Bool := x.limEn && bit x.inFilt (if neg then 1 else 2)

/-- AX_GO (R224, R227). -/
def Die.axGo (a : Nat) (d : Die) : Die :=
  let x := d.axis a
  let t := x.targetReg.toInt
  let toward := decide (t ≠ x.pint) && x.limActive (decide (t < x.pint))
  if (x.state ≠ .rest && x.state ≠ .moving) || toward || !d.axLimitsOk a x.regs.vmax || !d.red.grant then d.refuse
  else
    let behind := x.vt ≠ 0 && decide ((t * 2 ^ 48 - x.p) * x.sign < 0)
    d.accept.updAxis a fun x =>
      let x := x.count 0
      let x := if behind then x.count 1 else x
      { x with state := .moving, motion := .target, target := x.targetReg, act := x.regs,
               lim := x.regs.limits x.cfg.c60 x.regs.vmax }

/-- HOME_GO (R241). -/
def Die.homeGo (a : Nat) (d : Die) : Die :=
  let x := d.axis a
  if x.state ≠ .rest || !d.axLimitsOk a x.regs.vmax || !d.red.grant then d.refuse
  else
    (d.accept.updAxis a fun x =>
      let x := { x with state := .homing, act := x.regs, homed := false, homeErr := 0, homeStart := x.p }
      if bit x.inFilt 0 then x.enterHome 3 (.seek (!x.regs.homeNeg)) else x.enterHome 1 (.seek x.regs.homeNeg)
      ).homeLimits a

/-- HOME_STEP (R242). -/
def Die.homeStep (a : Nat) (d : Die) : Die :=
  let x := d.axis a
  if !x.waitStep || x.state ≠ .homing then d.refuse
  else Die.homeLimits a <| d.accept.updAxis a fun x =>
    let x := { x with waitStep := false, motion := x.heldMotion, heldMotion := .none }
    if x.homeSt = 6 then { x with state := .rest, motion := .none }
    else if x.homeSt = 5 then { x with motion := .brake false } else x

/-- The queues that a fault squash of the axis acts on: every PW queue to it and every HS queue that feeds it
(R163). -/
def Die.axQueues (d : Die) (a : Nat) : List Nat :=
  d.usedQueues.filter fun q =>
    let x := d.queue q
    (x.cls = .pw && decide (bits x.cons 13 0 = bits (d.uidAxis a) 13 0)) ||
      (x.cls = .hs && (match x.feeds with | some u => decide (bits u 13 0 = bits (d.uidAxis a) 13 0) | none => false))

/-- A stop of the axis (R210, R244, R245). -/
def Die.axStop (cat a : Nat) (d : Die) : Die :=
  let x := d.axis a
  let d := if 2 ≤ cat && x.stop.toNat < cat then (d.axQueues a).foldl (fun d q => d.requestFaultSquash q) d else d
  if x.state = .off || x.state = .fault || cat ≤ x.stop.toNat then d
  else
    let moving := x.vt ≠ 0
    let d := if x.state = .homing && x.homeSt ≠ 7 && x.homeSt ≠ 6 then d.homeFail a 4 false else d
    d.updAxis a fun x =>
      if cat = 3 then
        { x.tickAmpStop with state := .stopped, stop := 3, safe := true, vt := 0, motion := .none, phase := 0,
                             homed := x.homed && !moving, waitStep := false, pausing := false }
      else if moving then
        { x with state := .stopping, stop := BitVec.ofNat 2 cat, motion := .brake (decide (cat = 2)), waitStep := false }
      else if cat = 2 then { x with state := .stopped, stop := 2, motion := .none, ampSel := 0, waitStep := false }
      else if x.state = .stopped then x else { x with state := .rest, motion := .none, waitStep := false }

/-- AX_RESTART (R244). -/
def Die.axRestart (a : Nat) (d : Die) : Die :=
  let x := d.axis a
  if x.state = .stopped && x.vt = 0 then
    d.accept.updAxis a fun x => { x with state := .rest, stop := 0, safe := false }
  else d.refuse

/-- AX_CLR_FAULT (R222). -/
def Die.axClrFault (a : Nat) (d : Die) : Die :=
  let x := d.axis a
  if x.state = .fault && !x.fltAsserted then
    d.accept.updAxis a fun x => { x with state := .rest, safe := false, stop := 0 }
  else d.refuse

/-- AX_POS_SET (R243). -/
def Die.axPosSet (a : Nat) (v : W32) (d : Die) : Die :=
  if (d.axis a).state = .rest then
    d.accept.updAxis a fun x => { x with p := v.toInt * 2 ^ 48, homed := false }
  else d.refuse

/-- AX_CTRL with its bits (R247): stops first, as R654 orders them for joints; a refused bit refuses. -/
def Die.axCtrl (a : Nat) (b : Byte) (d : Die) : Die :=
  let d := d.accept
  let run (i : Nat) (f : Die → Die) (d : Die) : Die :=
    if bit b i then
      let e := f d
      if d.host.access = .ok then e else { e with host := d.host }
    else d
  run 0 (Die.axGo a) (run 6 (Die.homeStep a) (run 5 (Die.homeGo a) (run 7 (Die.axClrFault a)
    (run 4 (Die.axRestart a) (run 1 (Die.axStop 1 a) (run 2 (Die.axStop 2 a) (run 3 (Die.axStop 3 a) d)))))))

/-- AX_CMP_ARM (R238). -/
def Die.cmpArm (a : Nat) (v : W32) (d : Die) : Die :=
  d.accept.updAxis a fun x =>
    let side := decide (v.toInt < x.pint)
    { x with cmpPos := v, cmpWrite := true,
             behind := x.behind || (x.vt ≠ 0 && decide (v.toInt ≠ x.pint) && x.neg ≠ side) }

/-- CMP_PULSE_END (R239): the pulse has lasted PW µs since the last firing in it. -/
def Die.cmpPulseEnd (a : Nat) (d : Die) : Die :=
  d.updAxis a fun x => if x.cmpEnd ≤ d.time.per then { x with cmpOut := false } else x

/-- STEP_PULSE_END (R236): the pulse has lasted STEP_PW periods of CLK_PER. -/
def Die.stepPulseEnd (a : Nat) (d : Die) : Die :=
  d.updAxis a fun x => if x.stepAt + d.pwm.stepPw.toNat ≤ d.time.per then { x with stepOut := false } else x

/-- A limit switch closes in the direction of motion outside homing, in a stop too (R237, R245). -/
def Die.limitHit (a : Nat) (neg : Bool) (d : Die) : Die :=
  (d.updAxis a fun x =>
    { (x.count 3) with limNegHit := x.limNegHit || neg, limPosHit := x.limPosHit || !neg,
                       state := .stopping, motion := .brake true }).log .warn (d.uidAxis a) 0x83

/-- What a filtered input change does in homing (R241); `k` 0 HOME, 1 LIMNEG, 2 LIMPOS. -/
def Die.homeInput (a k : Nat) (active : Bool) (edge : W32) (d : Die) : Die :=
  let x := d.axis a
  let dir := x.act.homeNeg
  let st := x.homeSt.toNat
  if k = 0 then
    if active then
      if st = 1 || st = 2 then (d.updAxis a (Axis.enterHome 3 (.seek (!dir)))).homeLimits a
      else if st = 4 then
        d.updAxis a fun x => { (x.enterHome 5 (.brake false)) with edge := edge }
      else d
    else if st = 3 then
      let back : Int := if dir then x.act.homeBackoff.toNat else -(x.act.homeBackoff.toNat : Int)
      d.updAxis a fun x =>
        let x := { x with target := edge + BitVec.ofInt 32 back }
        if x.waitStep || x.pausing then { x with heldMotion := .target } else { x with motion := .target }
    else d
  else d.homeLimits a

/-- The filtered input `k` changes (R237, R241); `edge` is AX_POS at the tick of the last raw transition before
it. -/
def Die.axInput (a k : Nat) (active : Bool) (edge : W32) (d : Die) : Die :=
  let d := d.updAxis a fun x => { x with inFilt := putBit3 k active x.inFilt }
  let x := d.axis a
  if x.inHoming then d.homeInput a k active edge
  else if active && x.limEn && x.vt ≠ 0 && (x.state = .moving || x.state = .stopping) &&
      ((k = 1 && x.neg) || (k = 2 && !x.neg)) then d.limitHit a x.neg
  else d

/-- An input takes a raw level: the transition is counted over 10 ms (R237, R240). An unused ball's input is
inactive (R627). -/
def Axis.rawInput (now : Nat) (k : Fin 3) (active : Bool) (x : Axis) : Axis :=
  if bit x.inRaw k = active then x
  else
    let l := now :: (vget x.chatAt k).filter fun t => decide (now < t + 2500000)
    { x with inRaw := putBit3 k active x.inRaw, rawAt := vset x.rawAt k now, rawEdge := vset x.rawEdge k x.pos,
             chatAt := vset x.chatAt k l,
             chatDue := if x.chatN ≠ 0 && decide (x.chatN.toNat < l.length) then putBit3 k true x.chatDue else x.chatDue }

/-- The debounce filter of an input (R237). -/
def Die.filterInput (a : Nat) (k : Fin 3) (d : Die) : Die :=
  let x := d.axis a
  if x.state ≠ .off && x.settled d.time.per k then d.axInput a k (bit x.inRaw k) (vget x.rawEdge k) else d

/-- The pin of an input takes a level. -/
def Axis.setPin (k : Fin 3) (level : Bool) (x : Axis) : Axis := { x with inPin := putBit3 k level x.inPin }

/-- An input is active at its pin: an unused ball's never is (R251, R627). -/
def Die.pinActive (d : Die) (a : Nat) (k : Fin 3) : Bool :=
  d.ballUsed (.saIn a k) && (bit (d.axis a).inPin k != bit (d.axis a).inPol k)

/-- AX_INPUT_CHANGE (R237): the pin of an input stands at a level, which the ticks sample; a level that they have
sampled for DEBOUNCE µs becomes the filtered state. -/
def Die.axInputPin (a : Nat) (k : Fin 3) (level : Bool) (d : Die) : Die :=
  (d.updAxis a (Axis.setPin k level)).filterInput a k

/-- The sample of an input at a tick (R237). -/
def Die.sampleInput (a : Nat) (k : Fin 3) (d : Die) : Die :=
  (d.updAxis a (Axis.rawInput d.time.per k (d.pinActive a k))).filterInput a k

/-- SEQ_TICK (R223, R237): the sequencer's 1 µs tick, with the inputs as they are sampled at it. -/
def Die.axTick (a : Nat) (d : Die) : Die :=
  let x := d.axis a
  if x.state = .off || d.time.per < x.lastTick + 250 then d
  else
    let d := d.updAxis a fun x => { x with lastTick := x.lastTick + 250 }
    let d := (((d.seqTick a).sampleInput a 0).sampleInput a 1).sampleInput a 2
    d.homeLimits a

/-- The ticks of a die are realigned to a cycle start with CYC mod K = 0: the tick nearest to it meets it
(R223). -/
def Die.realignTicks (d : Die) : Die :=
  let k := if d.img.cell.tc = 31250 then 4 else if d.img.cell.tc = 62500 then 2 else 1
  if d.time.cyc.toNat % k ≠ 0 then d
  else
    let now := d.time.per
    { d with axes := vmap d.axes fun _ x =>
        if x.lastTick ≤ now then { x with lastTick := now - (now - x.lastTick + 125) / 250 * 250 } else { x with lastTick := now } }

/-- CHATTER_DETECT (R240): a raw transition of input `k` has made its count over 10 ms exceed CHAT_N. -/
def Die.chatterDetect (a k : Nat) (d : Die) : Die :=
  let x := d.axis a
  if x.chatN = 0 || x.state = .off || !bit x.chatDue k then d
  else
    let d := d.updAxis a fun x => { (x.count 4) with chatDue := putBit3 k false x.chatDue }
    if x.inHoming then d.homeFail a 2 false
    else
      let was := bit x.chatterDone k
      (d.updAxis a fun x => { x with chatter := true, chatterDone := x.chatterDone ||| BitVec.ofNat 3 (2 ^ k) }
        ).logOnce was .warn (d.uidAxis a) 0x82

/-- The filtered `SAnn_FLT_N` stands at a level: a low one is BRIDGE_FAULT on the axis itself (R222). -/
def Die.bridgeFaultAxis (a : Nat) (low : Bool) (d : Die) : Die :=
  let x := d.axis a
  let low := low && d.ballUsed (.saFlt a)
  let d := d.updAxis a fun x => { x with fltAsserted := low }
  if !low || x.state = .off || x.state = .fault then d
  else
    let d := if x.inHoming then d.homeFail a 4 false else d
    (d.updAxis a fun x =>
      { (x.tickAmpStop.count 5) with state := .fault, bridgeFlt := true, safe := true, homed := x.homed && decide (x.vt = 0),
                                       vt := 0, motion := .none, phase := 0, waitStep := false, pausing := false }).log .stop (d.uidAxis a) 0x80

/-! Drive (R228-R233) -/

/-- S[k] of R228. -/
def sineTable : List Nat :=
  [0, 3212, 6393, 9512, 12540, 15447, 18205, 20788, 23170, 25330, 27246, 28899, 30274, 31357, 32138, 32610, 32768]

/-- SIN(i) and COS(i) in U1.15 with sign (R228). -/
def sinStep (i : Nat) : Int :=
  let k := i % 16
  let s (n : Nat) : Int := ((sineTable[n]?).getD 0 : Nat)
  match i / 16 % 4 with
  | 0 => s k
  | 1 => s (16 - k)
  | 2 => -(s k)
  | _ => -(s (16 - k))

def cosStep (i : Nat) : Int := sinStep ((i + 16) % 64)

/-- Amplitude in use (R230). -/
def Axis.amp (x : Axis) : W16 :=
  if x.ampSel = 0 then x.ampHoldUse else if x.ampSel = 1 then x.ampRunUse else x.ampAccUse

/-- Duties from a peak's sample with a drive set's RK (R230). -/
def PwmSample.duties (s : PwmSample) (rk : W16) : Rat × Rat :=
  let m := qv 15 s.amp.toNat * qv 14 rk.toNat
  let e := qv 15 s.ke.toNat * mkRat (s.v * 1000000) (2 ^ 48) / 65536
  let c := qv 15 (cosStep s.angle)
  let n := qv 15 (sinStep s.angle)
  (ratClamp 1 (m * c - e * n), ratClamp 1 (m * n + e * c))

/-- Place of an axis's PWM counter in its period of 2·TOP counts (R229). -/
def Die.pwmPlace (d : Die) (a : Nat) : Nat :=
  (d.time.per - d.pwm.start + (d.axis a).pwmPhase.toNat) % max 1 (2 * d.pwm.top.toNat)

/-- The count: up from 0 to TOP, then down (R229). -/
def Die.pwmCount (d : Die) (a : Nat) : Nat :=
  let n := d.pwmPlace a
  if n ≤ d.pwm.top.toNat then n else 2 * d.pwm.top.toNat - n

/-- PWM_PEAK (R230, R246): at count TOP the unit samples angle, speed and amplitude. -/
def Die.pwmPeak (a : Nat) (d : Die) : Die :=
  if d.pwm.top = 0 || d.pwmCount a ≠ d.pwm.top.toNat then d
  else d.updAxis a fun x =>
    let x := { x with ampHoldUse := x.ampHold, ampRunUse := x.ampRun, ampAccUse := x.ampAcc, keUse := x.ke,
                      holdDelayUse := x.holdDelay }
    { x with peakAt := some d.time.per,
             peak := { angle := (x.pint % 64).toNat, v := x.sign * x.vt, amp := x.amp, hold := x.ampHoldUse, ke := x.keUse } }

/-- PWM_VALLEY (R221, R230-R233, R243): at count 0 the latched drive set and the duties of the last peak go into
use. In an underrun the duties are repeated for one period, and from the next RK is 1.0, e 0 and the amplitude
AMP_HOLD. EN = 0 takes the drive away. -/
def Die.pwmValley (a : Nat) (d : Die) : Die :=
  if d.pwm.top = 0 || d.pwmCount a ≠ 0 then d
  else d.updAxis a fun x =>
    let x := { x with valleyAt := some d.time.per }
    if x.underrun = 1 then { x with underrun := 2 }
    else if x.underrun = 2 then
      { x with rk := 0x4000, duty := { x.peak with amp := x.peak.hold, ke := 0 }.duties 0x4000 }
    else
      { x with rk := x.rkLatch, en := x.enLatch, duty := x.peak.duties x.rkLatch,
               homed := x.homed && (x.enLatch || x.vt = 0) }

/-- CMPV of a coil with duty `r` (R231). -/
def cmpv (top : Nat) (r : Rat) : Nat := (ratAbs r * (top : Rat)).floor.toNat

/-- The legs of a coil, first and second, active or not at a count (R231). -/
def coilLegs (top count : Nat) (decay : Bool) (duty : Rat) : Bool × Bool :=
  let on := decide (top - cmpv top duty ≤ count)
  let driven := if decay then !on else on
  if 0 ≤ duty then (driven, decay) else (decay, driven)

/-- The axis is in its safe state (R221, R232): OFF, FAULT, after an OFF_STOP, without the grant, or from a valley
with EN = 0. -/
def Die.axSafe (d : Die) (a : Nat) : Bool :=
  let x := d.axis a
  x.safe || !d.red.grant || !x.en

/-- The outputs A1, A2, B1, B2 of an axis, active or not (R221, R231, R236). -/
def Die.axOutputs (d : Die) (a : Nat) : Bool × Bool × Bool × Bool :=
  let x := d.axis a
  if d.axSafe a then (false, false, false, false)
  else if x.cfg.stepDir then
    (x.stepOut, x.neg, !(x.state = .rest && x.ampHold = 0), false)
  else
    let top := d.pwm.top.toNat
    let l := coilLegs top (d.pwmCount a) x.cfg.decay x.duty.1
    let r := coilLegs top (d.pwmCount a) x.cfg.decay x.duty.2
    (l.1, l.2, r.1, r.2)

/-- `SAnn_CMP` is active (R221, R239). -/
def Die.axCompare (d : Die) (a : Nat) : Bool := (d.axis a).cmpOut && !d.axSafe a

/-- The level that a die puts on an output ball of an axis, A1, A2, B1, B2 or 4 for CMP: high or low by OUT_POL,
none where the gate is closed or the ball is unused and stays as reset leaves it (R14, R25, R220, R221, R627). -/
def Die.axPin (d : Die) (a o : Nat) : Option Bool :=
  let out := d.axOutputs a
  let act := match o with | 0 => out.1 | 1 => out.2.1 | 2 => out.2.2.1 | 3 => out.2.2.2 | _ => d.axCompare a
  if d.red.gateOpen && d.ballUsed (if o < 4 then .saOut a o else .saCmp a) then some (act != (d.axis a).cfg.outPol)
  else none

/-- An RK outside [1.0, 2.0) clamped (R232). -/
def clampRk (v : W16) : W16 × Bool :=
  if v.toNat < 0x4000 then (0x4000, true) else if 0x8000 ≤ v.toNat then (0x7FFF, true) else (v, false)

/-- DRIVE_SET_LATCH (R232, R233). -/
def Die.driveSetLatch (a : Nat) (d : Die) : Die :=
  match d.findQueue fun q => q.cls = .pw && decide (bits q.cons 13 0 = bits (d.uidAxis a) 13 0) with
  | none => d
  | some q =>
    match d.dequeue q d.time.cyc false with
    | (some (e :: _), d) =>
      let w := (e.payload[0]?).getD 0
      let rk := clampRk (BitVec.ofNat 16 (bits w 15 0))
      d.updAxis a fun x => { x with rkLatch := rk.1, enLatch := bit w 16, rkClamp := x.rkClamp || rk.2, underrun := 0 }
    | (_, d) => d.updAxis a fun x => { x with underrun := if x.underrun = 0 then 1 else x.underrun }

/-- AMP_HOLD_DELAY_END (R230). -/
def Die.ampHoldDelayEnd (a : Nat) (d : Die) : Die :=
  d.updAxis a fun x => if x.vt = 0 && x.holdLeft = 0 then { x with ampSel := 0 } else x

/-! Axis blocks (R234) -/

def AxState.code : AxState → Nat
  | .off => 0 | .rest => 1 | .moving => 2 | .homing => 3 | .stopping => 4 | .stopped => 5 | .fault => 6

def AxState.ofCode : Nat → AxState
  | 1 => .rest | 2 => .moving | 3 => .homing | 4 => .stopping | 5 => .stopped | 6 => .fault | _ => .off

/-- AX_STATUS (R248). -/
def Axis.status (x : Axis) : W32 :=
  BitVec.ofNat 32 (x.state.code + flag x.neg 3 + 16 * x.phase.toNat + flag x.homed 7 + 256 * x.homeSt.toNat
    + 2048 * x.homeErr.toNat + flag x.limNegHit 14 + flag x.limPosHit 15 + flag x.chatter 16 + flag x.bridgeFlt 17
    + flag x.waitStep 18 + flag x.rkClamp 19)

/-- The 32 bytes of an axis block. -/
def Axis.block (x : Axis) : List Byte :=
  leBytes 4 x.pos.toNat ++ leBytes 6 (x.p - x.pint * 2 ^ 48).toNat ++ [0, 0] ++ leBytes 8 x.vt
    ++ leBytes 4 x.target.toNat
    ++ leBytes 1 (x.state.code + flag x.neg 3 + flag x.homed 4 + flag x.waitStep 5)
    ++ leBytes 1 (x.phase.toNat + 8 * x.homeSt.toNat)
    ++ leBytes 1 (flag x.armed 0 + flag x.side 1 + flag x.behind 2)
    ++ leBytes 1 x.ampSel.toNat ++ leBytes 4 x.holdLeft

/-- The axes an engine role owns, in increasing index (R13). -/
def Die.ownedAxes (d : Die) (role : Nat) : List Nat :=
  (List.range 16).filter fun a => (d.axis a).state ≠ .off && decide (bits (d.axis a).cfg.owner 9 0 = role)

def Die.axisBlocks (d : Die) (role : Nat) : List Byte := (d.ownedAxes role).flatMap fun a => (d.axis a).block

/-- A loaded homing state is still braking to the rest in which it is to pause (R242): its ramp phase is one of
slowing down, and the state does not brake on its own there. -/
def Axis.loadedPause (x : Axis) : Bool :=
  x.state = .homing && x.act.hostStep && x.vt ≠ 0 && x.homeSt ≠ 7 && (x.phase = 4 || x.phase = 5 || x.phase = 7) &&
    !(x.homeSt = 3 && !bit x.inFilt 0 && x.neg ≠ x.act.homeNeg)

/-- What a sequencer that loads a block does next: the motion, and the one that follows its braking. A REVSEARCH
that still moves in HOME_DIR brakes at DSTOP first; a FAILED axis brakes at DSTOP where a limit stands active, and a
stop without a category is that of a limit (R237, R241). A BACKOFF whose HOME input is inactive has its target.
DEDUCED (log entry 116): the block of R234 holds neither. -/
def Axis.motionOf (x : Axis) : AxMotion × AxMotion :=
  match x.state with
  | .moving => (.target, .none)
  | .stopping => (.brake (decide (x.stop ≠ 1)), .none)
  | .homing =>
    match x.homeSt.toNat with
    | 1 => (.seek x.act.homeNeg, .none)
    | 2 => if x.vt ≠ 0 && x.neg = x.act.homeNeg then (.brake true, .seek (!x.act.homeNeg)) else (.seek (!x.act.homeNeg), .none)
    | 3 => (if bit x.inFilt 0 then .seek (!x.act.homeNeg) else .target, .none)
    | 4 => (.seek x.act.homeNeg, .none)
    | 5 => (.brake false, .none)
    | 7 => (.brake (bit x.inFilt 1 || bit x.inFilt 2), .none)
    | _ => (.none, .none)
  | _ => (.none, .none)

/-- A sequencer of the new duty die loads a block (R221, R234), with the limits in force on that die; `stop` of the
axis is the category forwarded to it. -/
def Axis.loadBlock (b : List Byte) (x : Axis) : Axis :=
  let st := fieldAt b 0x18 1
  let ph := fieldAt b 0x19 1
  let cm := fieldAt b 0x1A 1
  let pos := (BitVec.ofNat 32 (fieldAt b 0 4)).toInt
  let y : Axis :=
    { x with p := pos * 2 ^ 48 + fieldAt b 4 6, vt := fieldAt b 0xC 8, target := BitVec.ofNat 32 (fieldAt b 0x14 4),
             state := AxState.ofCode (st % 8), neg := st / 8 % 2 = 1, homed := st / 16 % 2 = 1,
             waitStep := st / 32 % 2 = 1, phase := BitVec.ofNat 3 (ph % 8), homeSt := BitVec.ofNat 3 (ph / 8 % 8),
             armed := cm % 2 = 1, side := cm / 2 % 2 = 1, behind := cm / 4 % 2 = 1,
             ampSel := BitVec.ofNat 2 (fieldAt b 0x1B 1), holdLeft := fieldAt b 0x1C 4 }
  let x : Axis := { y with act := y.regs,
                           safe := y.state = .fault || y.state = .off || (y.state = .stopped && y.stop = 3) }
  let vm := if x.state = .homing then (if x.homeSt = 4 then x.act.homeVslow else x.act.homeVfast) else x.act.vmax
  let x := { x with lim := x.act.limits x.cfg.c60 vm, afterBrake := .none, pausing := x.loadedPause }
  let m := x.motionOf
  if x.waitStep then { x with heldMotion := m.1, motion := .none }
  else if x.pausing then
    { x with heldMotion := if m.2 = .none then m.1 else m.2, motion := .brake (m.1 = .brake true) }
  else { x with heldMotion := .none, motion := m.1, afterBrake := m.2 }

/-- `n` ticks of a sequencer. -/
def Die.seqTicks (a : Nat) : Nat → Die → Die
  | 0, d => d
  | n + 1, d => Die.seqTicks a n (d.seqTick a)

end Sys2Proof.Machine
end

