-- ==== Sys2Proof/Machine/Flags.lean ====
section
/-! DEFINITION. The flags of the loop engine and how results are fitted (R300, R305, R330). -/

namespace Sys2Proof.Machine

/-- FLG as a byte (R300). -/
def Flg.byte (f : Flg) : Nat :=
  flag f.z 0 + flag f.n 1 + flag f.v 2 + flag f.c 3 + flag f.s 4 + flag f.crv 5 + flag f.q 6

/-- FLG written whole by MTS: bits [6:0] as given (R339). -/
def Flg.ofWord (w : W32) : Flg :=
  { z := bit w 0, n := bit w 1, v := bit w 2, c := bit w 3, s := bit w 4, crv := bit w 5, q := bit w 6 }

/-- The branch conditions of R340. -/
def Flg.holds (f : Flg) (cond : Nat) : Bool :=
  match cond with
  | 0 => true
  | 1 => f.z
  | 2 => !f.z
  | 3 => f.n
  | 4 => !f.n
  | 5 => f.v
  | 6 => !f.v
  | 7 => f.c
  | 8 => !f.c
  | 9 => f.n == f.v
  | 10 => f.n != f.v
  | 11 => !f.z && f.n == f.v
  | 12 => f.z || f.n != f.v
  | 13 => f.q
  | 14 => !f.q
  | _ => false

/-- Z and N from a 32-bit result. -/
def EngRegs.setZN (v : W32) (g : EngRegs) : EngRegs :=
  { g with flg := { g.flg with z := decide (v = 0), n := v.msb } }

/-- Z and N from an accumulator result. -/
def EngRegs.setZNacc (v : BitVec 72) (g : EngRegs) : EngRegs :=
  { g with flg := { g.flg with z := decide (v = 0), n := v.msb } }

def EngRegs.setC (c : Bool) (g : EngRegs) : EngRegs := { g with flg := { g.flg with c := c } }
def EngRegs.setV (v : Bool) (g : EngRegs) : EngRegs := { g with flg := { g.flg with v := v } }

/-- The unsigned carry of an add, and the absence of a borrow of a subtract (R330). -/
def carryAdd (a b : W32) : Bool := decide (2 ^ 32 ≤ a.toNat + b.toNat)
def noBorrow (a b : W32) : Bool := decide (b.toNat ≤ a.toNat)

/-- An exact value lies outside a signed field of `w` bits. -/
def overflowS (w : Nat) (r : Int) : Bool := decide (clampS w r ≠ r)
def overflow72 (r : Int) : Bool := overflowS 72 r

/-- An exact result fitted to `w` bits: V, and S with saturation (R330). -/
def EngRegs.fitTo (w : Nat) (r : Int) (g : EngRegs) : BitVec w × EngRegs :=
  let ov := overflowS w r
  (if g.sat then BitVec.ofInt w (clampS w r) else BitVec.ofInt w r,
   { g with flg := { g.flg with v := ov, s := g.flg.s || (ov && g.sat) } })

def EngRegs.fit32 (r : Int) (g : EngRegs) : W32 × EngRegs := g.fitTo 32 r
def EngRegs.fit72 (r : Int) (g : EngRegs) : BitVec 72 × EngRegs := g.fitTo 72 r

/-- The rounding of R305 before the fit: toward minus infinity, or convergent. -/
def narrowInt (trunc : Bool) (a : Int) (s : Nat) : Int :=
  if trunc then Int.fdiv a (2 ^ s : Nat) else roundDiv a (2 ^ s)

/-- Consecutive bits below the sign bit that equal it (R304), from bit `i - 1` downward. -/
def rsbFrom {w : Nat} (v : BitVec w) : Nat → Nat
  | 0 => 0
  | i + 1 => if v.getLsbD i = v.msb then rsbFrom v i + 1 else 0

/-- Redundant sign bits (R304). -/
def rsb {w : Nat} (v : BitVec w) : Nat := rsbFrom v (w - 1)

end Sys2Proof.Machine
end

