-- ==== Sys2Proof/Machine/Operands.lean ====
section
/-! DEFINITION. Operands of the loop engine: registers, address modes, special registers, and when a
result is usable (R299, R303, R307, R320, R338, R339). -/

namespace Sys2Proof.Machine

def EngRegs.gx (g : EngRegs) (i : Fin 16) : W32 := vget g.x i
def EngRegs.ga (g : EngRegs) (i : Fin 4) : BitVec 72 := vget g.acc i
def EngRegs.putX (i : Fin 16) (v : W32) (g : EngRegs) : EngRegs := { g with x := vset g.x i v }
def EngRegs.putA (i : Fin 4) (v : BitVec 72) (g : EngRegs) : EngRegs := { g with acc := vset g.acc i v }

/-- R294: inside the data partition and aligned to 4 bytes. -/
def addrOk (a : BitVec 20) : Bool := decide (a.toNat < 0x6000) && decide (a.toNat % 4 = 0)

/-- postmod of R307. -/
def postmod (p b l : BitVec 20) (o : Int) : BitVec 20 :=
  if l = 0 then BitVec.ofInt 20 (p.toNat + o)
  else BitVec.ofInt 20 (b.toNat + Int.emod ((p.toNat : Int) - b.toNat + o) l.toNat)

/-- The pointer lies outside its circular buffer (R307). -/
def EngRegs.outside (g : EngRegs) (k : Fin 8) : Bool :=
  let l := (vget g.l k).toNat
  let b := (vget g.b k).toNat
  let p := (vget g.p k).toNat
  l ≠ 0 && !(b ≤ p && p < b + l)

/-- The address an access uses (R307). -/
def EngRegs.address (g : EngRegs) (m : MemOp) : BitVec 20 :=
  match m.mode with
  | .offset imm => vget g.p m.pk + imm.signExtend 20
  | _ => vget g.p m.pk

/-- The offset of a post-modify; none for a mode without one. -/
def EngRegs.postOfs (g : EngRegs) (m : MemOp) : Option Int :=
  match m.mode with
  | .postReg mj => some (vget g.m mj).toInt
  | .postImm imm => some imm.toInt
  | _ => none

/-- The pointer after the operand has been used (R307). -/
def EngRegs.postModify (m : MemOp) (g : EngRegs) : EngRegs :=
  match g.postOfs m with
  | none => g
  | some o => { g with p := vset g.p m.pk (postmod (vget g.p m.pk) (vget g.b m.pk) (vget g.l m.pk) o) }

/-- The four addresses of the memory bus (R303). -/
def EngRegs.busAddrs (g : EngRegs) (m : MemOp) : List (BitVec 20) :=
  let p := vget g.p m.pk
  (List.range 4).map fun i =>
    if g.outside m.pk then BitVec.ofNat 20 (p.toNat + 4 * i)
    else postmod p (vget g.b m.pk) (vget g.l m.pk) (4 * i : Nat)

/-- Extra cycles of a bus access: words beyond the first in the most loaded bank (R295, R303). -/
def bankExtra (as : List (BitVec 20)) : Nat :=
  let load (k : Nat) : Nat := (as.filter fun a => bits a 3 2 = k).length
  max (max (load 0) (load 1)) (max (load 2) (load 3)) - 1

/-- What MFS returns (R339). -/
def EngRegs.special (g : EngRegs) (s : Nat) : W32 :=
  let k : Fin 8 := Fin.ofNat 8 s
  if s < 0x08 then (vget g.p k).zeroExtend 32
  else if s < 0x10 then (vget g.m k).signExtend 32
  else if s < 0x18 then (vget g.b k).zeroExtend 32
  else if s < 0x20 then (vget g.l k).zeroExtend 32
  else match s with
    | 0x20 => (vget g.lc 0).zeroExtend 32
    | 0x21 => (vget g.lc 1).zeroExtend 32
    | 0x22 => BitVec.ofNat 32 g.flg.byte
    | 0x23 => BitVec.ofNat 32 (flag g.rnd 0 + flag g.sat 1)
    | 0x24 => g.qage.zeroExtend 32
    | 0x25 => g.cfs.zeroExtend 32
    | 0x26 => g.rcyc
    | 0x27 => BitVec.ofNat 32 (flag g.first 0 + flag g.resumed 1)
    | _ => 0

/-- What MTS writes: the low bits (R339). -/
def EngRegs.putSpecial (s : Nat) (v : W32) (g : EngRegs) : EngRegs :=
  let k : Fin 8 := Fin.ofNat 8 s
  let a : BitVec 20 := v.truncate 20
  if s < 0x08 then { g with p := vset g.p k a }
  else if s < 0x10 then { g with m := vset g.m k a }
  else if s < 0x18 then { g with b := vset g.b k a }
  else if s < 0x20 then { g with l := vset g.l k a }
  else match s with
    | 0x20 => { g with lc := vset g.lc 0 (v.truncate 16) }
    | 0x21 => { g with lc := vset g.lc 1 (v.truncate 16) }
    | 0x22 => { g with flg := Flg.ofWord v }
    | 0x23 => { g with rnd := bit v 0, sat := bit v 1 }
    | _ => g

/-! Hazards (R320, R338) -/

/-- The memory operand of an instruction. -/
def EngOp.mem : EngOp → Option MemOp
  | .ld _ m => some m
  | .st _ m => some m
  | .pmod m => some m
  | .qmac _ _ _ m => some m
  | .dmac _ _ _ _ m => some m
  | .nst _ _ m => some m
  | _ => none

/-- The general registers an instruction reads. -/
def EngOp.readsX : EngOp → List (Fin 16)
  | .add _ a b => [a, b] | .sub _ a b => [a, b] | .and _ a b => [a, b] | .or _ a b => [a, b]
  | .xor _ a b => [a, b] | .cmp a b => [a, b] | .min _ a b => [a, b] | .max _ a b => [a, b]
  | .abs _ a => [a] | .neg _ a => [a] | .mov _ a => [a]
  | .sll _ a b => [a, b] | .sra _ a b => [a, b] | .srl _ a b => [a, b]
  | .slli _ a _ => [a] | .srai _ a _ => [a] | .srli _ a _ => [a]
  | .expx _ a => [a] | .norm _ _ a => [a]
  | .addi _ a _ => [a] | .andi _ a _ => [a] | .ori _ a _ => [a] | .xori _ a _ => [a]
  | .cmpi a _ => [a] | .movh d _ => [d] | .st s _ => [s]
  | .muln _ a b _ => [a, b] | .mac _ _ _ a b => [a, b] | .qmac _ _ a _ => [a]
  | .dmac _ _ _ p _ => [Fin.ofNat 16 (2 * p.val), Fin.ofNat 16 (2 * p.val + 1)]
  | .mova _ _ a _ => [a] | .mts _ a => [a] | .putq s _ _ => [s]
  | _ => []

/-- Accumulators read as an accumulation. -/
def EngOp.addsAcc : EngOp → List (Fin 4)
  | .mac _ _ a _ _ => [a]
  | .qmac _ _ _ _ => [0, 1, 2, 3]
  | .dmac _ _ hi _ _ => if hi then [2, 3] else [0, 1]
  | .adda _ a _ => [a]
  | _ => []

/-- Accumulators read otherwise, which counts as a move (R338). -/
def EngOp.readsAcc : EngOp → List (Fin 4)
  | .adda _ _ s => [s]
  | .shra a _ => [a] | .shla a _ => [a] | .cpya _ s => [s]
  | .expxAcc _ a => [a] | .normAcc a _ => [a]
  | .nrw _ a _ => [a] | .nst a _ _ => [a]
  | _ => []

/-- The instruction is a MAC or a narrowing, which a write of EMODE delays. -/
def EngOp.usesMode : EngOp → Bool
  | .mac .. => true | .qmac .. => true | .dmac .. => true | .muln .. => true
  | .nrw .. => true | .nst .. => true
  | _ => false

/-- General registers written, with the k of R320. -/
def EngOp.writesX : EngOp → List (Fin 16 × Nat)
  | .add d _ _ => [(d, 1)] | .sub d _ _ => [(d, 1)] | .and d _ _ => [(d, 1)] | .or d _ _ => [(d, 1)]
  | .xor d _ _ => [(d, 1)] | .min d _ _ => [(d, 1)] | .max d _ _ => [(d, 1)]
  | .abs d _ => [(d, 1)] | .neg d _ => [(d, 1)] | .mov d _ => [(d, 1)]
  | .sll d _ _ => [(d, 1)] | .sra d _ _ => [(d, 1)] | .srl d _ _ => [(d, 1)]
  | .slli d _ _ => [(d, 1)] | .srai d _ _ => [(d, 1)] | .srli d _ _ => [(d, 1)]
  | .expx d _ => [(d, 1)] | .norm d c _ => [(d, 1), (c, 1)]
  | .addi d _ _ => [(d, 1)] | .andi d _ _ => [(d, 1)] | .ori d _ _ => [(d, 1)] | .xori d _ _ => [(d, 1)]
  | .movi d _ => [(d, 1)] | .movh d _ => [(d, 1)]
  | .expxAcc d _ => [(d, 1)] | .normAcc _ c => [(c, 1)] | .mfs d _ => [(d, 1)] | .time d => [(d, 1)]
  | .ld d _ => [(d, 2)] | .muln d _ _ _ => [(d, 2)] | .nrw d _ _ => [(d, 2)] | .getq d _ => [(d, 2)]
  | _ => []

/-- Accumulators written. -/
def EngOp.writesAcc : EngOp → List (Fin 4)
  | .mac _ _ a _ _ => [a]
  | .qmac _ _ _ _ => [0, 1, 2, 3]
  | .dmac _ _ hi _ _ => if hi then [2, 3] else [0, 1]
  | .clra a => [a] | .mova _ a _ _ => [a] | .adda _ a _ => [a] | .shra a _ => [a] | .shla a _ => [a]
  | .cpya a _ => [a] | .normAcc a _ => [a]
  | _ => []

/-- The address register that AMOV or MTS writes: class and index. -/
def EngOp.writesAddr : EngOp → Option (ACls × Fin 8)
  | .amov c k _ => some (c, k)
  | .mts s _ =>
    let k : Fin 8 := Fin.ofNat 8 s.toNat
    if s.toNat < 0x08 then some (.p, k) else if s.toNat < 0x10 then some (.m, k)
    else if s.toNat < 0x18 then some (.b, k) else if s.toNat < 0x20 then some (.l, k) else none
  | _ => none

def maxOf (l : List Nat) : Nat := l.foldl max 0

/-- The cycle in which an instruction issues (R320). -/
def Hazards.issueAt (h : Hazards) (op : EngOp) : Nat :=
  let mem := match op.mem with
    | none => 0
    | some m =>
      let base := max (vget h.p m.pk) (max (vget h.b m.pk) (vget h.l m.pk))
      match m.mode with
      | .postReg mj => max base (vget h.m mj)
      | _ => base
  let lc := match op with | .loop lvl _ => vget h.lc lvl | _ => 0
  maxOf [h.now, maxOf (op.readsX.map fun i => vget h.x i), maxOf (op.addsAcc.map fun i => vget h.accM i),
    maxOf (op.readsAcc.map fun i => vget h.accV i), mem, lc, if op.usesMode then h.emode else 0]

/-- The hazards after an instruction has issued (R320, R338). -/
def Hazards.issue (op : EngOp) (h : Hazards) : Hazards :=
  let t := h.issueAt op
  let h := { h with now := t + 1,
                    x := op.writesX.foldl (fun v w => vset v w.1 (t + w.2)) h.x,
                    accM := op.writesAcc.foldl (fun v a => vset v a (t + 1)) h.accM,
                    accV := op.writesAcc.foldl (fun v a => vset v a (t + 3)) h.accV }
  let h := match op.writesAddr with
    | some (.p, k) => { h with p := vset h.p k (t + 3) }
    | some (.m, k) => { h with m := vset h.m k (t + 3) }
    | some (.b, k) => { h with b := vset h.b k (t + 3) }
    | some (.l, k) => { h with l := vset h.l k (t + 3) }
    | none => h
  match op with
  | .mts s _ =>
    if s = 0x20 then { h with lc := vset h.lc 0 (t + 2) }
    else if s = 0x21 then { h with lc := vset h.lc 1 (t + 2) }
    else if s = 0x23 then { h with emode := t + 2 } else h
  | .loopi lvl _ _ => { h with lc := vset h.lc lvl (t + 2) }
  | _ => h

end Sys2Proof.Machine
end

