-- ==== Sys2Proof/Machine/Engine.lean ====
section
/-! DEFINITION. What each instruction of a loop engine does (chapters 09 and 10). -/

namespace Sys2Proof.Machine

/-- The fault causes of R323. -/
def causeIllegal : Nat := 1
def causeAddr : Nat := 2
def causeEcc : Nat := 3
def causeCflow : Nat := 4
def causeOverrun : Nat := 5
def causeQueue : Nat := 6

/-- What an instruction comes to: the die and where control goes (none: to the next index), or the
cause of an engine fault. -/
abbrev EngOut := Except Nat (Die × Option (BitVec 12))

def Die.engine (d : Die) (e : Fin 80) : Engine := vget d.eng e

def Die.updEng (e : Fin 80) (f : Engine → Engine) (d : Die) : Die := { d with eng := vupd d.eng e f }

def Die.updRegs (e : Fin 80) (f : EngRegs → EngRegs) (d : Die) : Die :=
  d.updEng e fun g => { g with regs := f g.regs }

/-- `n` cycles more before the next issue (R321, R347). -/
def Die.addCycles (e : Fin 80) (n : Nat) (d : Die) : Die :=
  d.updEng e fun g => { g with hz := { g.hz with now := g.hz.now + n } }

/-- The role an engine runs, as an engine number (R325). -/
def Engine.roleNum (g : Engine) : Option Nat :=
  if g.role = 0xFFFF then none else some (bits g.role 9 0)

/-- Two UIDs name the same unit on either die: KIND and INDEX agree (R11, R33). -/
def sameUnit (u v : W16) : Bool := bits u 13 0 = bits v 13 0

/-- BAR2 offsets of the program and data partitions and of the cairn buffers (R292, R568). -/
def progBase (e : Nat) : Nat := 0x02000000 + e / 5 * 0x40000 + e % 5 * 0x4000
def dataBase (e : Nat) : Nat := 0x02000000 + e / 5 * 0x40000 + 0x14000 + e % 5 * 0x6000
def cairnBase (role : Nat) (k : Bool) : Nat :=
  0x02000000 + role / 5 * 0x40000 + 0x3E000 + role % 5 * 0x800 + if k then 0x400 else 0

/-- Truncation is in force (R305, R306). -/
def Die.engTrunc (d : Die) (e : Fin 80) : Bool :=
  let st := (d.unit 0 e).state
  (d.engine e).regs.rnd || (d.engine e).replay || st = .off || st = .reset || st = .selftest

/-! Data memory -/

/-- A 64-bit SRAM word in a list of bad words holds the byte at `a`. -/
def inEccWord (l : List Nat) (a : Nat) : Bool := l.contains (a / 8 * 8)

/-- A correctable ECC error on a fetch or data read at a BAR2 offset: 2 cycles, counted, recorded
at most once in 1,024 cell cycles (R321, R326). -/
def Die.eccTouch (e : Fin 80) (a : Nat) (d : Die) : Die :=
  if inEccWord d.eccSoft a then
    let d := (d.addCycles e 2).updEng e fun g => { g with cnt := vupd g.cnt 3 satInc }
    let due := match (d.engine e).eccRec with
      | none => true
      | some c => decide (1024 ≤ (d.time.cyc - c).toNat)
    if due then
      (d.updEng e fun g => { g with eccRec := some d.time.cyc }).log .info (d.uid 0 e) 0xA6
    else d
  else d

/-- A word of the engine's data partition (R294), or an ADDR or ECC fault. -/
def Die.engLoad (e : Fin 80) (a : BitVec 20) (d : Die) : Except Nat W32 :=
  if addrOk a then
    if inEccWord d.eccBad (dataBase e + a.toNat) then .error causeEcc
    else .ok (d.sram.word (dataBase e + a.toNat))
  else .error causeAddr

/-- A word of the data partition written (R294); the whole word replaces a bad one. -/
def Die.engStore (e : Fin 80) (a : BitVec 20) (v : W32) (d : Die) : Die :=
  { d with sram := d.sram.putWord (dataBase e + a.toNat) v }

/-- CRV and the post-modified pointer of an access through a memory operand (R307). -/
def EngRegs.afterAccess (m : MemOp) (g : EngRegs) : EngRegs :=
  let g' := if g.outside m.pk then { g with flg := { g.flg with crv := true } } else g
  g'.postModify m

/-- The four words of the memory bus, in order, or a fault: ADDR before ECC (R303, R335, R323). -/
def Die.engBus (e : Fin 80) (m : MemOp) (d : Die) : Except Nat (List W32) :=
  let as := (d.engine e).regs.busAddrs m
  if as.all addrOk then
    if as.any fun a => inEccWord d.eccBad (dataBase e + a.toNat) then .error causeEcc
    else .ok (as.map fun a => d.sram.word (dataBase e + a.toNat))
  else .error causeAddr

/-- Bank conflicts and correctable errors of a memory bus access (R303, R321). -/
def Die.busCost (e : Fin 80) (m : MemOp) (d : Die) : Die :=
  let as := (d.engine e).regs.busAddrs m
  let extra := bankExtra as
  let d := (d.addCycles e extra).updEng e fun g => { g with cnt := vupd g.cnt 2 (satAdd extra) }
  as.foldl (fun d a => d.eccTouch e (dataBase e + a.toNat)) d

/-! The ALU group (R331, R332) -/

/-- A 32-bit result with its flags Z and N (R330). -/
def EngRegs.putZN (xd : Fin 16) (v : W32) (g : EngRegs) : EngRegs := (g.setZN v).putX xd v

/-- An exact result fitted to 32 bits, with Z, N, V and S (R330). -/
def EngRegs.putFit (xd : Fin 16) (r : Int) (g : EngRegs) : EngRegs :=
  let f := g.fit32 r
  f.2.putZN xd f.1

def engAdd (xd xa xb : Fin 16) (g : EngRegs) : EngRegs :=
  (g.putFit xd ((g.gx xa).toInt + (g.gx xb).toInt)).setC (carryAdd (g.gx xa) (g.gx xb))

def engSub (xd xa xb : Fin 16) (g : EngRegs) : EngRegs :=
  (g.putFit xd ((g.gx xa).toInt - (g.gx xb).toInt)).setC (noBorrow (g.gx xa) (g.gx xb))

def engAnd (xd xa xb : Fin 16) (g : EngRegs) : EngRegs := g.putZN xd (g.gx xa &&& g.gx xb)
def engOr (xd xa xb : Fin 16) (g : EngRegs) : EngRegs := g.putZN xd (g.gx xa ||| g.gx xb)
def engXor (xd xa xb : Fin 16) (g : EngRegs) : EngRegs := g.putZN xd (g.gx xa ^^^ g.gx xb)

/-- Flags of a wrapped subtraction; nothing written (R331). -/
def engCompare (a b : W32) (g : EngRegs) : EngRegs :=
  ((g.setZN (a - b)).setV (decide ((a - b).toInt ≠ a.toInt - b.toInt))).setC (noBorrow a b)

def engCmp (xa xb : Fin 16) (g : EngRegs) : EngRegs := engCompare (g.gx xa) (g.gx xb) g

def engMin (xd xa xb : Fin 16) (g : EngRegs) : EngRegs :=
  g.putZN xd (if (g.gx xa).toInt ≤ (g.gx xb).toInt then g.gx xa else g.gx xb)

def engMax (xd xa xb : Fin 16) (g : EngRegs) : EngRegs :=
  g.putZN xd (if (g.gx xa).toInt ≤ (g.gx xb).toInt then g.gx xb else g.gx xa)

def engAbs (xd xa : Fin 16) (g : EngRegs) : EngRegs := g.putFit xd ((g.gx xa).toInt.natAbs : Int)
def engNeg (xd xa : Fin 16) (g : EngRegs) : EngRegs := g.putFit xd (-(g.gx xa).toInt)
def engMov (xd xa : Fin 16) (g : EngRegs) : EngRegs := g.putZN xd (g.gx xa)

/-- The shift amount of a register: bits [5:0] (R331). -/
def shiftOf (v : W32) : Nat := bits v 5 0

def engShl (xd xa : Fin 16) (n : Nat) (g : EngRegs) : EngRegs :=
  g.putFit xd ((g.gx xa).toInt * (2 ^ n : Nat))

def engSra (xd xa : Fin 16) (n : Nat) (g : EngRegs) : EngRegs :=
  g.putZN xd ((g.gx xa).sshiftRight n)

def engSrl (xd xa : Fin 16) (n : Nat) (g : EngRegs) : EngRegs := g.putZN xd (g.gx xa >>> n)

def engSll (xd xa xb : Fin 16) (g : EngRegs) : EngRegs := engShl xd xa (shiftOf (g.gx xb)) g
def engSraR (xd xa xb : Fin 16) (g : EngRegs) : EngRegs := engSra xd xa (shiftOf (g.gx xb)) g
def engSrlR (xd xa xb : Fin 16) (g : EngRegs) : EngRegs := engSrl xd xa (shiftOf (g.gx xb)) g

def engExpx (xd xa : Fin 16) (g : EngRegs) : EngRegs :=
  g.putX xd (BitVec.ofNat 32 (rsb (g.gx xa)))

/-- NORM: the count wins where both destinations are one register (R331). -/
def engNorm (xd xc xa : Fin 16) (g : EngRegs) : EngRegs :=
  let n := rsb (g.gx xa)
  (g.putZN xd (g.gx xa <<< n)).putX xc (BitVec.ofNat 32 n)

def engAddi (xd xa : Fin 16) (imm : BitVec 18) (g : EngRegs) : EngRegs :=
  (g.putFit xd ((g.gx xa).toInt + imm.toInt)).setC (carryAdd (g.gx xa) (imm.signExtend 32))

def engAndi (xd xa : Fin 16) (imm : BitVec 18) (g : EngRegs) : EngRegs :=
  g.putZN xd (g.gx xa &&& imm.zeroExtend 32)
def engOri (xd xa : Fin 16) (imm : BitVec 18) (g : EngRegs) : EngRegs :=
  g.putZN xd (g.gx xa ||| imm.zeroExtend 32)
def engXori (xd xa : Fin 16) (imm : BitVec 18) (g : EngRegs) : EngRegs :=
  g.putZN xd (g.gx xa ^^^ imm.zeroExtend 32)

def engCmpi (xa : Fin 16) (imm : BitVec 18) (g : EngRegs) : EngRegs :=
  engCompare (g.gx xa) (imm.signExtend 32) g

def engMovi (xd : Fin 16) (imm : BitVec 22) (g : EngRegs) : EngRegs := g.putX xd (imm.signExtend 32)

def engMovh (xd : Fin 16) (imm : BitVec 16) (g : EngRegs) : EngRegs :=
  g.putX xd (BitVec.ofNat 32 (imm.toNat * 65536 + (g.gx xd).toNat % 65536))

/-! Memory (R333) -/

def engLd (e : Fin 80) (xd : Fin 16) (m : MemOp) (d : Die) : EngOut :=
  let a := (d.engine e).regs.address m
  match d.engLoad e a with
  | .error c => .error c
  | .ok v =>
    .ok (((d.eccTouch e (dataBase e + a.toNat)).updRegs e fun g => (g.afterAccess m).putX xd v), none)

def engSt (e : Fin 80) (xs : Fin 16) (m : MemOp) (d : Die) : EngOut :=
  let g := (d.engine e).regs
  let a := g.address m
  if addrOk a then
    .ok ((d.engStore e a (g.gx xs)).updRegs e (EngRegs.afterAccess m), none)
  else .error causeAddr

def engPmod (m : MemOp) (g : EngRegs) : EngRegs := g.postModify m

/-! Multiply and accumulate (R334-R337) -/

def engMuln (xd xa xb : Fin 16) (sh : BitVec 6) (trunc : Bool) (g : EngRegs) : EngRegs :=
  g.putFit xd (narrowInt trunc ((g.gx xa).toInt * (g.gx xb).toInt) sh.toNat)

/-- One accumulation: the accumulator, or 0 with .Z, plus or minus a product (R302, R335). -/
def accBase (z : Bool) (a : BitVec 72) : Int := if z then 0 else a.toInt
def signed (neg : Bool) (v : Int) : Int := if neg then -v else v

def engMac (neg z : Bool) (accd : Fin 4) (xa xb : Fin 16) (g : EngRegs) : EngRegs :=
  let f := g.fit72 (accBase z (g.ga accd) + signed neg ((g.gx xa).toInt * (g.gx xb).toInt))
  (f.2.setZNacc f.1).putA accd f.1

/-- Several accumulators at once: V and S if any overflows (R335). -/
def EngRegs.putAccs (l : List (Fin 4 × Int)) (g : EngRegs) : EngRegs :=
  let ov := l.any fun p => overflow72 p.2
  let g' := l.foldl (fun g' p => g'.putA p.1 (g.fit72 p.2).1) g
  { g' with flg := { g'.flg with v := ov, s := g'.flg.s || (ov && g.sat) } }

def engQmac (e : Fin 80) (neg z : Bool) (xa : Fin 16) (m : MemOp) (d : Die) : EngOut :=
  match d.engBus e m with
  | .error c => .error c
  | .ok ws =>
    let g := (d.engine e).regs
    let x := (g.gx xa).toInt
    let sums := (List.finRange 4).map fun i =>
      (i, accBase z (g.ga i) + signed neg (x * ((ws[i.val]?).getD 0).toInt))
    .ok ((d.busCost e m).updRegs e (fun g => (g.putAccs sums).afterAccess m), none)

def engDmac (e : Fin 80) (neg z hi : Bool) (pair : Fin 8) (m : MemOp) (d : Die) : EngOut :=
  match d.engBus e m with
  | .error c => .error c
  | .ok ws =>
    let g := (d.engine e).regs
    let w (i : Nat) : Int := ((ws[i]?).getD 0).toInt
    let x0 := (g.gx (Fin.ofNat 16 (2 * pair.val))).toInt
    let x1 := (g.gx (Fin.ofNat 16 (2 * pair.val + 1))).toInt
    let a0 : Fin 4 := if hi then 2 else 0
    let a1 : Fin 4 := if hi then 3 else 1
    let sums := [(a0, accBase z (g.ga a0) + signed neg (x0 * w 0 + x1 * w 1)),
                 (a1, accBase z (g.ga a1) + signed neg (x0 * w 2 + x1 * w 3))]
    .ok ((d.busCost e m).updRegs e (fun g => (g.putAccs sums).afterAccess m), none)

def engClra (accd : Fin 4) (g : EngRegs) : EngRegs := g.putA accd 0

def engMova (neg : Bool) (accd : Fin 4) (xa : Fin 16) (sh : BitVec 6) (g : EngRegs) : EngRegs :=
  let f := g.fit72 (signed neg ((g.gx xa).toInt * (2 ^ sh.toNat : Nat)))
  f.2.putA accd f.1

def engAdda (neg : Bool) (accd accs : Fin 4) (g : EngRegs) : EngRegs :=
  let f := g.fit72 ((g.ga accd).toInt + signed neg (g.ga accs).toInt)
  (f.2.setZNacc f.1).putA accd f.1

def engShra (accd : Fin 4) (sh : BitVec 6) (g : EngRegs) : EngRegs :=
  let r := (g.ga accd).sshiftRight sh.toNat
  (g.setZNacc r).putA accd r

def engShla (accd : Fin 4) (sh : BitVec 6) (g : EngRegs) : EngRegs :=
  let f := g.fit72 ((g.ga accd).toInt * (2 ^ sh.toNat : Nat))
  (f.2.setZNacc f.1).putA accd f.1

def engCpya (accd accs : Fin 4) (g : EngRegs) : EngRegs := g.putA accd (g.ga accs)

def engExpxAcc (xd : Fin 16) (accd : Fin 4) (g : EngRegs) : EngRegs :=
  g.putX xd (BitVec.ofNat 32 (rsb (g.ga accd)))

def engNormAcc (accd : Fin 4) (xc : Fin 16) (g : EngRegs) : EngRegs :=
  let n := rsb (g.ga accd)
  let r := g.ga accd <<< n
  ((g.setZNacc r).putA accd r).putX xc (BitVec.ofNat 32 n)

def engNrw (xd : Fin 16) (acc : Fin 4) (sh : BitVec 6) (trunc : Bool) (g : EngRegs) : EngRegs :=
  g.putFit xd (narrowInt trunc (g.ga acc).toInt sh.toNat)

def engNst (e : Fin 80) (acc : Fin 4) (sh : BitVec 6) (m : MemOp) (d : Die) : EngOut :=
  let g := (d.engine e).regs
  let a := g.address m
  if addrOk a then
    let f := g.fit32 (narrowInt (d.engTrunc e) (g.ga acc).toInt sh.toNat)
    .ok ((d.engStore e a f.1).updRegs e (fun _ => f.2.afterAccess m), none)
  else .error causeAddr

/-! Address and special registers (R339) -/

def engAmov (cls : ACls) (k : Fin 8) (imm : BitVec 20) (g : EngRegs) : EngRegs :=
  match cls with
  | .p => { g with p := vset g.p k imm }
  | .m => { g with m := vset g.m k imm }
  | .b => { g with b := vset g.b k imm }
  | .l => { g with l := vset g.l k imm }

def engMfs (xd : Fin 16) (sreg : BitVec 6) (g : EngRegs) : EngRegs := g.putX xd (g.special sreg.toNat)

def engMts (sreg : BitVec 6) (xa : Fin 16) (g : EngRegs) : EngRegs := g.putSpecial sreg.toNat (g.gx xa)

/-! Program flow (R340-R343) -/

def engBranch (e : Fin 80) (cond : BitVec 4) (target : BitVec 12) (d : Die) : EngOut :=
  if (d.engine e).regs.flg.holds cond.toNat then .ok (d.addCycles e 2, some target) else .ok (d, none)

def engCall (e : Fin 80) (target : BitVec 12) (d : Die) : EngOut :=
  let g := d.engine e
  if g.stack.length < 4 then
    .ok ((d.addCycles e 2).updEng e (fun g => { g with stack := (g.pc + 1) :: g.stack }), some target)
  else .error causeIllegal

def engRet (e : Fin 80) (d : Die) : EngOut :=
  match (d.engine e).stack with
  | [] => .error causeIllegal
  | t :: r => .ok ((d.addCycles e 2).updEng e (fun g => { g with stack := r }), some t)

def Engine.loopAt (g : Engine) (lvl : Fin 2) : Option LoopRec := if lvl = 0 then g.loop0 else g.loop1

def Engine.setLoop (lvl : Fin 2) (r : Option LoopRec) (g : Engine) : Engine :=
  if lvl = 0 then { g with loop0 := r } else { g with loop1 := r }

/-- LOOP with the count in LC: a count of 0 passes control to end + 1 (R317, R342). -/
def engLoop (e : Fin 80) (lvl : Fin 2) (last : BitVec 12) (d : Die) : EngOut :=
  let g := d.engine e
  if (g.loopAt lvl).isSome then .error causeIllegal
  else if vget g.regs.lc lvl = 0 then .ok (d.addCycles e 2, some (last + 1))
  else .ok (d.updEng e (Engine.setLoop lvl (some { first := g.pc + 1, last := last })), none)

def engLoopi (e : Fin 80) (lvl : Fin 2) (cnt last : BitVec 12) (d : Die) : EngOut :=
  if ((d.engine e).loopAt lvl).isSome then .error causeIllegal
  else engLoop e lvl last (d.updRegs e fun g => { g with lc := vset g.lc lvl (cnt.zeroExtend 16) })

/-- TIME_NS in stage E1, 3 CLK_ENG cycles after the issue cycle: 4 such cycles make a tick, counted from the tick at
which the run started, or from the tick in progress where that is later (R319, log entry 25). -/
def Die.timeAtE1 (e : Fin 80) (d : Die) : W32 :=
  let g := d.engine e
  let issue := g.hz.now - 1
  let at' := max (g.startPer + (issue + 3) / 4) (d.time.per + (issue % 4 + 3) / 4)
  (d.elapse (at' - d.time.per)).time.ns

def engTime (e : Fin 80) (xd : Fin 16) (d : Die) : EngOut :=
  .ok (d.updRegs e (EngRegs.putX xd (d.timeAtE1 e)), none)

def engSig (imm : BitVec 16) (g : EngRegs) : EngRegs := { g with cfs := g.cfs ^^^ imm }

def engNop (g : EngRegs) : EngRegs := g

/-! Cairns (R313, R314, R346) -/

/-- The bytes of the selected registers, then of the ranges (R313). -/
def Die.cairnRecord (d : Die) (e : Fin 80) : List Byte :=
  let g := d.engine e
  let r := g.regs
  let xs := (List.finRange 16).flatMap fun (i : Fin 16) => if bit g.rm0 i then leBytes 4 (vget r.x i).toNat else []
  let accs := (List.finRange 4).flatMap fun (i : Fin 4) =>
    if bit g.rm0 (16 + i) then leBytes 12 ((vget r.acc i).signExtend 96).toNat else []
  let adr (base : Nat) (v : Vector (BitVec 20) 8) : List Byte := (List.finRange 8).flatMap fun (i : Fin 8) =>
    if bit g.rm1 (base + i) then leBytes 4 (vget v i).toNat else []
  let fl := if bit g.rm0 20 then
    leBytes 1 (r.flg.byte) ++ leBytes 1 (flag r.rnd 0 + flag r.sat 1) ++ [0, 0] else []
  let rngs := (List.finRange 4).flatMap fun (i : Fin 4) =>
    let w := vget g.rng i
    d.sram.read 0 (dataBase e + bits w 15 0) (bits w 31 16)
  xs ++ accs ++ adr 0 r.p ++ adr 8 r.m ++ adr 16 r.b ++ adr 24 r.l ++ fl ++ rngs

/-- A cairn record put back into an engine: registers outside the mask are as after image load
(R313, R315). The bytes are taken in the order of the record. -/
def Die.applyCairn (e : Fin 80) (rec : List Byte) (d : Die) : Die :=
  let g := d.engine e
  let stepX (s : EngRegs × List Byte) (i : Fin 16) : EngRegs × List Byte :=
    if bit g.rm0 i then (s.1.putX i (BitVec.ofNat 32 (leNat (s.2.take 4))), s.2.drop 4) else s
  let stepA (s : EngRegs × List Byte) (i : Fin 4) : EngRegs × List Byte :=
    if bit g.rm0 (16 + i) then (s.1.putA i (BitVec.ofNat 72 (leNat (s.2.take 9))), s.2.drop 12) else s
  let stepR (c : ACls) (base : Nat) (s : EngRegs × List Byte) (i : Fin 8) : EngRegs × List Byte :=
    if bit g.rm1 (base + i) then (engAmov c i (BitVec.ofNat 20 (leNat (s.2.take 4))) s.1, s.2.drop 4)
    else s
  let s := (List.finRange 16).foldl stepX (({} : EngRegs), rec)
  let s := (List.finRange 4).foldl stepA s
  let s := (List.finRange 8).foldl (stepR .p 0) s
  let s := (List.finRange 8).foldl (stepR .m 8) s
  let s := (List.finRange 8).foldl (stepR .b 16) s
  let s := (List.finRange 8).foldl (stepR .l 24) s
  let s := if bit g.rm0 20 then
      let fb := BitVec.ofNat 32 (fieldAt s.2 0 1)
      let eb := BitVec.ofNat 8 (fieldAt s.2 1 1)
      ({ (s.1.putSpecial 0x22 fb) with rnd := bit eb 0, sat := bit eb 1 }, s.2.drop 4)
    else s
  let r := (List.finRange 4).foldl (fun (q : Memory × List Byte) i =>
    let w := vget g.rng i
    let n := bits w 31 16
    (q.1.write 0 (dataBase e + bits w 15 0) (sliceBytes q.2 0 n), q.2.drop n)) (d.sram, s.2)
  ({ d with sram := r.1 }).updRegs e fun _ => s.1

/-- CAIRN (R313, R346): the record, then the axis blocks of the role's axes (R234). -/
def engCairn (e : Fin 80) (d : Die) : EngOut :=
  let n := ((d.engine e).size.toNat + 15) / 16
  let blocks := match (d.engine e).roleNum with
    | some r => d.axisBlocks r
    | none => []
  let record := d.cairnRecord e ++ blocks
  .ok ((d.addCycles e n).updEng e (fun g => { g with snapshot := some record }), none)

/-! Queue ports (R310-R312, R344, R345) -/

/-- The binding of a port of the role an engine serves. -/
def Die.bind (d : Die) (e : Fin 80) (qp : Fin 16) : Option PortBind :=
  match (d.engine e).roleNum with
  | none => none
  | some r => d.img.ports.find? fun b => b.eng = r && b.port = qp

def Die.updPortRun (e : Fin 80) (qp : Fin 16) (f : PortRun → PortRun) (d : Die) : Die :=
  d.updEng e fun g => { g with ports := vupd g.ports qp f }

/-- Time since the start of the cell cycle in ns. -/
def Die.sinceStart (d : Die) : Nat := (d.time.ns - d.time.start).toNat

/-- The committed group with target RCYC is at the queue (R310). -/
def Queue.ready (q : Queue) (cyc : W32) : Bool :=
  q.rebind = 0 && q.ring.any fun x => x.commit && x.tgt = tgtOf cyc

/-- A port delivers words to the run: Q, QAGE and the words GETQ will read (R310, R344). -/
def Die.deliver (e : Fin 80) (qp : Fin 16) (sub : Bool) (age : Byte) (words : List W32) (d : Die) : Die :=
  (d.updPortRun e qp fun p => { p with waited := true, sub := sub, age := age, words := words, next := 0 }
    ).updRegs e fun g => { g with qage := age, flg := { g.flg with q := sub } }

/-- The substitute of a port (R310): the last delivered group, or zeros with QAGE = 255. -/
def Die.substitute (e : Fin 80) (qp : Fin 16) (b : PortBind) (d : Die) : Die :=
  let q := d.queue b.queue
  match q.lastCyc with
  | none => d.deliver e qp true 255 (List.replicate (b.entries * q.words) 0)
  | some c =>
    let k := ((d.engine e).regs.rcyc - c).toNat
    d.deliver e qp true (BitVec.ofNat 8 (min k 255)) q.lastGroup

/-- The dequeue of WAITQ for RCYC: the group, or an underrun and a substitute (R159, R310). -/
def Die.waitDone (e : Fin 80) (qp : Fin 16) (b : PortBind) (d : Die) : Die :=
  let cyc := (d.engine e).regs.rcyc
  match d.dequeue b.queue cyc true with
  | (some g, d') =>
    let ws := g.flatMap (·.payload)
    (d'.updQueue b.queue fun q => { q with lastGroup := ws, lastCyc := some cyc }).deliver e qp false 0 ws
  | (none, d') => d'.substitute e qp b

def engWaitq (e : Fin 80) (qp : Fin 16) (d : Die) : EngOut :=
  match d.bind e qp with
  | none => .error causeQueue
  | some b =>
    let g := d.engine e
    let p := vget g.ports qp
    if !b.consumer then .error causeQueue
    else if p.waited then .ok (d.deliver e qp p.sub p.age p.words, none)
    else if g.replay then .ok (d.substitute e qp b, none)
    else
      let t := d.sinceStart
      let fs := b.fStart.getD 0
      if ((d.queue b.queue).ready g.regs.rcyc && decide (fs ≤ t)) || decide (max b.waitNs fs ≤ t) then
        .ok (d.waitDone e qp b, none)
      else .ok (d.updEng e (fun g => { g with wait := .group qp }), none)

def engGetq (e : Fin 80) (xd qp : Fin 16) (d : Die) : EngOut :=
  match d.bind e qp with
  | none => .error causeQueue
  | some b =>
    let p := vget (d.engine e).ports qp
    if !b.consumer || !p.waited then .error causeQueue
    else match p.words[p.next]? with
      | none => .error causeQueue
      | some w => .ok ((d.updPortRun e qp fun p => { p with next := p.next + 1 }).updRegs e
          (EngRegs.putX xd w), none)

/-- The entry built on a port enters its queue, is discarded, or waits for the window (R157, R345). -/
def Die.putEntry (e : Fin 80) (qp : Fin 16) (b : PortBind) (last : Bool) (d : Die) : Die :=
  let p := vget (d.engine e).ports qp
  let tgt := tgtOf ((d.engine e).regs.rcyc + BitVec.ofNat 32 b.tofs)
  match d.enqueue b.queue (p.credit.getD 0) tgt last p.build with
  | (.wait, d') => d'.updEng e fun g => { g with wait := .lookout qp last }
  | (.stall, d') => d'
  | (.late, d') => d'.updPortRun e qp fun p => { p with build := [] }
  | (.order, d') => d'.updPortRun e qp fun p => { p with build := [] }
  | (_, d') => d'.updPortRun e qp fun p => { p with build := [], credit := none }

def engPutq (e : Fin 80) (xs qp : Fin 16) (last : Bool) (d : Die) : EngOut :=
  match d.bind e qp with
  | none => .error causeQueue
  | some b =>
    let g := d.engine e
    let p := vget g.ports qp
    let q := d.queue b.queue
    let full := p.build.length + 1 = q.words
    if b.consumer || (last && !full) then .error causeQueue
    else
      let build := p.build ++ [g.regs.gx xs]
      if g.replay then
        .ok (d.updPortRun e qp (fun p => { p with build := if full then [] else build }), none)
      else
        let got : Option Die := if p.credit.isSome then some d else
          q.take.map fun q' => (d.updQueue b.queue fun _ => q').updPortRun e qp fun p =>
            { p with credit := some q.epoch }
        match got with
        | none => .ok ((d.updQueue b.queue Queue.stall).updEng e
            (fun g => { g with wait := .credit xs qp last, stallAt := d.time.per }), none)
        | some d' =>
          let d' := d'.updPortRun e qp fun p => { p with build := build }
          .ok (if full then d'.putEntry e qp b last else d', none)

/-! END (R312, R314, R318, R343) -/

/-- The entries of the newest group, while it is open, are removed with their credits (R312). -/
def Queue.dropOpen (q : Queue) : Queue :=
  let keep := (q.ring.reverse.dropWhile fun x => !x.last).reverse
  { q with ring := keep, taken := 0, nextSlot := q.backSlot (q.ring.length - keep.length) }

/-- The ports of a role at the end of its run: open entries go, dequeued groups are released
(R155, R312). -/
def Die.closePorts (e : Fin 80) (d : Die) : Die :=
  match (d.engine e).roleNum with
  | none => d
  | some r => (d.img.ports.filter fun b => b.eng = r).foldl (fun d b =>
      d.updQueue b.queue fun q => if b.consumer then q.release else q.dropOpen) d

/-- The CA queue of a role (R149, R314). -/
def Die.caQueue (d : Die) (role : Nat) : Option Nat :=
  d.findQueue fun q => q.cls = .ca && sameUnit q.prod (Sys2Proof.Machine.uid 0 0 role)

/-- A cairn buffer: the header of R314 and the record with its axis blocks. -/
def cairnBuffer (cyc : W32) (epoch : Byte) (rec : List Byte) : List Byte :=
  leBytes 4 cyc.toNat ++ [epoch, 0] ++ leBytes 2 rec.length ++ leBytes 4 (crc32c rec).toNat
    ++ [0, 0, 0, 0] ++ rec

/-- The cairn writer: the buffer that does not hold the last committed cairn takes the new one, and
the duty die streams it (R314, R466). `law` is what a library program's cairn holds beside the bytes
(R650). -/
def Die.writeCairn (role : Nat) (cyc : W32) (epoch : Byte) (rec : List Byte) (law : CairnState) (d : Die) : Die :=
  let k := !((d.cairnSel[role]?).getD false)
  let buf := cairnBuffer cyc epoch rec
  let d := { d with sram := d.sram.write 0 (cairnBase role k) buf,
                    cairnSel := d.cairnSel.setIfInBounds role k,
                    cairnState := d.cairnState.setIfInBounds role law }
  let d := { d with red := { d.red with cairnCyc := d.red.cairnCyc.setIfInBounds role (some cyc) } }
  if d.red.grant && d.red.linkUp then
    { d with red := { d.red with cairnTx := d.red.cairnTx ++ [(role, buf, law)] } }
  else d

/-- No cairn is placed in a cycle: the CA queue underruns (R159, R314). -/
def Die.noCairn (r : Nat) (cyc : W32) (d : Die) : Die :=
  match d.caQueue r with
  | none => d
  | some q => (d.dequeue q cyc false).2

/-- At END the newest snapshot is placed in the CA queue with target RCYC; without a credit it is
discarded. The cairn writer takes the committed entry of the cycle (R150, R159, R314). -/
def Die.placeCairn (e : Fin 80) (d : Die) : Die :=
  let g := d.engine e
  match g.roleNum, g.snapshot with
  | some r, some rec =>
    match d.caQueue r with
    | none => d
    | some q =>
      let cyc := g.regs.rcyc
      let d := match (d.queue q).take with
        | none => d.updQueue q Queue.stall
        | some x => ((d.updQueue q fun _ => x).enqueue q x.epoch (tgtOf cyc) true
            (rec.map fun (b : Byte) => b.zeroExtend 32)).2
      match d.dequeue q cyc false with
      | (some (x :: _), d') => d'.writeCairn r cyc x.epoch rec g.snapLaw
      | (_, d') => d'
  | some r, none => d.noCairn r g.regs.rcyc
  | _, _ => d

/-- The run ends (R300, R312, R314, R324). -/
def Die.finishRun (e : Fin 80) (d : Die) : Die :=
  let g := d.engine e
  let newCrv := g.regs.flg.crv && !g.stickyCrv
  let cyc := BitVec.ofNat 32 g.hz.now
  let d := d.updEng e fun g =>
    { g with stickyS := g.stickyS || g.regs.flg.s, stickyCrv := g.stickyCrv || g.regs.flg.crv,
             running := false, replay := false, wait := .none, runCyc := cyc,
             runMax := if g.runMax.toNat < cyc.toNat then cyc else g.runMax,
             cnt := vupd g.cnt 0 satInc }
  let d := if newCrv then d.log .info (d.uid 0 e) 0xA7 else d
  if g.replay then d else (d.closePorts e).placeCairn e

/-! Issue, loops and the program counter -/

/-- Where control goes after the instruction at `pc`: the loops of R317 and R342 at their ends. -/
def Engine.loopEnd (g : Engine) (lvl : Fin 2) (r : LoopRec) : Engine × BitVec 12 :=
  let lc := vget g.regs.lc lvl
  if lc.toNat ≤ 1 then
    ({ g with regs := { g.regs with lc := vset g.regs.lc lvl 0 } }.setLoop lvl none, g.pc + 1)
  else ({ g with regs := { g.regs with lc := vset g.regs.lc lvl (lc - 1) } }, r.first)

/-- The next index without a jump. -/
def Engine.advance (g : Engine) : Engine :=
  let r := match g.loop1, g.loop0 with
    | some r1, l0 =>
      if g.pc = r1.last then g.loopEnd 1 r1
      else match l0 with
        | some r0 => if g.pc = r0.last then g.loopEnd 0 r0 else (g, g.pc + 1)
        | none => (g, g.pc + 1)
    | none, some r0 => if g.pc = r0.last then g.loopEnd 0 r0 else (g, g.pc + 1)
    | none, none => (g, g.pc + 1)
  { r.1 with pc := r.2 }

/-- A taken branch: it ends every loop whose body it leaves (R317). -/
def Engine.jump (t : BitVec 12) (g : Engine) : Engine :=
  let keep (r : Option LoopRec) : Option LoopRec :=
    r.filter fun r => r.first.toNat ≤ t.toNat && t.toNat ≤ r.last.toNat
  { g with pc := t, loop0 := keep g.loop0, loop1 := keep g.loop1 }

/-- What one instruction does, before the program counter moves. -/
def Die.engOp (e : Fin 80) (op : EngOp) (d : Die) : EngOut :=
  let alu (f : EngRegs → EngRegs) : EngOut := .ok (d.updRegs e f, none)
  match op with
  | .add xd xa xb => alu (engAdd xd xa xb)
  | .sub xd xa xb => alu (engSub xd xa xb)
  | .and xd xa xb => alu (engAnd xd xa xb)
  | .or xd xa xb => alu (engOr xd xa xb)
  | .xor xd xa xb => alu (engXor xd xa xb)
  | .cmp xa xb => alu (engCmp xa xb)
  | .min xd xa xb => alu (engMin xd xa xb)
  | .max xd xa xb => alu (engMax xd xa xb)
  | .abs xd xa => alu (engAbs xd xa)
  | .neg xd xa => alu (engNeg xd xa)
  | .mov xd xa => alu (engMov xd xa)
  | .sll xd xa xb => alu (engSll xd xa xb)
  | .sra xd xa xb => alu (engSraR xd xa xb)
  | .srl xd xa xb => alu (engSrlR xd xa xb)
  | .slli xd xa sh => alu (engShl xd xa sh.toNat)
  | .srai xd xa sh => alu (engSra xd xa sh.toNat)
  | .srli xd xa sh => alu (engSrl xd xa sh.toNat)
  | .expx xd xa => alu (engExpx xd xa)
  | .norm xd xc xa => alu (engNorm xd xc xa)
  | .addi xd xa imm => alu (engAddi xd xa imm)
  | .andi xd xa imm => alu (engAndi xd xa imm)
  | .ori xd xa imm => alu (engOri xd xa imm)
  | .xori xd xa imm => alu (engXori xd xa imm)
  | .cmpi xa imm => alu (engCmpi xa imm)
  | .movi xd imm => alu (engMovi xd imm)
  | .movh xd imm => alu (engMovh xd imm)
  | .ld xd m => engLd e xd m d
  | .st xs m => engSt e xs m d
  | .pmod m => alu (engPmod m)
  | .muln xd xa xb sh => alu (engMuln xd xa xb sh (d.engTrunc e))
  | .mac neg z accd xa xb => alu (engMac neg z accd xa xb)
  | .qmac neg z xa m => engQmac e neg z xa m d
  | .dmac neg z hi pair m => engDmac e neg z hi pair m d
  | .clra accd => alu (engClra accd)
  | .mova neg accd xa sh => alu (engMova neg accd xa sh)
  | .adda neg accd accs => alu (engAdda neg accd accs)
  | .shra accd sh => alu (engShra accd sh)
  | .shla accd sh => alu (engShla accd sh)
  | .cpya accd accs => alu (engCpya accd accs)
  | .expxAcc xd accd => alu (engExpxAcc xd accd)
  | .normAcc accd xc => alu (engNormAcc accd xc)
  | .nrw xd acc sh => alu (engNrw xd acc sh (d.engTrunc e))
  | .nst acc sh m => engNst e acc sh m d
  | .amov cls k imm => alu (engAmov cls k imm)
  | .mfs xd sreg => alu (engMfs xd sreg)
  | .mts sreg xa => alu (engMts sreg xa)
  | .branch cond target => engBranch e cond target d
  | .call target => engCall e target d
  | .ret => engRet e d
  | .loop lvl last => engLoop e lvl last d
  | .loopi lvl cnt last => engLoopi e lvl cnt last d
  | .waitq qp => engWaitq e qp d
  | .getq xd qp => engGetq e xd qp d
  | .putq xs qp last => engPutq e xs qp last d
  | .time xd => engTime e xd d
  | .cairn => engCairn e d
  | .sig imm => alu (engSig imm)
  | .endRun imm =>
    if (d.engine e).regs.cfs = imm then .ok (d, none) else .error causeCflow
  | .nop => alu engNop

/-- The control step after an instruction: a jump, the next index, or a wait in place. -/
def Die.engNext (e : Fin 80) (r : Die × Option (BitVec 12)) : Die :=
  r.1.updEng e fun g =>
    match g.wait, r.2 with
    | .none, some t => g.jump t
    | .none, none => g.advance
    | _, _ => g

/-- One instruction of a run in progress: fetch, hazards, effect and control (R293, R320, R327).
END does not move the program counter; the caller ends the run. -/
def Die.engIssue (e : Fin 80) (op : EngOp) (d : Die) : Except Nat Die :=
  let g := d.engine e
  let fetch := progBase e + 4 * g.pc.toNat
  if !op.valid then .error causeIllegal
  else if inEccWord d.eccBad fetch then .error causeEcc
  else
    let d := (d.updEng e fun g => { g with hz := g.hz.issue op }).eccTouch e fetch
    match d.engOp e op with
    | .error c => .error c
    | .ok r => .ok (match op with | .endRun _ => r.1 | _ => Die.engNext e r)

/-- A run starts at ENTRY (R296, R298, R318, R343). -/
def Die.startRun (e : Fin 80) (cyc : W32) (replay : Bool) (d : Die) : Die :=
  d.updEng e fun g =>
    { g with running := true, replay := replay, shadow := d.red.tk = .shadow, startPer := d.time.per, pc := g.entry, stack := [], loop0 := none,
             loop1 := none, ports := Vector.replicate 16 {}, wait := .none, snapshot := none, snapLaw := {}, hz := {},
             fresh := g.fresh && replay, resume := g.resume && replay,
             regs := { g.regs with cfs := 0, rcyc := cyc, first := g.fresh && !replay,
                                   resumed := g.resume && !replay } }

end Sys2Proof.Machine
end

