-- ==== Sys2Proof/Machine/Law.lean ====
section
/-! DEFINITION. The library law and the setpoint on plan time (R180-R186, R192, R200, R205). -/

namespace Sys2Proof.Machine

/-- The parameter block of R184. -/
structure LawPar where
  kp : Rat
  kv : Rat
  ki : Rat
  iLim : Int
  uLim : Int
  ka : Rat
  fv : Rat
  fc : Rat
  /-- Biquads b0, b1, b2, a1, a2 in Q2.29. -/
  bq : List (List Int)
  holdPreload : Int
  /-- The engine truncates (R306). -/
  trunc : Bool := false

/-- The block of R184 at a BAR2 offset. -/
def readLawPar (m : Memory) (a : Nat) : LawPar :=
  let w (k : Nat) : W32 := m.word (a + k)
  { kp := s16e8 (w 0x00), kv := s16e8 (w 0x04), ki := s16e8 (w 0x08), iLim := (w 0x0C).toInt,
    uLim := (w 0x10).toInt, ka := s16e8 (w 0x14), fv := s16e8 (w 0x18), fc := qv 30 (w 0x1C).toInt,
    bq := (List.range (min 4 (bits (w 0x20) 2 0))).map fun b =>
      (List.range 5).map fun i => (w (0x24 + 20 * b + 4 * i)).toInt,
    holdPreload := (w 0x74).toInt }

/-- T_c in seconds. -/
def tcSec (tc : Nat) : Rat := mkRat tc 1000000000

/-- One biquad stage in transposed direct form II (R183): Q1.30 in and out, Q2.29 coefficients. -/
def biquad (tr : Bool) (c : List Int) (x : Int) (s : Int × Int) : Int × (Int × Int) :=
  let k (i : Nat) : Int := c.getD i 0
  let y := clampS 32 (roundDivB tr (k 0 * x + s.1) (2 ^ 29))
  (y, (clampS 72 (k 1 * x - k 3 * y + s.2), clampS 72 (k 2 * x - k 4 * y)))

/-- The stages in order; missing states are 0. -/
def biquads (tr : Bool) (cs : List (List Int)) (st : List (Int × Int)) (x : Int) : Int × List (Int × Int) :=
  (cs.zipIdx.foldl (fun (r : Int × List (Int × Int)) c =>
    let b := biquad tr c.1 r.1 ((st[c.2]?).getD (0, 0))
    (b.1, r.2 ++ [b.2])) (x, []))

def sgnI (x : Int) : Int := if x < 0 then -1 else if 0 < x then 1 else 0

/-- The cascade of R181 and R182: `posCycle` says that the position loop runs in this cycle, `vLim`
and `uMax` are the limits of APPROACH where they apply. -/
def cascade (p : LawPar) (outVel velMode posCycle : Bool) (vLim uMax : Option Int) (tc : Nat) (n : W32)
    (sp : SetPt) (q v : Int) (s : LawState) : LawState × LawOut :=
  let toQ := toQB p.trunc
  let vpos := if velMode then 0 else if posCycle then toQ 20 (p.kp * qv 20 (sp.q - q)) else s.vpos
  let extra : Int := match s.voff with
    | none => 0
    | some (o, c, k) =>
      let i := (n - c).toNat
      if i < k then roundDivB p.trunc (o * (k - i : Nat)) k else 0
  let vcmd := clampS 32 (vpos + sp.vff + extra)
  let vcmd := match vLim with | none => vcmd | some l => clampI (-l) l vcmd
  let ffR := p.ka * qv 16 sp.aff + p.fv * qv 20 sp.vff + p.fc * (sgnI sp.vff : Rat)
  let ff := clampS 32 (toQ 30 ffR)
  if outVel then ({ s with vpos := vpos }, { u := ff, vcmd := vcmd, ff := ff })
  else
    let ev := vcmd - v
    let u0 := clampS 32 (toQ 30 (p.kv * qv 20 ev + qv 30 s.integ + ffR))
    let b := biquads p.trunc p.bq s.bq u0
    let u := clampI (-p.uLim) p.uLim b.1
    let i := if u ≠ b.1 ∧ sgnI ev = sgnI b.1 then s.integ
      else clampI (-p.iLim) p.iLim (toQ 30 (qv 30 s.integ + p.ki * tcSec tc * p.kv * qv 20 ev))
    let u := match uMax with | none => u | some l => clampI (-l) l u
    ({ s with vpos := vpos, bq := b.2, integ := i }, { u := u, vcmd := vcmd, ff := ff })

/-- The press law of R186 in PRESS and HOLDING. -/
def press (p : LawPar) (r : JointRegs) (v : Int) (s : LawState) : LawState × LawOut :=
  let sp := r.forceSp.toInt
  let ramp := r.forceRamp.toInt
  let ref := if s.phase = 2 then sp else s.uRef + clampI (-ramp) ramp (sp - s.uRef)
  let excess := max 0 ((v.natAbs : Int) - r.forceVapp.toInt)
  let u := clampS 32 (ref - toQB p.trunc 30 (p.kv * qv 20 excess) * sgnI v)
  let near := decide (((u - sp).natAbs : Int) ≤ ramp)
  ({ s with uRef := ref, phase := if near then 2 else s.phase }, { u := u, vcmd := 0, ff := u })

/-- One run of the law of a mode (R181, R185, R186). -/
def lawStep (p : LawPar) (c : JointCfg) (r : JointRegs) (mode : BitVec 2) (tc : Nat) (n : W32)
    (sp : SetPt) (q v : Int) (s : LawState) : LawState × LawOut :=
  let posCycle := decide (n.toNat % (max 1 c.period) = c.phase % (max 1 c.period))
  let spHold : SetPt := { q := s.hold }
  if mode = 0 then cascade p c.outVel false posCycle none none tc n spHold q v s
  else if mode = 2 then cascade p c.outVel true posCycle none none tc n sp q v s
  else if mode = 3 then
    if s.phase = 1 ∨ s.phase = 2 then press p r v s
    else
      let o := cascade p c.outVel false posCycle (some r.forceVapp.toInt) (some r.forceLim.toInt) tc n
        sp q v s
      let at' := decide ((o.2.u.natAbs : Int) = r.forceLim.toInt)
      ({ o.1 with limCnt := if at' then o.1.limCnt + 1 else 0 }, o.2)
  else cascade p c.outVel false posCycle none none tc n sp q v s

/-- R192: the setpoint of an entry at plan time `tau` (2^-16 ns) under scales s_n and s_(n-1), with δ the
signed 32-bit difference of the plan times in ns; none where |δ| exceeds DELTA_MAX. -/
def entrySetpoint (w : List W32) (tau : Nat) (s sPrev : W16) (tc deltaMax : Nat) (tr : Bool := false) : Option SetPt :=
  let toQ := toQB tr
  let g (i : Nat) : W32 := (w[i]?).getD 0
  let delta := (BitVec.ofNat 32 (tau / 65536) - g 3).toInt
  if (deltaMax : Int) < delta.natAbs then none
  else
    let t : Rat := mkRat delta 1000000000
    let q := qv 20 (g 0).toInt
    let dq := qv 20 (g 1).toInt
    let ddq := qv 16 (g 2).toInt
    let dq1 := dq + ddq * t
    let sn := qv 15 s.toNat
    let sp := qv 15 sPrev.toNat
    some { q := clampS 32 (toQ 20 (q + dq * t + ddq * t * t / 2)), dq1 := clampS 32 (toQ 20 dq1),
           vff := clampS 32 (toQ 20 (dq1 * sn)),
           aff := clampS 32 (toQ 16 (ddq * sn * sn + dq1 * (sn - sp) / tcSec tc)),
           ddq := (g 2).toInt }

/-- R159: the last setpoint advanced by its velocity at the applied scale. -/
def heldSetpoint (sp : SetPt) (s sPrev : W16) (tc : Nat) (tr : Bool := false) : SetPt :=
  let toQ := toQB tr
  let dq1 := qv 20 sp.dq1
  { sp with q := clampS 32 (toQ 20 (qv 20 sp.q + dq1 * qv 15 sPrev.toNat * tcSec tc)),
            vff := clampS 32 (toQ 20 (dq1 * qv 15 s.toNat)), aff := 0 }

/-- R209: braking at QS_DEC without a jerk limit. -/
def quickStopSetpoint (sp : SetPt) (qsDec : W32) (tc : Nat) (tr : Bool := false) : SetPt :=
  let toQ := toQB tr
  let t := tcSec tc
  let dv := qv 16 qsDec.toInt * t
  let v := qv 20 sp.vff
  let nv := if ratAbs v ≤ dv then 0 else v - ratSgn v * dv
  { q := clampS 32 (toQ 20 (qv 20 sp.q + (v + nv) / 2 * t)), dq1 := clampS 32 (toQ 20 nv),
    vff := clampS 32 (toQ 20 nv), aff := clampS 32 (toQ 16 ((nv - v) / t)), ddq := 0 }

/-- R653: one cycle of a host path on a slowing time: the new stop state and the setpoint. `tau0` is the
region's plan time, at which the stop time starts with its first target. -/
def hostStopStep (h : HostStop) (vmax dmax : W32) (tau0 : Nat) (s sPrev : W16) (tc : Nat)
    (tr : Bool := false) : HostStop × SetPt :=
  let toQ := toQB tr
  let first := !h.begun
  let fall : Int := if vmax.toInt ≤ 0 then 2 ^ 30
    else toQ 30 (tcSec tc * qv 16 dmax.toInt / qv 20 vmax.toInt)
  let sigma := if first then h.sigma else max 0 (h.sigma - fall)
  let sg := qv 30 sigma
  let ss := sg * qv 15 s.toNat
  let prev := if first then qv 15 sPrev.toNat else qv 30 h.sigmaS
  let tau := if first then tau0 else (h.tauH + (toQ 16 (prev * tc)).toNat) % 2 ^ 48
  let g (i : Nat) : W32 := (h.entry[i]?).getD 0
  let whole := (BitVec.ofNat 32 (tau / 65536) - g 3).toInt
  let t : Rat := mkRat (whole * 65536 + (tau % 65536 : Nat)) (65536 * 1000000000)
  let q := qv 20 (g 0).toInt
  let dq := qv 20 (g 1).toInt
  let ddq := qv 16 (g 2).toInt
  let dq1 := dq + ddq * t
  ({ h with sigma := sigma, sigmaS := toQ 30 ss, tauH := tau, begun := true },
   { q := clampS 32 (toQ 20 (q + dq * t + ddq * t * t / 2)), dq1 := clampS 32 (toQ 20 (dq1 * sg)),
     vff := clampS 32 (toQ 20 (dq1 * ss)),
     aff := clampS 32 (toQ 16 (ddq * ss * ss + dq1 * (ss - prev) / tcSec tc)), ddq := (g 2).toInt })

/-- R200: the prediction of the position one cycle ahead. -/
def predict (r : JointRegs) (q v : W32) (cur : W16) (tc : Nat) : Int :=
  let vr := qv 20 v.toInt
  let i := qv 14 cur.toInt
  let a := qv 16 r.plKacc.toInt *
    (qv 30 r.plKt.toInt * i - s16e8 r.plBvisc * vr - qv 30 r.plFcoul.toInt * ratSgn vr)
  let vp := vr + a * tcSec tc
  toQ 20 (qv 20 q.toInt + (vr + vp) / 2 * tcSec tc)

end Sys2Proof.Machine
end

