-- ==== Sys2Proof/Machine/Profile.lean ====
section
/-! DEFINITION. The profile generator's plan: jerk-limited motion to a target (R197-R199). -/

namespace Sys2Proof.Machine

/-- A jerk held for a time in seconds. -/
abbrev Seg := Rat × Rat

/-- Position, velocity and acceleration after a segment. -/
def segEnd (s : Rat × Rat × Rat) (g : Seg) : Rat × Rat × Rat :=
  let t := g.1
  let j := g.2
  (s.1 + s.2.1 * t + s.2.2 * t * t / 2 + j * t * t * t / 6, s.2.1 + s.2.2 * t + j * t * t / 2,
   s.2.2 + j * t)

def segsEnd (s : Rat × Rat × Rat) (l : List Seg) : Rat × Rat × Rat := l.foldl segEnd s

/-- The velocity at which the acceleration would be 0, were it taken to 0 at once. -/
def settleVel (v a j : Rat) : Rat := v + a * ratAbs a / (2 * j)

/-- From velocity `v` and acceleration `a` to velocity `v1` at zero acceleration, with jerk `j` and
the limits for speeding up and slowing down. -/
def speedChange (v a v1 up down j : Rat) : List Seg :=
  let base := settleVel v a j
  let s : Rat := if base ≤ v1 then 1 else -1
  let lim := if 0 ≤ s * v1 ∧ 0 ≤ s * v then up else down
  let dv := s * (v1 - v)
  let sa := s * a
  let peak := ratSqrtDown 40 (j * dv + sa * sa / 2)
  let ap := ratMin peak lim
  let ramps := if sa ≤ ap then (2 * ap * ap - sa * sa) / (2 * j) else sa * sa / (2 * j)
  let hold := if lim < peak then (dv - ramps) / ap else 0
  [(ratAbs (ap - sa) / j, s * ratSgn (ap - sa) * j), (ratMax 0 hold, 0), (ap / j, -(s * j))]

/-- Up to a peak velocity and down to rest. -/
def upDown (v a vp amax dmax j : Rat) : List Seg × List Seg :=
  (speedChange v a vp amax dmax j, speedChange vp 0 0 amax dmax j)

def segsDist (v a : Rat) (l : List Seg) : Rat := (segsEnd (0, v, a) l).1

/-- The peak velocity whose motion covers the distance, by halving. -/
def findPeak (v a dist amax dmax j : Rat) : Nat → Rat → Rat → Rat
  | 0, lo, _ => lo
  | n + 1, lo, hi =>
    let mid := (lo + hi) / 2
    let m := upDown v a mid amax dmax j
    if segsDist v a (m.1 ++ m.2) ≤ dist then findPeak v a dist amax dmax j n mid hi
    else findPeak v a dist amax dmax j n lo mid

/-- A deceleration eased for `t` seconds, then the way to rest. -/
def easeMove (v a t dmax j : Rat) : List Seg :=
  let s := segEnd (0, v, a) (t, j)
  (t, j) :: speedChange s.2.1 s.2.2 0 dmax dmax j

/-- The easing time whose motion covers the distance, by halving. -/
def findEase (v a dist dmax j : Rat) : Nat → Rat → Rat → Rat
  | 0, lo, _ => lo
  | n + 1, lo, hi =>
    let mid := (lo + hi) / 2
    if segsDist v a (easeMove v a mid dmax j) ≤ dist then findEase v a dist dmax j n mid hi
    else findEase v a dist dmax j n lo mid

/-- The time-optimal motion over a distance ahead, from (v, a) to rest: with a cruise at VMAX, with a lower
peak velocity, or, from a deceleration that goes on, with that deceleration eased for a while. -/
def aheadMove (v a dist vmax amax dmax j : Rat) : List Seg :=
  let top := upDown v a vmax amax dmax j
  let d := segsDist v a (top.1 ++ top.2)
  let vz := settleVel v a j
  let low := upDown v a vz amax dmax j
  if d ≤ dist then top.1 ++ [((dist - d) / vmax, 0)] ++ top.2
  else if a < 0 ∧ 0 ≤ vz ∧ vz ≤ vmax ∧ dist < segsDist v a (low.1 ++ low.2) then
    easeMove v a (findEase v a dist dmax j 48 0 (-a / j)) dmax j
  else
    let lo := if vz ≤ vmax then ratMax 0 vz else 0
    let vp := findPeak v a dist amax dmax j 48 lo vmax
    let m := upDown v a vp amax dmax j
    m.1 ++ m.2

/-- Segments seen in a mirrored direction. -/
def mirror (s : Rat) (l : List Seg) : List Seg := l.map fun g => (g.1, s * g.2)

/-- The braking profile to rest (R197). -/
def brakeMove (v a dmax j : Rat) : List Seg := speedChange v a 0 dmax dmax j

/-- R198 without its middle case: to the target, or to rest beyond it and back. -/
def planDirect (q v a target vmax amax dmax j : Rat) : List Seg :=
  let dir := if v ≠ 0 then ratSgn v else ratSgn a
  let brake := mirror (if dir = 0 then 1 else dir) (brakeMove (dir * v) (dir * a) dmax j)
  let dStop := dir * segsDist v a brake
  if dir ≠ 0 ∧ (target - q) * dir < dStop then
    let rem := target - (q + dir * dStop)
    brake ++ mirror (ratSgn rem) (aheadMove 0 0 (ratAbs rem) vmax amax dmax j)
  else
    let s := if dir ≠ 0 then dir else ratSgn (target - q)
    if s = 0 then [] else mirror s (aheadMove (s * v) (s * a) (s * (target - q)) vmax amax dmax j)

/-- R198: the plan from (q, v, a) to the target. Above VMAX the joint first decelerates to VMAX and goes on
from there, back from rest where the target has come too near by then (DEDUCED, log entry 100); a joint whose
deceleration takes it below VMAX in any case goes on at once. -/
def planMove (q v a target vmax amax dmax j : Rat) : List Seg :=
  let dir := ratSgn v
  let stop := dir * segsDist v a (mirror dir (brakeMove (dir * v) (dir * a) dmax j))
  if vmax < ratAbs v ∧ vmax < settleVel (dir * v) (dir * a) j ∧ stop ≤ (target - q) * dir then
    let slow := mirror dir (speedChange (dir * v) (dir * a) vmax dmax dmax j)
    slow ++ planDirect (q + segsDist v a slow) (dir * vmax) 0 target vmax amax dmax j
  else planDirect q v a target vmax amax dmax j

/-- Segments as stored: durations in 2^-16 ns of plan time and jerks in Q19.12; empty ones go. -/
def storeSegs (l : List Seg) : List (Nat × Int) :=
  (l.map fun g => ((toQ 16 (g.1 * 1000000000)).toNat, toQ 12 g.2)).filter fun g => g.1 ≠ 0

/-- Seconds of a plan-time duration in 2^-16 ns. -/
def planSec (n : Nat) : Rat := mkRat n (65536 * 1000000000)

/-- The state of a generator `t` (2^-16 ns) after the start of its motion: Q11.20, Q11.20, Q15.16. -/
def ProfGen.stateAt (g : ProfGen) (t : Nat) : Int × Int × Int :=
  let rec walk (s : Rat × Rat × Rat) (t : Nat) : List (Nat × Int) → Option (Rat × Rat × Rat)
    | [] => none
    | (n, j) :: r =>
      if t < n then some (segEnd s (planSec t, qv 12 j))
      else walk (segEnd s (planSec n, qv 12 j)) (t - n) r
  match walk (qv 20 g.q, qv 20 g.dq, qv 16 g.ddq) t g.segs with
  | none => (g.final, 0, 0)
  | some s => (toQ 20 s.1, toQ 20 s.2.1, toQ 16 s.2.2)

/-- Plan-time length of the motion. -/
def ProfGen.length (g : ProfGen) : Nat := g.segs.foldl (fun n s => n + s.1) 0

/-- Plan time from the start of the motion to `tau` (2^-16 ns, modulo 2^48): negative before it. -/
def ProfGen.since (g : ProfGen) (tau : Nat) : Int :=
  Int.emod ((tau : Int) - g.t0 + 2 ^ 47) (2 ^ 48) - 2 ^ 47

/-- The generator at plan time `tau`. DEDUCED (log entry 114): before its motion starts it is on the way to the state
the motion starts from, at that state's acceleration. -/
def ProfGen.at (g : ProfGen) (tau : Nat) : Int × Int × Int :=
  let t := g.since tau
  if 0 ≤ t then g.stateAt t.toNat
  else
    let s := segEnd (qv 20 g.q, qv 20 g.dq, qv 16 g.ddq) (-planSec (-t).toNat, 0)
    (toQ 20 s.1, toQ 20 s.2.1, g.ddq)

/-- A move to a target from a state (R198); the limits are register words. -/
def ProfGen.move (q dq ddq : Int) (t0 : Nat) (r : JointRegs) : ProfGen :=
  { q := q, dq := dq, ddq := ddq, t0 := t0, on := true, final := r.pgTarget.toInt,
    segs := storeSegs (planMove (qv 20 q) (qv 20 dq) (qv 16 ddq) (qv 20 r.pgTarget.toInt)
      (qv 20 r.pgVmax.toInt) (qv 16 r.pgAmax.toInt) (qv 16 r.pgDmax.toInt) (qv 12 r.pgJmax.toInt)) }

/-- Braking to rest with DMAX and JMAX (R197, R209). -/
def ProfGen.brake (q dq ddq : Int) (t0 : Nat) (r : JointRegs) : ProfGen :=
  let v := qv 20 dq
  let a := qv 16 ddq
  let l := if v = 0 ∧ a = 0 then [] else
    let dir := if v ≠ 0 then ratSgn v else ratSgn a
    mirror dir (brakeMove (dir * v) (dir * a) (qv 16 r.pgDmax.toInt) (qv 12 r.pgJmax.toInt))
  { q := q, dq := dq, ddq := ddq, t0 := t0, on := true, segs := storeSegs l,
    final := toQ 20 (qv 20 q + segsDist v a l) }

end Sys2Proof.Machine
end

