-- ==== Sys2Proof/Machine/Joint.lean ====
section
/-! DEFINITION. Joint service: sources, stops, handover, profile moves, supervision (chapter 06). -/

namespace Sys2Proof.Machine

def Die.jnt (d : Die) (j : Nat) : Joint := (d.joints[j]?).getD {}

def Die.updJnt (j : Nat) (f : Joint → Joint) (d : Die) : Die :=
  { d with joints := d.joints.setIfInBounds j (f (d.jnt j)) }

/-- The joints of an arm, in increasing number. -/
def Die.armJoints (d : Die) (a : Nat) : List Nat :=
  (List.range 128).filter fun j => (d.jnt j).used && (d.jnt j).cfg.arm = a

/-- The region that serves a joint (R18). -/
def Joint.region (j : Joint) : Nat := j.cfg.cluster / 4

/-- The role, as an engine number, that serves a joint (R12). -/
def Joint.roleNum (j : Joint) : Nat := j.cfg.cluster * 5 + j.cfg.engine

/-- The joints of a role in slot order. -/
def Die.roleJoints (d : Die) (r : Nat) : List Nat :=
  let l := (List.range 128).filter fun j => (d.jnt j).used && (d.jnt j).roleNum = r
  l.filter (fun j => (d.jnt j).cfg.slot = 0) ++ l.filter (fun j => (d.jnt j).cfg.slot ≠ 0)

def Die.sepRegion (d : Die) (w : Nat) : SepRegion := (d.sep.regions[w]?).getD {}

/-- Plan time of a region at a target cycle, at the present applied scale (R125, R194). -/
def Die.tauAt (d : Die) (w : Nat) (target : W32) : Nat :=
  let r := d.sepRegion w
  let k := (target - d.time.cyc).toInt
  (((r.tau : Int) + k * (2 * r.applied.toNat * d.img.cell.tc : Nat)) % (2 ^ 48 : Nat)).toNat

/-- The engine that serves a role: its unit is ACTIVE or DRAINING (R459). -/
def Die.engOf (d : Die) (r : Nat) : Option (Fin 80) :=
  (List.finRange 80).find? fun (e : Fin 80) =>
    let st := (d.unit 0 e).state
    (st = .active || st = .draining) && (d.engine e).roleNum = some r

/-- The law parameters of a joint, in the data partition of the engine that serves it (R184). -/
def Die.lawPar (d : Die) (j : Nat) : LawPar :=
  let e := match d.engOf (d.jnt j).roleNum with | some e => e.val | none => (d.jnt j).roleNum
  readLawPar d.sram (dataBase e + (d.jnt j).cfg.lawBase)

/-! Queues of a joint (R149-R151, R376) -/

def roleUid (r : Nat) : W16 := Sys2Proof.Machine.uid 0 0 r

def Die.spQueue (d : Die) (j : Nat) : Option Nat :=
  d.findQueue fun q => q.cls = .sp && sameUnit q.prod (Sys2Proof.Machine.uid 0 2 (d.jnt j).region) &&
    sameUnit q.cons (roleUid (d.jnt j).roleNum)

def Die.pgQueue (d : Die) (j : Nat) : Option Nat := d.findQueue fun q => q.cls = .pg && q.prod = uidJoint j
def Die.hsQueue (d : Die) (j : Nat) : Option Nat := d.findQueue fun q => q.cls = .hs && q.feeds = some (uidJoint j)

/-- The RX and TX queues between a lane and a role. -/
def Die.rxQueue (d : Die) (lane role : Nat) : Option Nat :=
  d.findQueue fun q => q.cls = .rx && sameUnit q.prod (Sys2Proof.Machine.uid 0 6 lane) &&
    sameUnit q.cons (roleUid role)
def Die.txQueue (d : Die) (lane role : Nat) : Option Nat :=
  d.findQueue fun q => q.cls = .tx && sameUnit q.cons (Sys2Proof.Machine.uid 0 6 lane) &&
    sameUnit q.prod (roleUid role)

/-- The queue of a source (R194). -/
def Die.srcQueue (d : Die) (j : Nat) (source : BitVec 2) : Option Nat :=
  if source = 1 then d.spQueue j else if source = 2 then d.pgQueue j
  else if source = 3 then d.hsQueue j else none

/-- A queue that feeds the one joint: squashed at a change of source (R168, R169). -/
def Die.squashSource (j : Nat) (source : BitVec 2) (d : Die) : Die :=
  if source = 1 then d else
  match d.srcQueue j source with
  | none => d
  | some q => d.squashQueue q

/-- The queues that a fault squash of the joint acts on (R163). -/
def Die.jointQueues (d : Die) (j : Nat) : List Nat :=
  let r := (d.jnt j).roleNum
  let l := (d.jnt j).cfg.lane
  [d.spQueue j, d.pgQueue j, d.hsQueue j, d.txQueue l r].filterMap fun x => x

/-! Profile generator (R194-R199) -/

/-- The generator of a joint at plan time `tau`: the motion that is replaced still holds before the present one
starts (R195, R197). -/
def Joint.pgAt (x : Joint) (tau : Nat) : Int × Int × Int :=
  match x.pgPrev with
  | some p => if x.pg.since tau < 0 then p.at tau else x.pg.at tau
  | none => x.pg.at tau

/-- A new motion takes over from the present one at its start; one that starts no later takes its place. -/
def Joint.setPg (g : ProfGen) (x : Joint) : Joint :=
  { x with pg := g, pgPrev := if 0 < x.pg.since g.t0 then some x.pg else x.pgPrev }

/-- The generator's entry for a target: the words of R191. -/
def Die.pgEntry (d : Die) (j : Nat) (target : W32) : List W32 :=
  let tau := d.tauAt (d.jnt j).region target
  let s := (d.jnt j).pgAt tau
  [BitVec.ofInt 32 s.1, BitVec.ofInt 32 s.2.1, BitVec.ofInt 32 s.2.2, BitVec.ofNat 32 (tau / 65536)]

/-- Targets from `first` to the end of the lookout window that a queue does not hold yet, below `stop`
where it is given. -/
def Die.targetsToFill (d : Die) (q : Nat) (first : W32) (stop : Option W32) : List W32 :=
  let x := d.queue q
  (List.range (x.lookout + 1)).filterMap fun k =>
    let t := d.time.cyc + BitVec.ofNat 32 k
    let new := decide (0 ≤ diff32 t first) && (match stop with | some u => decide (diff32 t u < 0) | none => true) &&
      x.closedCyc ≠ some t && (match (x.port ++ x.ring).getLast? with
       | none => true
       | some e => decide (tgtDist e.tgt d.time.cyc < (k : Int)))
    if new then some t else none

/-- The profile generator fills its queue from `first` on, below `stop` where it is given; without a
credit it stalls (R156, R168, R195). -/
def Die.fillPg (j : Nat) (first : W32) (stop : Option W32) (d : Die) : Die :=
  match d.pgQueue j with
  | none => d
  | some q => (d.targetsToFill q first stop).foldl (fun d t =>
      d.produceGroup q (tgtOf t) [d.pgEntry j t]) d

/-- The targets that the profile generator of a joint writes: from the first to, where one is given, before the
last. A joint uses it as its source, as the old source of a blend, or in a request (R168, R195, R206). -/
def Joint.pgWindow (x : Joint) (cyc : W32) : Option (W32 × Option W32) :=
  if x.source = 2 then
    match x.req with
    | none => some (cyc, none)
    | some r => if r.source = 2 then some (r.c, none) else some (cyc, some (r.c + BitVec.ofNat 32 r.w))
  else match x.blend, x.req with
    | some b, _ => if b.source = 2 then some (cyc, some (b.c + BitVec.ofNat 32 b.w)) else none
    | none, some r => if r.source = 2 then some (r.c, none) else none
    | none, none => none

/-- The generator of a joint at work on its queue (R195). -/
def Die.refillPg (j : Nat) (d : Die) : Die :=
  match (d.jnt j).pgWindow d.time.cyc with
  | some (t, u) => d.fillPg j t u
  | none => d

/-- The entry of a target: where the queue holds it, in its dequeue port too, or the group last delivered;
`i`: position in the group. -/
def Die.entryFor (d : Die) (q : Nat) (tgt : W32) (i : Nat) : Option (List W32) :=
  let x := d.queue q
  match ((x.port ++ x.ring).filter fun e => e.tgt = tgtOf tgt)[i]? with
  | some e => some e.payload
  | none => if x.lastCyc = some tgt && !x.lastGroup.isEmpty then some ((x.lastGroup.drop (i * x.words)).take x.words)
      else none

/-- Position of a joint in the groups of a shared queue: its rank among the engine's joints. -/
def Die.groupIndex (d : Die) (j : Nat) (source : BitVec 2) : Nat :=
  if source = 1 then (d.roleJoints (d.jnt j).roleNum).idxOf j else 0

/-- The state in which a profile source is entered: the last setpoint of the old source at target c - 1,
its Q, its dq1 of R192 there and its DDQ (R197). -/
def Die.entryState (d : Die) (j : Nat) (c : W32) : Int × Int × Int :=
  let x := d.jnt j
  let last := match d.srcQueue j x.source with
    | none => none
    | some q => d.entryFor q (c - 1) (d.groupIndex j x.source)
  if x.source = 0 then (x.law.hold, 0, 0)
  else match last with
    | some w =>
      let g (i : Nat) : W32 := (w[i]?).getD 0
      let delta := (BitVec.ofNat 32 (d.tauAt x.region (c - 1) / 65536) - g 3).toInt
      ((g 0).toInt, clampS 32 (toQ 20 (qv 20 (g 1).toInt + qv 16 (g 2).toInt * mkRat delta 1000000000)), (g 2).toInt)
    | none => (x.sp.q, x.sp.dq1, x.sp.ddq)

/-- The present state of the generator and its plan time in 2^-16 ns: the entry of the last committed
target, at that entry's TAU (R197). Where no such entry was written, the generator's own state there. -/
def Die.pgPresent (d : Die) (j : Nat) (target : W32) : (Int × Int × Int) × Nat :=
  let tau := d.tauAt (d.jnt j).region target
  match (d.pgQueue j).bind fun q => d.entryFor q target 0 with
  | some w =>
    let g (i : Nat) : W32 := (w[i]?).getD 0
    (((g 0).toInt, (g 1).toInt, (g 2).toInt), (g 3).toNat * 65536)
  | none => ((d.jnt j).pgAt tau, tau)

def Die.queueHc (d : Die) (q : Option Nat) : Nat :=
  match q with | none => 1 | some q => max 1 (d.queue q).hc

/-- PG_GO (R197-R199). -/
def Die.pgGo (j : Nat) (d : Die) : Die :=
  let x := d.jnt j
  let r := x.regs
  if x.source ≠ 2 ∨ !x.used then d.refuse
  else if r.pgVmax.toInt ≤ 0 ∨ r.pgAmax.toInt ≤ 0 ∨ r.pgDmax.toInt ≤ 0 ∨ r.pgJmax.toInt ≤ 0 then d.refuse
  else
    let last := d.time.cyc + BitVec.ofNat 32 (d.queueHc (d.pgQueue j)) - 1
    let s := d.pgPresent j last
    let d := d.accept.squashSource j 2
    let d := d.updJnt j fun x =>
      { x.setPg (ProfGen.move s.1.1 s.1.2.1 s.1.2.2 s.2 r) with pgBusy := true }
    d.fillPg j (last + 1) none

/-- PG_MOVE_DONE (R198): the generator has reached the end of its motion. -/
def Die.pgMoveDone (j : Nat) (d : Die) : Die :=
  let x := d.jnt j
  if x.pgBusy && decide ((x.pg.length : Int) ≤ x.pg.since (d.tauAt x.region d.time.cyc)) then d.updJnt j fun x => { x with pgBusy := false } else d

/-! Stops (R207-R212, R653, R654) -/

/-- A joint counter of R213 rises. -/
def Joint.count (i : Fin 8) (x : Joint) : Joint := { x with cnt := vupd x.cnt i satInc }

/-- R207: a blend or a pending request is given up. -/
def Die.abortHandover (j : Nat) (d : Die) : Die :=
  let x := d.jnt j
  let d := match x.blend with
    | some b =>
      (d.updJnt j fun x => { x with blend := none, blending := false, mode := b.mode, source := b.source,
                                    law := b.law, sp := b.sp }).log .info (uidJoint j) 0x73
    | none => d
  match x.req with
  | none => d
  | some r =>
    ((d.updJnt j fun x => { x with req := none }).squashSource j r.source).log .info (uidJoint j) 0x73

/-- R100: the fall of a plan's time-scale per cycle, in 2^-30, that comes to rest within `left` (2^-16 ns) of plan
time. The scale falls to 0 in k equal steps, and the path takes (k + 1)/2 cycles of plan time for it, the one before
the first step included. -/
def pathFall (left tc : Nat) : Int :=
  let k := 2 * left / (max 1 tc * 65536) - 1
  if k = 0 then 2 ^ 30 else ((2 ^ 30 + k - 1) / k : Nat)

/-- Plan time left of the region's plan at plan time `tau` (R99). -/
def Region.tailLeft (r : Region) (tau : Nat) : Nat :=
  match r.plan with
  | none => 0
  | some p => p.steps * 1000000 * 65536 - (tau + 2 ^ 48 - p.tau) % 2 ^ 48

def Die.region (d : Die) (w : Nat) : Region := (d.regions[w]?).getD {}

def Die.updRegion (w : Nat) (f : Region → Region) (d : Die) : Die :=
  { d with regions := d.regions.setIfInBounds w (f (d.region w)) }

/-- N_p: cell cycles per planning period (R39). -/
def Die.np (d : Die) : Nat := 1000000 / max 1 d.img.cell.tc

/-- The newest target a queue holds, or the cycle in progress. -/
def Die.lastQueued (d : Die) (q : Option Nat) : W32 :=
  match q with
  | none => d.time.cyc
  | some q => match ((d.queue q).port ++ (d.queue q).ring).getLast? with
    | none => d.time.cyc
    | some e => d.time.cyc + BitVec.ofInt 32 (max 0 (tgtDist e.tgt d.time.cyc))

/-- The target from which the plan of a region slows: the last one that a queue of its joints holds, one for all its
arms, so that they stay on their common path (R100). -/
def Die.lastPlanned (d : Die) (w : Nat) : W32 :=
  (((List.range 128).filter fun j => (d.jnt j).used && (d.jnt j).region = w && (d.jnt j).source = 1).map
    fun j => d.lastQueued (d.spQueue j)).foldl (fun a t => if 0 < diff32 t a then t else a) d.time.cyc

/-- A joint enters a PATH_STOP: its source slows along its own path (R209). The queue keeps its entries
(R163), so the slowing starts from the last target in it, for a plan from the last one of its region. -/
def Die.pathStopJoint (j : Nat) (d : Die) : Die :=
  let x := d.jnt j
  let w := x.region
  let tau := d.tauAt w d.time.cyc
  let d := d.updJnt j fun x => { x with stop := 1, stopNs := d.time.ns }
  if x.source = 1 then
    let last := d.lastPlanned w
    let tau := d.tauAt w last
    d.updJnt j fun x => { x with path := some { cyc := last, tau := tau, sigma := 2 ^ 30,
                                                fall := pathFall ((d.region w).tailLeft tau) d.img.cell.tc } }
  else if x.source = 2 then
    let s := d.pgPresent j (d.lastQueued (d.pgQueue j))
    d.updJnt j fun x => x.setPg (ProfGen.brake s.1.1 s.1.2.1 s.1.2.2 s.2 x.regs)
  else if x.source = 3 then
    d.updJnt j fun x => { x with host := some { sigma := 2 ^ 30, tauH := tau, entry := x.hostE,
                                                sigmaS := 2 ^ 15 * (d.sepRegion w).prev.toNat } }
  else d

/-- One joint of a stopped arm; a stop acts only when it is higher than the one in force (R210). -/
def Die.stopJoint (cat : Nat) (j : Nat) (d : Die) : Die :=
  let d := d.updJnt j (Joint.count 7)
  if cat ≤ (d.jnt j).stop.toNat then d
  else
    let d := d.abortHandover j
    if cat = 1 then d.pathStopJoint j
    else
      let d := (d.jointQueues j).foldl (fun d q => d.requestFaultSquash q) d
      d.updJnt j fun x =>
        { x with stop := BitVec.ofNat 2 cat, stopped := true, stopNs := d.time.ns, braking := !x.atRest,
                 path := none, host := none, pgBusy := false, en := x.en && cat ≠ 3 }

/-- The stop in force has reached its end state's condition (R209, R653): rest, with a host path fully
slowed and u_ref of a press at 0. -/
def Joint.stopDone (x : Joint) : Bool :=
  x.atRest &&
    (if x.stop = 1 then (match x.host with | some h => h.sigma = 0 | none => true)
     else x.stop = 2 && !(x.mode = 3 && (x.law.phase = 1 || x.law.phase = 2) && x.law.uRef ≠ 0))

/-- The end state of the stop in force (R209): a PATH_STOP ends with source HOLD, a QUICK_STOP in HOLD at the
present position. -/
def Joint.endStop (x : Joint) : Joint :=
  if x.stop = 1 then
    { x with stop := 0, source := 0, path := none, host := none,
             law := { x.law with hold := if x.source = 0 then x.law.hold else x.sp.q } }
  else if x.mode = 0 && x.source = 0 then x
  else { x with mode := 0, source := 0, law := { x.law with hold := x.pos.toInt, phase := 3 } }

/-- A stop whose condition holds reaches its end state. -/
def Die.settleStop (j : Nat) (d : Die) : Die :=
  d.updJnt j fun x => if x.stopDone then x.endStop else x

/-- A stop of the small axes bound to an arm (R245). -/
def Die.stopBound (cat a : Nat) (d : Die) : Die :=
  (List.range 16).foldl (fun d x =>
    if (d.axis x).cfg.bind && (d.axis x).cfg.arm.toNat = a then d.axStop cat x else d) d

/-- A stop of every joint of an arm and of the axes bound to it (R209, R245). -/
def Die.stopArm (cat a : Nat) (d : Die) : Die :=
  ((d.armJoints a).foldl (fun d j => (d.stopJoint cat j).settleStop j) d).stopBound cat a

/-- A stop of every arm of a set. -/
def Die.stopArms (cat : Nat) (l : List Nat) (d : Die) : Die := l.foldl (fun d a => d.stopArm cat a) d

/-- The arms of the cell in use. -/
def Die.usedArms (d : Die) : List Nat := (List.range 16).filter fun a => !(d.armJoints a).isEmpty

/-- A stop bit of JNT_CTRL (R212). -/
def Die.stopReq (cat j : Nat) (d : Die) : Die :=
  let a := (d.jnt j).cfg.arm
  if (d.jnt j).used then (d.log .info (uidArm a) 0x78).stopArm cat a else d

/-- RESTART (R211). -/
def Die.restartJoint (j : Nat) (d : Die) : Die :=
  let x := d.jnt j
  if !(x.stopped && x.atRest) then d.refuse
  else
    let off := decide (x.stop = 3)
    let p := d.lawPar j
    d.updJnt j fun x =>
      { x with stopped := false, stop := 0, mode := 0, source := 0, braking := false, plSkip := 3,
               en := x.en || (off && x.fresh.isSome), fbLostDone := false, plausDone := false, plausDue := false,
               law := { x.law with hold := x.pos.toInt, phase := 3, voff := none,
                                   integ := if off then p.holdPreload else x.law.integ } }

/-- JNT_CTRL with the bits in the order of R654. -/
def Die.jntCtrl (j : Nat) (bitsIn : BitVec 5) (d : Die) : Die :=
  let d := d.accept
  let stops := [(3, bit bitsIn 3), (2, bit bitsIn 2), (1, bit bitsIn 1)].filter (·.2)
  match stops with
  | [] =>
    let d := if bit bitsIn 0 then d.restartJoint j else d
    if bit bitsIn 4 then
      let d' := d.pgGo j
      if d.host.access = .ok then d' else d'.refuse
    else d
  | top :: rest =>
    let d := d.stopReq top.1 j
    let d := rest.foldl (fun d _ => (d.armJoints (d.jnt j).cfg.arm).foldl
      (fun d k => d.updJnt k (Joint.count 7)) d) d
    if bit bitsIn 0 || bit bitsIn 4 then d.refuse else d

/-- The joint comes to rest, and a stop in force with it (R208, R209). -/
def Die.comeToRest (j : Nat) (d : Die) : Die :=
  (d.updJnt j fun x => { x with atRest := true, braking := false }).settleStop j

/-- JOINT_AT_REST (R208). -/
def Die.jointAtRest (j : Nat) (d : Die) : Die :=
  if 8 ≤ (d.jnt j).restCnt && !(d.jnt j).atRest then d.comeToRest j else d

/-- QSTOP_TIMEOUT (R210). -/
def Die.qstopTimeout (j : Nat) (d : Die) : Die :=
  let x := d.jnt j
  if x.stop = 2 && !x.atRest && decide (x.cfg.qsTmaxMs * 1000000 ≤ (d.time.ns - x.stopNs).toNat) then
    (d.log .stop (uidArm x.cfg.arm) 0x77).stopArm 3 x.cfg.arm
  else d

/-- HOST_PATH_STOP_END (R209, R653): sigma has reached 0 and the joint is at rest: the source is HOLD. -/
def Die.hostPathStopEnd (j : Nat) (d : Die) : Die :=
  if (d.jnt j).host.isSome then d.settleStop j else d

/-! Handover (R168, R204-R207) -/

/-- R204: MODE and SOURCE are not allowed. -/
def Die.badMode (d : Die) (j : Nat) (mode source : BitVec 2) : Bool :=
  (mode = 0 && source ≠ 0) || (mode = 3 && source = 0) ||
    (source ≠ 0 && (d.srcQueue j source).isNone)

def Die.refuseHandover (j : Nat) (d : Die) : Die := (d.updJnt j (Joint.count 1)).refuse

/-- A mode request (R168, R204). An old generator's queue is written again for the targets it still drives:
those below c, and those of the blend, in which it runs in shadow (R206). The queue of a generator that is
entered takes nothing older than c with it; one that drives already keeps its move (R197). -/
def Die.modeReq (j : Nat) (mode source : BitVec 2) (w : Nat) (d : Die) : Die :=
  let x := d.jnt j
  if !x.used ∨ d.badMode j mode source ∨ 16 < w then d.refuseHandover j
  else if x.stopped ∨ x.stop ≠ 0 ∨ x.blending ∨ x.req.isSome then d.refuseHandover j
  else
    let hc := if source ≠ 0 then d.queueHc (d.srcQueue j source)
      else if x.source ≠ 0 then d.queueHc (d.srcQueue j x.source) else 1
    let c := d.time.cyc + BitVec.ofNat 32 hc
    let s := d.entryState j c
    let d := d.accept.squashSource j x.source
    let d := if source = 2 && x.source ≠ 2 then d.squashSource j 2 else d
    let d := d.updJnt j fun x => { x with req := some { mode := mode, source := source, w := w, c := c } }
    let d := if x.source = 2 then d.fillPg j d.time.cyc (some (if source = 2 then c else c + BitVec.ofNat 32 w)) else d
    if source ≠ 2 then d
    else if x.source = 2 then d.fillPg j c none
    else
      (d.updJnt j fun x =>
        { x with pg := ProfGen.brake s.1 s.2.1 s.2.2 (d.tauAt x.region (c - 1)) x.regs, pgPrev := none }).fillPg j c none

/-- The setpoint on which the check evaluates the new law (R204). -/
def Die.checkSetpoint (d : Die) (j : Nat) (r : HoReq) : SetPt :=
  let x := d.jnt j
  let w := x.region
  let s := d.sepRegion w
  if r.source = 0 then { q := if x.source = 0 then x.law.hold else x.pos.toInt }
  else
    let i := d.groupIndex j r.source
    let found := match d.srcQueue j r.source with
      | none => none
      | some q =>
        let n := (d.roleJoints x.roleNum).length
        let all := ((d.queue q).ring.filter fun e => decide (tgtDist e.tgt r.c ≤ 0)).reverse
        (if r.source = 1 then all[n - 1 - i]? else all[0]?).map (·.payload)
    match found with
    | none => x.sp
    | some e => (entrySetpoint e (d.tauAt w r.c) s.applied s.applied d.img.cell.tc
        x.act.deltaMax.toNat).getD x.sp

/-- The saturation check at target c - 1 (R204, R205): the state the new law starts with, or a
refusal. An author's program has no integrator that the device knows of, and is not refused. -/
def Die.handoverCheck (j : Nat) (d : Die) : Die :=
  let x := d.jnt j
  match x.req with
  | none => d
  | some r =>
    if r.prep.isSome ∨ 0 < diff32 (r.c - 1) d.time.cyc then d
    else
      let p := d.lawPar j
      let sp := d.checkSetpoint j r
      let base : LawState := { x.law with integ := 0, voff := none, limCnt := 0,
                                          hold := if r.source = 0 then sp.q else x.law.hold,
                                          phase := if r.mode = 3 then 0 else 3, entry := x.pos.toInt }
      let new := lawStep p x.cfg x.act r.mode d.img.cell.tc r.c sp x.pos.toInt x.vel.toInt base
      let take (l : LawState) (d : Die) : Die :=
        d.updJnt j fun x => { (Joint.count 0 x) with req := some { r with prep := some l } }
      if !x.cfg.library then take base d
      else if x.cfg.outVel then
        take { base with voff := some (x.out.vcmd - new.2.vcmd, r.c, max r.w 1),
                         uRef := if r.mode = 3 then x.out.u else base.uRef } d
      else if r.mode = 3 then take { base with integ := x.law.integ, uRef := x.out.u } d
      else
        let i := x.out.u - new.2.u
        if p.iLim < (i.natAbs : Int) then
          let d := d.updJnt j fun x => { (Joint.count 1 x) with req := none, handoverSat := true }
          (d.squashSource j r.source).log .info (uidJoint j) 0x72
        else take { base with integ := i } d

/-- The new law drives from target c (R205, R206). -/
def Die.handoverSwitch (j : Nat) (d : Die) : Die :=
  match (d.jnt j).req with
  | none => d
  | some r =>
    if 0 < diff32 r.c d.time.cyc then d
    else match r.prep with
      | none => d
      | some l =>
        d.updJnt j fun x =>
          { x with req := none, mode := r.mode, source := r.source, law := l, contact := false,
                   forceOk := false, pgBusy := x.pgBusy && r.source = 2,
                   blending := decide (r.w ≠ 0),
                   blend := if r.w = 0 then none
                     else some { c := r.c, w := r.w, mode := x.mode, source := x.source, law := x.law,
                                 sp := x.sp } }

/-- The handover work of a boundary: a check that is still due, then the switch. -/
def Die.handoverBoundary (j : Nat) (d : Die) : Die :=
  match (d.jnt j).req with
  | none => d
  | some r => if 0 < diff32 r.c d.time.cyc then d else (d.handoverCheck j).handoverSwitch j

/-- BLEND_END (R206). -/
def Die.blendEnd (j : Nat) (d : Die) : Die :=
  match (d.jnt j).blend with
  | none => d
  | some b =>
    if (b.w : Int) ≤ diff32 d.time.cyc b.c then
      d.updJnt j fun x => { x with blend := none, blending := false }
    else d

/-! Feedback and supervision (R186, R200-R203) -/

/-- Supervision of a fresh reply (R200-R202): residual, warning and count, then the prediction. -/
def Die.supervise (j : Nat) (d : Die) : Die :=
  let x := d.jnt j
  let r := x.act
  let d := match x.pred with
    | some (c, qp) =>
      if c = d.time.cyc && x.plSkip = 0 && x.stop ≠ 3 && r.plEn then
        let resid := x.fbPos.toInt - qp
        let mag : Int := resid.natAbs
        let d := d.updJnt j fun x => { x with resid := fit32 resid }
        let d := if r.plWarn.toInt < mag && !x.plausWarn then
            (d.updJnt j fun x => { (Joint.count 2 x) with plausWarn := true }).log .warn (uidJoint j) 0x70
          else d
        d.updJnt j fun x =>
          if r.plFault.toInt < mag then
            let n := satInc x.persistCnt
            { x with persistCnt := n, plausDue := x.plausDue || decide (r.persist.toNat ≤ n.toNat) }
          else { x with persistCnt := 0, plausDone := false, plausDue := false }
      else d
    | none => d
  d.updJnt j fun x =>
    let next := (d.time.cyc + 1, predict r x.fbPos x.fbVel x.fbCur d.img.cell.tc)
    { x with pred := if r.plEn && x.stop ≠ 3 && x.plSkip = 0 then some next else none }

/-- PLAUS_FAULT (R201). -/
def Die.plausFault (j : Nat) (d : Die) : Die :=
  let x := d.jnt j
  if x.act.persist ≠ 0 && x.plausDue && !x.plausDone then
    ((d.updJnt j fun x => { (Joint.count 3 x) with plausDone := true }).log .stop (uidJoint j) 0x71
      ).stopArm 2 x.cfg.arm
  else d

/-- The cycle in progress is the one that starts at the region's t_j (R39). -/
def Die.inTjCycle (d : Die) (w : Nat) : Bool :=
  d.time.cyc = (d.region w).period * BitVec.ofNat 32 d.np + BitVec.ofNat 32 (w * d.np / 4)

/-- The REPLY of a joint for the cycle that starts at t_j (R85). -/
def Region.tjReply (j : Nat) (pos vel : W32) (r : Region) : Region :=
  { r with tjState := r.tjState.filter (·.1 ≠ j) ++ [(j, pos, vel)] }

/-- Fresh feedback of a joint (R185, R362, R652): the first one after the load freezes HOLD and enables
the drive. -/
def Die.feedback (j : Nat) (pos vel : W32) (cur : W16) (d : Die) : Die :=
  let w := (d.jnt j).region
  let d := if d.inTjCycle w then d.updRegion w (Region.tjReply j pos vel) else d
  let d := d.updJnt j fun x =>
    let first := x.fresh.isNone
    { x with fbPos := pos, fbVel := vel, fbCur := cur, fresh := some d.time.cyc,
             en := x.en || (first && x.stop ≠ 3),
             law := if first then { x.law with hold := pos.toInt } else x.law }
  d.supervise j

/-- FB_LOST (R203). -/
def Die.fbLost (j : Nat) (d : Die) : Die :=
  let x := d.jnt j
  if 5 ≤ x.lost && !x.fbLostDone then
    let d := ((d.updJnt j fun x => { x with fbLostDone := true }).log .stop (uidJoint j) 0x74
      ).stopArm 2 x.cfg.arm
    d.updJnt j fun x => { x with mode := 0, source := 0, law := { x.law with hold := x.pos.toInt, phase := 3 } }
  else d

/-- FB_LOST_OFF_STOP (R203): 8 more cycles without a fresh reply. -/
def Die.fbLostOff (j : Nat) (d : Die) : Die :=
  if 13 ≤ (d.jnt j).lost && (d.jnt j).stop ≠ 3 then d.stopJoint 3 j else d

/-- FORCE_CONTACT (R186). -/
def Die.forceContact (j : Nat) (d : Die) : Die :=
  let x := d.jnt j
  if x.mode = 3 && x.law.phase = 0 && 4 ≤ x.law.limCnt then
    d.updJnt j fun x => { x with contact := true, law := { x.law with phase := 1, uRef := x.out.u } }
  else d

/-- PRESS_STROKE (R186). -/
def Die.pressStroke (j : Nat) (d : Die) : Die :=
  let x := d.jnt j
  let dir := sgnI x.act.forceSp.toInt
  if x.mode = 3 && decide (x.stop.toNat < 2) && decide (x.act.forceStroke.toInt < (x.pos.toInt - x.law.entry) * dir) then
    (d.log .stop (uidJoint j) 0x76).stopArm 2 x.cfg.arm
  else d

/-! The law in a cycle -/

/-- The group of a queue for this cycle, dequeued into the engine's port (R155, R159, R169), once a cycle: a later
reader finds what is in the port. A group that is not `wanted` is discarded where it is there, and its absence is
no underrun. -/
def Die.takeGroup (d : Die) (q : Option Nat) (wanted : Bool) : Option (List QEntry) × Die :=
  match q with
  | none => (none, d)
  | some q =>
    let now := some d.time.cyc
    if (d.queue q).tried = now then (if (d.queue q).lastCyc = now then some (d.queue q).port else none, d)
    else if wanted || (d.queue q).ready d.time.cyc then
      match d.dequeue q d.time.cyc true with
      | (some g, d) =>
        (some g, d.updQueue q fun x => { x with lastGroup := g.flatMap (·.payload), lastCyc := now, tried := now })
      | (none, d) => (none, d.updQueue q fun x => { x with tried := now })
    else (none, d.updQueue q (Queue.dropLate d.time.cyc))

/-- TAU_SKEW (R192). -/
def Die.markSkew (j : Nat) (d : Die) : Die :=
  let was := (d.jnt j).tauSkew
  (d.updJnt j fun x => { (Joint.count 4 x) with tauSkew := true }).logOnce was .warn (uidJoint j) 0x75

/-- A skewed entry counts as an underrun of the source's queue (R159, R192). -/
def Die.skewEntry (j : Nat) (source : BitVec 2) (d : Die) : Die :=
  match d.srcQueue j source with
  | none => d.markSkew j
  | some q => (d.markSkew j).skewUnderrun q

/-- The setpoint of a source in cycle `n` (R192-R194, R209, R653), from its group entry; `tr`: the engine
truncates (R306). -/
def Die.sourceSetpointAt (n : W32) (tr : Bool) (j : Nat) (source : BitVec 2) (entry : Option (List W32)) (last : SetPt)
    (d : Die) : SetPt × Die :=
  let x := d.jnt j
  let w := x.region
  let s := d.sepRegion w
  let tc := d.img.cell.tc
  if source = 0 then ({ q := x.law.hold }, d)
  else match x.host with
  | some h =>
    let r := hostStopStep h x.regs.pgVmax x.regs.pgDmax (d.tauAt w n) s.applied s.prev tc tr
    (r.2, d.updJnt j fun x => { x with host := some r.1 })
  | none => match entry with
    | none => (heldSetpoint last s.applied s.prev tc tr, d)
    | some e =>
      match entrySetpoint e (d.tauAt w n) s.applied s.prev tc x.act.deltaMax.toNat tr with
      | none => (heldSetpoint last s.applied s.prev tc tr, d.skewEntry j source)
      | some sp => (sp, if source = 3 then d.updJnt j fun x => { x with hostE := e } else d)

/-- The setpoint of a source in the cycle in progress. -/
def Die.sourceSetpoint (j : Nat) (source : BitVec 2) (entry : Option (List W32)) (last : SetPt) (d : Die) :
    SetPt × Die := d.sourceSetpointAt d.time.cyc false j source entry last

/-- Position and velocity used in this cycle: fresh, or extrapolated (R203). -/
def Die.useFeedback (j : Nat) (got : Bool) (d : Die) : Die :=
  d.updJnt j fun x =>
    if got then { x with pos := x.fbPos, vel := x.fbVel, extrap := false, lost := 0, fbLostDone := false }
    else if x.fresh.isNone then x
    else
      let k := x.lost + 1
      let q := toQ 20 (qv 20 x.fbPos.toInt + qv 20 x.fbVel.toInt * k * tcSec d.img.cell.tc)
      { (Joint.count 5 x) with pos := fit32 q, vel := x.fbVel, extrap := true, lost := k }

/-- R208: the count of still cycles, and the end of rest. -/
def Joint.judgeStill (x : Joint) : Joint :=
  if x.vel.toInt.natAbs ≤ x.act.stillVel.toNat then { x with restCnt := x.restCnt + 1 }
  else { x with restCnt := 0, atRest := false }

/-- What a joint sends: the law's output, blended with the old law's during a blend (R206). -/
def blendOut (tr : Bool) (k w : Nat) (old new : LawOut) : LawOut :=
  let mix (a b : Int) : Int := roundDivB tr ((w - (k + 1) : Nat) * a + (k + 1 : Nat) * b) w
  { u := mix old.u new.u, vcmd := mix old.vcmd new.vcmd, ff := mix old.ff new.ff }

/-- The law of one joint in cycle `n`, given the entries of its own and its old source; `tr`: the engine truncates
(R306). In a QUICK_STOP a press lets u_ref fall to 0 at FORCE_RAMP (R209). -/
def Die.runLawAt (n : W32) (tr : Bool) (j : Nat) (entry oldEntry : Option (List W32)) (d : Die) : Die :=
  let tc := d.img.cell.tc
  let p := { d.lawPar j with trunc := tr }
  let x := d.jnt j
  let (sp, d) :=
    if x.stop = 2 && !x.atRest && x.source ≠ 0 then (quickStopSetpoint x.sp x.act.qsDec tc tr, d)
    else d.sourceSetpointAt n tr j x.source entry x.sp
  let mode := x.mode
  let release := x.stop = 2 && x.mode = 3
  let regs := if release then { x.act with forceSp := 0 } else x.act
  let start := if mode ≠ 3 then { x.law with phase := 3 }
    else if release && x.law.phase = 2 then { x.law with phase := 1 } else x.law
  let law := lawStep p x.cfg regs mode tc n sp x.pos.toInt x.vel.toInt start
  let r : LawOut × Option Blend × Die := match x.blend with
    | none => (law.2, none, d)
    | some b =>
      let k := (n - b.c).toNat
      if b.w ≤ k then (law.2, some b, d)
      else
        let (osp, d) := d.sourceSetpointAt n tr j b.source oldEntry b.sp
        let o := lawStep p x.cfg x.act b.mode tc n osp x.pos.toInt x.vel.toInt b.law
        (blendOut tr k b.w o.2 law.2, some { b with law := o.1, sp := osp }, d)
  let out := r.1
  let blend := r.2.1
  let d := r.2.2
  d.updJnt j fun x =>
    { x with law := law.1, out := out, sp := sp, blend := blend, ran := some n,
             u := fit32 (if x.cfg.outVel then out.ff else out.u),
             forceOk := x.forceOk || (mode = 3 && law.1.phase = 2 && !release) }

/-- The law of one joint in the cycle in progress. -/
def Die.runLaw (j : Nat) (entry oldEntry : Option (List W32)) (d : Die) : Die := d.runLawAt d.time.cyc false j entry oldEntry

/-- The TX entry of a joint (R652): SP, and the feed-forward torque where the queue has two words. -/
def Joint.txWords (x : Joint) (words : Nat) : List W32 :=
  let sp := fit32 (if x.cfg.outVel then x.out.vcmd else x.out.u)
  if words = 2 then [sp, if x.cfg.outVel then fit32 x.out.ff else 0] else [sp]

/-- Entry `i` of an RX group holds usable feedback: POS_BAD counts as lost (R376). -/
def goodFeedback (g : Option (List QEntry)) (i : Nat) : Bool :=
  match g.bind fun l => l[i]? with
  | some e => !bit ((e.payload[3]?).getD 0) 6
  | none => false

/-- What follows a joint's run in a cycle: the count of still cycles, the press stroke and a stop that has
reached its end (R186, R208, R209). -/
def Die.closeJoint (j : Nat) (d : Die) : Die := ((d.updJnt j Joint.judgeStill).pressStroke j).settleStop j

/-- The joints of a role whose feedback and setpoints a lane carries in one RX and one TX group (R376, R652). -/
def Die.laneJoints (d : Die) (l r : Nat) : List Nat := (d.roleJoints r).filter fun j => (d.jnt j).cfg.lane = l

/-- The library joints of a role that have not run in this cycle. -/
def Die.libraryLeft (d : Die) (r : Nat) : List Nat :=
  (d.roleJoints r).filter fun j => (d.jnt j).cfg.library && (d.jnt j).ran ≠ some d.time.cyc

/-- The RX queue between a lane and a role holds the group of this cycle (R187). -/
def Die.laneReady (d : Die) (r l : Nat) : Bool :=
  match d.rxQueue l r with
  | some q => (d.queue q).ready d.time.cyc
  | none => false

/-- F_START of the RX queue between a lane and a role: the latest of the class F joints whose feedback it carries
(R187, R311); none where all are class A. -/
def Die.laneFStart (d : Die) (r l : Nat) : Option Nat :=
  match (d.laneJoints l r).filter fun j => (d.jnt j).cfg.classF with
  | [] => none
  | js => some ((js.map fun j => (d.jnt j).cfg.fStart.toNat * 16).foldl max 0)

/-- When in the cycle a library program computes for the joints of a lane on what has come by then: at F_START where
one is class F (R187, R190), else as soon as their group is there, or at the wait limit of their RX port without it
(R311). DEDUCED (log entry 115): the SP group that a lane's class A joints share with class F joints of another lane
does not delay them (R188). -/
def Die.laneDue (d : Die) (r l : Nat) : Option Nat :=
  match d.laneFStart r l with
  | some t => some t
  | none =>
    if d.laneReady r l then some 0
    else (d.img.ports.find? fun b => b.eng = r && b.consumer && d.rxQueue l r = some b.queue).map (·.waitNs)

/-- Output groups enter their queues; those without credits are left, with a stall (R156). -/
def Die.putOutputs (outs : List (Nat × W16 × List (List W32))) (d : Die) :
    List (Nat × W16 × List (List W32)) × Die :=
  outs.foldl (fun r o =>
    if (r.2.queue o.1).room < o.2.2.length then (r.1 ++ [o], r.2.updQueue o.1 Queue.stall)
    else (r.1, r.2.produceGroup o.1 o.2.1 o.2.2)) ([], d)

/-- The TX groups of some joints of a role for the next cycle, one a lane (R652). -/
def Die.roleOutputs (d : Die) (r : Nat) (js : List Nat) : List (Nat × W16 × List (List W32)) :=
  ((js.map fun j => (d.jnt j).cfg.lane).eraseDups).filterMap fun l =>
    (d.txQueue l r).map fun q => (q, tgtOf (d.time.cyc + 1),
      (js.filter fun j => (d.jnt j).cfg.lane = l).map fun j => (d.jnt j).txWords (d.queue q).words)

/-- The library program of a role computes in this cycle for the joints of some lanes (R180, R181, R188, R376,
R652); output groups that find no credit are left. -/
def Die.runRole (r : Nat) (ls : List Nat) (d : Die) : List (Nat × W16 × List (List W32)) × Die :=
  let js := (d.libraryLeft r).filter fun j => ls.contains (d.jnt j).cfg.lane
  if js.isEmpty || (d.engOf r).isNone then ([], d)
  else
    let lanes := (js.map fun j => (d.jnt j).cfg.lane).eraseDups
    let d := lanes.foldl (fun d l =>
      let g := d.takeGroup (d.rxQueue l r) true
      (js.filter fun j => (d.jnt j).cfg.lane = l).zipIdx.foldl (fun d p =>
        d.useFeedback p.1 (goodFeedback g.1 p.2)) g.2) d
    let usesPlan := js.any fun j =>
      (d.jnt j).source = 1 || (match (d.jnt j).blend with | some b => b.source = 1 | none => false)
    let spq := d.spQueue (js.headD 0)
    let (spg, d) := d.takeGroup spq usesPlan
    let d := js.foldl (fun d j =>
      let x := d.jnt j
      let own (src : BitVec 2) : Bool := x.source = src ||
        (match x.blend with | some b => b.source = src | none => false)
      let (pgg, d) := d.takeGroup (d.pgQueue j) (own 2)
      let (hsg, d) := d.takeGroup (d.hsQueue j) (own 3 && x.host.isNone)
      let entryOf (src : BitVec 2) : Option (List W32) :=
        let pick (g : Option (List QEntry)) (i : Nat) := (g.bind fun l => l[i]?).map (·.payload)
        if src = 1 then pick spg (d.groupIndex j 1) else if src = 2 then pick pgg 0
        else if src = 3 then pick hsg 0 else none
      let old := match x.blend with | some b => entryOf b.source | none => none
      (d.runLaw j (entryOf x.source) old).closeJoint j) d
    d.putOutputs (d.roleOutputs r js)

/-- What the device follows of a joint that an author's program serves, when its cycle ends: the feedback
that its engine received, the setpoint of its source, its newest output, rest and stops (R184, R193, R203,
R208, R213). -/
def Die.followJoint (j : Nat) (d : Die) : Die :=
  let x := d.jnt j
  if !x.used || x.cfg.library || x.ran = some d.time.cyc || (d.engOf x.roleNum).isNone then d
  else
    let n := d.time.cyc
    let d := d.useFeedback j (x.fresh = some n)
    let entry := (d.srcQueue j x.source).bind fun q =>
      if (d.queue q).lastCyc = some n then d.entryFor q n (d.groupIndex j x.source) else none
    let (sp, d) := if x.stop = 2 && !x.atRest && x.source ≠ 0 then (quickStopSetpoint x.sp x.act.qsDec d.img.cell.tc, d)
      else d.sourceSetpoint j x.source entry x.sp
    let i := ((d.roleJoints x.roleNum).filter fun k => (d.jnt k).cfg.lane = x.cfg.lane).idxOf j
    let sent := (d.txQueue x.cfg.lane x.roleNum).bind fun q => d.entryFor q (n + 1) i
    let d := d.updJnt j fun x =>
      let x := { x with sp := sp, ran := some n, law := if x.mode = 3 then x.law else { x.law with phase := 3 } }
      match sent with
      | none => x
      | some w =>
        let w0 := (w[0]?).getD 0
        let w1 := (w[1]?).getD 0
        { x with out := { u := w0.toInt, vcmd := w0.toInt, ff := w1.toInt }, u := if x.cfg.outVel then w1 else w0 }
    d.closeJoint j

/-- A boundary (R186, R202, R213): registers written since the last one take effect, a write of FORCE_SP
takes a press back to PRESS, and the supervisor's pause runs down. -/
def Joint.boundary (x : Joint) : Joint :=
  { x with act := x.regs, plSkip := x.plSkip - 1, spWritten := false,
           law := if x.spWritten && x.mode = 3 && x.law.phase = 2 then { x.law with phase := 1 } else x.law }

/-! The control state in a cairn (R650) -/

/-- What the cairn of a library program holds of the joints of its role. -/
def Die.cairnLaws (d : Die) (r : Nat) : List LawSave :=
  ((d.roleJoints r).filter fun j => (d.jnt j).cfg.library).map fun j =>
    let x := d.jnt j
    { joint := j, mode := x.mode, source := x.source, law := x.law, fbPos := x.fbPos, fbVel := x.fbVel,
      fresh := x.fresh, blend := x.blend }

/-- A joint takes its control state from a cairn of cycle `c` (R207, R650). Where its mode or source has
changed since, the saved law is the old one of the blend. -/
def Joint.restore (c : W32) (s : LawSave) (x : Joint) : Joint :=
  let x := { x with fbPos := s.fbPos, fbVel := s.fbVel, fresh := s.fresh,
                    lost := match s.fresh with | some f => (c - f).toNat | none => 0 }
  if s.mode = x.mode ∧ s.source = x.source then
    { x with law := s.law,
             blend := match x.blend, s.blend with | some b, some o => some { b with law := o.law, sp := o.sp } | b, _ => b }
  else { x with blend := x.blend.map fun b => { b with law := s.law } }

/-- The joints of a role take the control state of its newest cairn, of cycle `c`. -/
def Die.restoreLaws (r : Nat) (c : W32) (d : Die) : Die :=
  (((d.cairnState[r]?).getD {}).joints).foldl (fun d s => d.updJnt s.joint (Joint.restore c s)) d

/-- What the monitor samples of a joint (R115, R122, R193). -/
def Die.sepSample (d : Die) (j : Nat) : SepSample :=
  let x := d.jnt j
  let dq := if x.atRest then 0 else if x.stop = 3 then x.vel.toInt
    else if x.mode = 0 && x.stop ≠ 2 then 0 else x.sp.dq1
  let left := x.cfg.qsTmaxMs * 1000000 - (d.time.ns - x.stopNs).toNat
  { joint := j, q := if x.extrap then x.pos.toInt else x.fbPos.toInt, dq1 := dq,
    braking := x.braking && !x.atRest,
    tb := if x.stop = 3 then max left (4 * d.img.cell.tc)
      else if x.act.qsDec.toInt ≤ 0 then 0
      else (ratAbs (qv 20 dq) / qv 16 x.act.qsDec.toInt * 1000000000).ceil.toNat }

/-- JNT_STATUS (R215). -/
def Joint.status (x : Joint) : W32 :=
  BitVec.ofNat 32 (x.mode.toNat + 4 * x.source.toNat + 16 * x.stop.toNat + flag x.stopped 6 + flag x.atRest 7
    + flag x.blending 8 + flag x.extrap 9 + 1024 * x.law.phase.toNat + flag x.contact 12 + flag x.forceOk 13
    + flag x.pgBusy 14 + flag x.plausWarn 15 + flag x.handoverSat 16 + flag x.tauSkew 17)

/-- BRIDGE_FAULT (R222): the axis stops, and the arm it is bound to makes a QUICK_STOP; a high level lets the
fault be cleared. -/
def Die.bridgeFault (a : Nat) (low : Bool) (d : Die) : Die :=
  let x := d.axis a
  let acts := low && d.ballUsed (.saFlt a) && x.state ≠ .off && x.state ≠ .fault
  let d := d.bridgeFaultAxis a low
  if acts && x.cfg.bind then d.stopArm 2 x.cfg.arm.toNat else d

end Sys2Proof.Machine
end

