-- ==== Sys2Proof/Machine/Solver.lean ====
section
/-! DEFINITION. The solver array: formats, factorisation and ADMM (chapter 02).

Where the manual gives no rounding inside a step (triangular solves, scalar factors, the rank-1
update), the step is exact and its result is narrowed once (DESIGN CHOICE, log entry 30). -/

namespace Sys2Proof.Machine

/-- BAR2 offset of a region's store (R65, R568). -/
def storeBase (w : Nat) : Nat := 0x01000000 + w * 0x400000

def ceil32 (n : Nat) : Nat := (n + 31) / 32
def Tmpl.nb (t : Tmpl) : Nat := ceil32 t.n
def Tmpl.mf (t : Tmpl) : Nat := ceil32 (t.m - t.mv)
def Tmpl.kb (t : Tmpl) : Nat := ceil32 t.mv
def Tmpl.mb (t : Tmpl) : Nat := ceil32 t.m

/-- The bits of a block map: bit k is bit k mod 8 of byte k / 8 (R62). -/
def mapBits (l : List Byte) : List Bool := l.flatMap fun b => (List.range 8).map fun i => b.getLsbD i

/-- A template record (R62). -/
def parseTmpl (b : List Byte) : Tmpl :=
  let f := fieldAt b
  let n := f 0x000 2
  let nb := ceil32 n
  let npb := f 0x030 2
  let nab := f 0x032 2
  { n := n, m := f 0x002 2, mv := f 0x004 1, h := f 0x005 1, ns := f 0x006 2, nt := f 0x008 2,
    rs := f 0x00A 2, rt := f 0x00C 2, vfmt := f 0x00E 1, resid := f 0x00F 1 % 2 = 1,
    warm := f 0x00F 1 / 2 % 2 = 1, iterCap := f 0x010 2 % 4096, checkInt := f 0x012 1,
    shift := f 0x013 1, deadlineNs := f 0x014 4, epsAbs := BitVec.ofNat 32 (f 0x018 4),
    epsRel := BitVec.ofNat 32 (f 0x01C 4), rho0 := BitVec.ofNat 32 (f 0x020 4),
    rho1 := BitVec.ofNat 32 (f 0x024 4), sigma := BitVec.ofNat 32 (f 0x028 4),
    alpha := BitVec.ofNat 32 (f 0x02C 4), npb := npb, nab := nab, rhoInit := f 0x034 1,
    sig := f 0x038 8, pmap := mapBits (sliceBytes b 0x100 32), amap := mapBits (sliceBytes b 0x120 64),
    fmt := (sliceBytes b 0x160 (npb + nab + nb * (nb + 1) / 2)).map (·.toNat) }

/-- The solver array of a region truncates: it is in RESET or SELFTEST (R60). -/
def Die.solverTrunc (d : Die) (w : Nat) : Bool := (d.unit 3 w).state = .reset || (d.unit 3 w).state = .selftest

/-- The template in force in a region's store. -/
def Die.tmpl (d : Die) (w : Nat) : Tmpl :=
  { parseTmpl (d.sram.read 0 (storeBase w) 0x3B0) with trunc := d.solverTrunc w }

/-- Bytes of the record that change only with a new image: dimensions, map counts, signature, maps and
formats (R66). -/
def tmplFixed (a : Nat) : Bool := a < 0xF || (0x30 ≤ a && a < 0x34) || (0x38 ≤ a && a < 0x40) || (0x100 ≤ a && a < 0x3B0)

/-- The structure signature of a record (R63). -/
def tmplSig (b : List Byte) : Nat :=
  let t := parseTmpl b
  (crc64xz (sliceBytes b 0 0xF ++ sliceBytes b 0x30 4 ++ sliceBytes b 0x100 96 ++
    sliceBytes b 0x160 (t.npb + t.nab + t.nb * (t.nb + 1) / 2))).toNat

/-- A format byte is valid (R54). -/
def fmtOk (f : Nat) : Bool := decide (f ≤ 30)

/-- An S16E8 word with its reserved bits clear, above 0 where asked. -/
def s16Ok (w : W32) (pos : Bool) : Bool := bits w 15 8 = 0 && (!pos || bits w 31 16 ≠ 0)

/-- R62, R64: the record is accepted, but for padding elements and the store limits. -/
def tmplOk (b : List Byte) : Bool :=
  let t := parseTmpl b
  let count (l : List Bool) : Nat := (l.filter id).length
  decide (1 ≤ t.n ∧ t.n ≤ 512 ∧ t.m ≤ 1024 ∧ t.mv ≤ min 128 t.m ∧ 1 ≤ t.h ∧ t.h ≤ 32) &&
  decide (t.n = t.h * t.ns + t.nt ∧ t.m - t.mv = t.h * t.rs + t.rt) &&
  fmtOk t.vfmt && decide (fieldAt b 0xF 1 < 4 ∧ fieldAt b 0x10 2 < 4096 ∧ 1 ≤ t.checkInt ∧ t.checkInt ≤ 64
    ∧ t.shift ≤ 1 ∧ 1 ≤ t.deadlineNs ∧ t.deadlineNs ≤ 1000000 ∧ t.npb ≤ 136 ∧ t.nab ≤ 320 ∧ t.rhoInit ≤ 1) &&
  s16Ok t.epsAbs false && s16Ok t.epsRel false && s16Ok t.rho0 true && s16Ok t.rho1 true &&
  s16Ok t.sigma true && s16Ok t.alpha true &&
  decide (mkRat 1 2 ≤ s16e8 t.alpha ∧ s16e8 t.alpha ≤ mkRat 15 8) &&
  t.npb = count t.pmap && t.nab = count t.amap &&
  (t.pmap.zipIdx.all fun p => !p.1 || (decide (p.2 / 16 ≤ p.2 % 16) && decide (p.2 % 16 < t.nb))) &&
  (t.amap.zipIdx.all fun p => !p.1 || (decide (p.2 % 16 < t.nb) && decide (p.2 / 16 < t.mf))) &&
  t.fmt.all fmtOk && t.sig = tmplSig b

/-! Matrices in the store -/

/-- Rank of a set bit of a map: how many set bits lie below it. -/
def rankOf (l : List Bool) (k : Nat) : Nat := ((l.take k).filter id).length

def Tmpl.pPresent (t : Tmpl) (i j : Nat) : Bool := (t.pmap[16 * i + j]?).getD false
def Tmpl.aPresent (t : Tmpl) (r c : Nat) : Bool := (t.amap[16 * r + c]?).getD false
def Tmpl.fP (t : Tmpl) (i j : Nat) : Nat := (t.fmt[rankOf t.pmap (16 * i + j)]?).getD 0
def Tmpl.fA (t : Tmpl) (r c : Nat) : Nat := (t.fmt[t.npb + rankOf t.amap (16 * r + c)]?).getD 0
/-- Format of factor block (i, j), j ≤ i. -/
def Tmpl.fK (t : Tmpl) (i j : Nat) : Nat := (t.fmt[t.npb + t.nab + i * (i + 1) / 2 + j]?).getD 0

/-- The data a solve reads, as words of the region store. -/
abbrev Store := Nat → Int

def Die.store (d : Die) (w : Nat) : Store := fun a => (d.sram.word (storeBase w + a)).toInt

/-- Element (i, j) of P with its format; only the upper triangle is stored (R50). A block that is not
present has format 30 and the element 0. -/
def pElem (t : Tmpl) (s : Store) (i j : Nat) : Int × Nat :=
  let (a, b) := if i ≤ j then (i, j) else (j, i)
  if t.pPresent (a / 32) (b / 32) then
    (s (0x4000 + rankOf t.pmap (16 * (a / 32) + b / 32) * 4096 + 4 * (32 * (a % 32) + b % 32)),
     t.fP (a / 32) (b / 32))
  else (0, 30)

/-- Element (i, j) of A with its format; `bank` holds the variable rows (R51). -/
def aElem (t : Tmpl) (s : Store) (bank : Bool) (i j : Nat) : Int × Nat :=
  let nf := t.m - t.mv
  if i < nf then
    if t.aPresent (i / 32) (j / 32) then
      (s (0x224000 + rankOf t.amap (16 * (i / 32) + j / 32) * 4096 + 4 * (32 * (i % 32) + j % 32)),
       t.fA (i / 32) (j / 32))
    else (0, 30)
  else (s ((if bank then 0x3A4000 else 0x364000) + (i - nf) * 2048 + 4 * j), t.vfmt)

/-- Nearest-even rounding, or truncation toward minus infinity in RESET and SELFTEST (R60). -/
def solverRound (trunc : Bool) (r : Rat) : Int := if trunc then r.floor else ratRound r

/-- A shift right with the rounding of R60. -/
def rshift (trunc : Bool) (x : Int) (n : Nat) : Int := if trunc then Int.fdiv x (2 ^ n) else roundDiv x (2 ^ n)

/-- One addition into the 72-bit accumulator; the flag says that it has left its range, and the sum is
then held at full scale (R58, R73). -/
def acc72 (s : Int × Bool) (x : Int) : Int × Bool := (clampS 72 (s.1 + x), s.2 || decide (clampS 72 (s.1 + x) ≠ s.1 + x))

/-- The blocks that meet a row or column of a product: format of each, its elements and the vector's. A
block of the map's absent ones is left out. -/
abbrev RowBlocks := List (Nat × List (Int × Int))

/-- A row total (R58): exact 32-term partial sums, the smallest format among the blocks that are present
in the row, and whether the accumulator overflowed at an addition. DESIGN CHOICE (log entry 30): a present
block contributes to f_min whatever its elements are. -/
def rowTotal (trunc : Bool) (row : RowBlocks) : Int × Nat × Bool :=
  let fmin := row.foldl (fun f b => min f b.1) 30
  let tot := row.foldl (fun a b => acc72 a (rshift trunc (b.2.foldl (fun p e => p + e.1 * e.2) 0) (b.1 - fmin))) (0, false)
  (tot.1, fmin, tot.2)

/-- The indexes of block `c` that lie below `n`. -/
def blockIdx (c n : Nat) : List Nat := ((List.range 32).map (32 * c + ·)).filter (· < n)

/-! Vectors -/

def BVec.val (v : BVec) (i : Nat) : Rat :=
  if v.e = -128 then 0 else qv 31 ((v.m[i]?).getD 0) * pow2 v.e

def BVec.vals (v : BVec) : List Rat := (List.range v.m.length).map v.val

def maxAbs (l : List Rat) : Rat := l.foldl (fun a r => ratMax a (ratAbs r)) 0

/-- A step that may raise the range monitors. -/
abbrev SolveM := StateM SolveStat

/-- R59, R73: exact values narrowed with one exponent. DESIGN CHOICE (log entry 103): an exponent above 127 sets
DEGRADED and counts clamped elements wherever a vector is normalised, not in an iteration only. -/
def normalise (l : List Rat) : SolveM BVec := do
  let mx := maxAbs l
  if mx = 0 then return ⟨l.map fun _ => 0, -128⟩
  let lead : Int := (mx.num.toNat.log2 : Int) - mx.den.log2
  let lead := if mx < pow2 lead then lead - 1 else lead
  -- mx lies in [2^lead, 2^(lead + 1)): the mantissa of mx is in [2^29, 2^30) for e = lead + 2
  let e := lead + 2
  let tr := (← get).trunc
  let mant (e : Int) : List Int := l.map fun r => solverRound tr (r * pow2 (31 - e))
  let e := if (mant e).any (fun x => decide (2 ^ 30 ≤ x.natAbs)) then e + 1 else e
  if 127 < e then
    let big : Int := 2 ^ 31 - 1
    let m := mant 127
    modify fun st => { st with degraded := true,
                               satCnt := st.satCnt + (m.filter fun x => big < (x.natAbs : Int)).length }
    return ⟨m.map fun x => clampI (-big) big x, 127⟩
  if e < -127 then
    modify fun st => { st with underflow := st.underflow + 1 }
    return ⟨mant (-127), -127⟩
  return ⟨mant e, e⟩

/-- A matrix-vector product (R58): one row total per element of the result, `v` the vector. A total beyond
the accumulator counts as a clamped element and makes the solve DEGRADED (R73). -/
def matVec (v : BVec) (rows : List RowBlocks) : SolveM BVec := do
  let tr := (← get).trunc
  let r := rows.map (rowTotal tr)
  let vals := r.map fun t => if v.e = -128 then 0 else qv (31 + t.2.1) t.1 * pow2 v.e
  let sats := (r.filter (·.2.2)).length
  modify fun st => { st with degraded := st.degraded || sats ≠ 0, satCnt := st.satCnt + sats }
  normalise vals

/-- A linear combination of two vectors (R59). -/
def lin (a : Rat) (x : BVec) (b : Rat) (y : BVec) : SolveM BVec :=
  normalise ((List.range x.m.length).map fun i => a * x.val i + b * y.val i)

/-- A vector times a scalar, normalised on its own (R67). -/
def scale (a : Rat) (x : BVec) : SolveM BVec := normalise ((List.range x.m.length).map fun i => a * x.val i)

/-- A bound vector as stored: the mantissa `infMant` means infinite whatever the exponent is (R47). -/
def readBound (v : BVec) (infMant : Int) : Bounds := ⟨v, v.m.map fun x => decide (x = infMant)⟩

/-- A bound vector normalised at the start of a solve, infinite bounds excluded and kept (R47, R59, R61). DESIGN
CHOICE (log entry 102): where every finite element is 0, or no element is finite, the exponent stored is -128. -/
def normBound (v : BVec) (infMant : Int) : SolveM BVec := do
  let inf := v.m.map fun x => decide (x = infMant)
  let r ← normalise ((List.range v.m.length).map fun i => if (inf[i]?).getD false then 0 else v.val i)
  return ⟨(r.m.zip inf).map fun p => if p.2 then infMant else p.1, r.e⟩

def Bounds.lower (b : Bounds) (i : Nat) (x : Rat) : Rat :=
  if (b.inf[i]?).getD false then x else ratMax (b.v.val i) x
def Bounds.upper (b : Bounds) (i : Nat) (x : Rat) : Rat :=
  if (b.inf[i]?).getD false then x else ratMin (b.v.val i) x

/-- clip of the iteration. -/
def clip (l u : Bounds) (v : List Rat) : List Rat := v.zipIdx.map fun p => u.upper p.2 (l.lower p.2 p.1)

/-! Factorisation (R53, R55, R66-R69) -/

def getA (a : Array Int) (n i j : Nat) : Int := a.getD (i * n + j) 0

/-- A value in the format of its factor block, or none where it does not fit (R73). -/
def fitK (t : Tmpl) (i j : Nat) (v : Rat) : Option Int :=
  let x := solverRound t.trunc (v * (2 ^ t.fK (i / 32) (j / 32) : Nat))
  if clampS 32 x = x then some x else none

def kVal (t : Tmpl) (n : Nat) (a : Array Int) (i j : Nat) : Rat :=
  qv (t.fK (i / 32) (j / 32)) (getA a n i j)

/-- How a factorisation fails. -/
abbrev FacRes := Except Bool Factor -- true: FACTOR_RANGE, false: FACTOR_PIVOT

/-- 1/L_jj as a reciprocal table entry: U1.23 mantissa and signed exponent (R65). -/
def recipWord (r : Rat) : W32 :=
  if r ≤ 0 then 0
  else
    let e : Int := (r.num.toNat.log2 : Int) - r.den.log2
    let e := if r < pow2 e then e - 1 else e
    let m := toQ 23 (r * pow2 (-e))
    let (m, e) := if 2 ^ 24 ≤ m then (2 ^ 23, e + 1) else (m, e)
    BitVec.ofNat 32 (m.toNat % 2 ^ 24 * 256) ||| (BitVec.ofInt 8 e).zeroExtend 32

def recipVal (w : W32) : Rat := qv 23 (bits w 31 8) * pow2 (BitVec.ofNat 8 (bits w 7 0)).toInt

/-- An exact value lies in the 72-bit accumulator with `f` fraction bits (R73). -/
def fits72 (f : Nat) (v : Rat) : Bool := decide (clampS 72 (v * (2 ^ f : Nat)).floor = (v * (2 ^ f : Nat)).floor)

/-- The block rows of fixed A that hold both columns, with the fraction bits of their products. -/
def Tmpl.rowPairs (t : Tmpl) (i j : Nat) : List (Nat × Nat) :=
  ((List.range t.mf).filter fun r => t.aPresent r (i / 32) && t.aPresent r (j / 32)).map fun r =>
    (r, t.fA r (i / 32) + t.fA r (j / 32))

/-- K = P + σI + ρ AᵀA over the fixed rows, narrowed block by block. A sum of products that leaves the
accumulator is FACTOR_RANGE (R73). DESIGN CHOICE (log entry 30): a padded diagonal element of K holds σ, as
the formula of R53 gives it, so a σ that rounds to 0 in that block's format fails the padded pivot. -/
def formK (t : Tmpl) (s : Store) (rho : W32) : Except Bool (Array Int) :=
  let n := t.nb * 32
  let nf := t.m - t.mv
  (List.range n).foldlM (fun a i => (List.range (i + 1)).foldlM (fun (a : Array Int) j =>
    let p := pElem t s i j
    let pv := if i < t.n then qv p.2 p.1 else 0
    let prs := t.rowPairs i j
    let fmin := prs.foldl (fun f p => min f p.2) 60
    let sum := prs.foldl (fun (acc : Rat × Bool) p =>
      let part := (blockIdx p.1 nf).foldl (fun q k => q + (aElem t s false k i).1 * (aElem t s false k j).1) 0
      let tot := acc.1 + qv p.2 part
      (tot, acc.2 && fits72 fmin tot)) ((0 : Rat), true)
    let v := pv + (if i = j then s16e8 t.sigma else 0) + s16e8 rho * sum.1
    if !sum.2 then .error true else
    match fitK t i j v with
    | none => .error true
    | some x => .ok (a.setIfInBounds (i * n + j) x)) a) (Array.replicate (n * n) 0)

/-- Right-looking block Cholesky in place (R68): block column `b` is finished element by element, then
every block to its right takes its Schur update, narrowed once. Its sums have 32 products of 31-bit
magnitudes at most and stay within 72 bits. DESIGN CHOICE (log entry 30): L_ij is formed with the stored
24-bit reciprocal of L_jj, and a pivot d_j > 0 whose L_jj rounds to 0 in its block's format is reported as
FACTOR_PIVOT. -/
def cholBlock (t : Tmpl) (n b : Nat) (f : Factor) : FacRes := do
  let f ← (List.range 32).foldlM (fun (f : Factor) c => do
    let j := 32 * b + c
    let inner (i : Nat) : Rat := (List.range c).foldl (fun acc k =>
      acc + kVal t n f.l i (32 * b + k) * kVal t n f.l j (32 * b + k)) 0
    let dj := kVal t n f.l j j - inner j
    if dj ≤ 0 then .error false
    else
      let some ljj := fitK t j j (ratSqrtDown 40 dj) | .error true
      if ljj ≤ 0 then .error false
      else
        let rw := recipWord (1 / qv (t.fK b b) ljj)
        let f1 : Factor := ⟨f.l.setIfInBounds (j * n + j) ljj, f.recips.setIfInBounds j rw⟩
        (List.range (n - j - 1)).foldlM (fun (g : Factor) o =>
          let i := j + 1 + o
          match fitK t i j ((kVal t n f.l i j - inner i) * recipVal rw) with
          | none => .error true
          | some x => .ok ⟨g.l.setIfInBounds (i * n + j) x, g.recips⟩) f1) f
  let lo := 32 * (b + 1)
  (List.range (n - lo)).foldlM (fun (g : Factor) oi =>
    let i := lo + oi
    (List.range (oi + 1)).foldlM (fun (g : Factor) oj =>
      let j := lo + oj
      let sum := (List.range 32).foldl (fun acc k =>
        acc + kVal t n f.l i (32 * b + k) * kVal t n f.l j (32 * b + k)) (0 : Rat)
      match fitK t i j (kVal t n f.l i j - sum) with
      | none => .error true
      | some x => .ok ⟨g.l.setIfInBounds (i * n + j) x, g.recips⟩) g) f

/-- Formation and factorisation of a slot. -/
def factorise (t : Tmpl) (s : Store) (rho : W32) : FacRes := do
  let n := t.nb * 32
  let k ← formK t s rho
  (List.range t.nb).foldlM (fun f b => cholBlock t n b f) (⟨k, Array.replicate n 0⟩ : Factor)

/-- Column `k` of a rank-1 update: the factor and what is left of the row (R69). DESIGN CHOICE (log entry
30): L_ik and the row left are formed with the stored 24-bit reciprocal of the new L_kk, as in the
factorisation, and an L_kk that rounds to 0 is reported as FACTOR_PIVOT. -/
def rankColumn (t : Tmpl) (n : Nat) (s : Factor × Array Rat) (k : Nat) : Except Bool (Factor × Array Rat) :=
  let lkk := kVal t n s.1.l k k
  let wk := s.2.getD k 0
  if wk = 0 then .ok s
  else
    match fitK t k k (ratSqrtDown 40 (lkk * lkk + wk * wk)) with
    | none => .error true
    | some r =>
      let rv := qv (t.fK (k / 32) (k / 32)) r
      if rv ≤ 0 then .error false
      else
        let rw := recipWord (1 / rv)
        let g : Factor := ⟨s.1.l.setIfInBounds (k * n + k) r, s.1.recips.setIfInBounds k rw⟩
        (List.range (n - k - 1)).foldlM (fun (q : Factor × Array Rat) o =>
          let i := k + 1 + o
          let lik := kVal t n s.1.l i k
          let wi := s.2.getD i 0
          match fitK t i k ((lkk * lik + wk * wi) * recipVal rw) with
          | none => Except.error true
          | some x => Except.ok ((⟨q.1.l.setIfInBounds (i * n + k) x, q.1.recips⟩ : Factor),
              q.2.setIfInBounds i ((lkk * wi - wk * lik) * recipVal rw))) (g, s.2)

/-- One rank-1 update of the factor by a row (R69). -/
def rankOne (t : Tmpl) (n : Nat) (f : Factor) (w : List Rat) : FacRes :=
  ((List.range n).foldlM (rankColumn t n) (f, w.toArray)).map (·.1)

/-- The rank-MV update by the rows of √ρ·A_v, in row order (R69). -/
def rankUpdate (t : Tmpl) (s : Store) (bank : Bool) (rho : W32) (f : Factor) : FacRes :=
  let n := t.nb * 32
  let sr := ratSqrtDown 40 (s16e8 rho)
  (List.range t.mv).foldlM (fun f r =>
    rankOne t n f ((List.range n).map fun j =>
      if j < t.n then let e := aElem t s bank (t.m - t.mv + r) j; sr * qv e.2 e.1 else 0)) f

/-- A sum in the accumulator with `f` fraction bits above exponent `e`: held at full scale and counted where
it leaves 72 bits (R73). -/
def accSum (f : Nat) (e : Int) (v : Rat) : SolveM Rat := do
  let lim : Rat := ((2 ^ 71 : Nat) : Rat) * pow2 (e - f)
  if v < -lim ∨ lim ≤ v then
    modify fun st => { st with degraded := true, satCnt := st.satCnt + 1 }
    return (if v < 0 then -lim else lim - pow2 (e - f))
  else return v

/-- The smallest format among the factor blocks of row (or column) `i` up to block `b`. -/
def Tmpl.fKmin (t : Tmpl) (blocks : List (Nat × Nat)) : Nat := blocks.foldl (fun f b => min f (t.fK b.1 b.2)) 30

/-- L⁻ᵀ L⁻¹ b with the stored factor and reciprocals. -/
def factorSolve (t : Tmpl) (f : Factor) (b : BVec) : SolveM BVec := do
  let n := t.nb * 32
  let inv (i : Nat) : Rat := recipVal (f.recips.getD i 0)
  let fwd ← (List.range n).foldlM (fun (y : Array Rat) i => do
    let sum ← accSum (31 + t.fKmin ((List.range (i / 32 + 1)).map fun j => (i / 32, j))) b.e
      ((List.range i).foldl (fun a j => a + kVal t n f.l i j * y.getD j 0) (0 : Rat))
    return y.push ((b.val i - sum) * inv i)) #[]
  let v ← normalise fwd.toList
  let back ← (List.range n).foldlM (fun (x : Array Rat) o => do
    let i := n - 1 - o
    let sum ← accSum (31 + t.fKmin ((List.range (t.nb - i / 32)).map fun j => (i / 32 + j, i / 32))) v.e
      ((List.range (n - 1 - i)).foldl (fun a k => a + kVal t n f.l (i + 1 + k) i * x.getD (i + 1 + k) 0) (0 : Rat))
    return x.setIfInBounds i ((v.val i - sum) * inv i)) (Array.replicate n 0)
  normalise (back.toList.take t.n)

/-! The iteration -/

/-- A block of a product from its row and column indexes. -/
def block (f : Nat) (v : BVec) (elem : Nat → Int) (idx : List Nat) : Nat × List (Int × Int) :=
  (f, idx.map fun j => (elem j, (v.m[j]?).getD 0))

/-- P v (R50, R58). -/
def SolveIn.p (i : SolveIn) (v : BVec) : SolveM BVec :=
  matVec v ((List.range i.t.n).map fun r =>
    ((List.range i.t.nb).filter fun c => i.t.pPresent (min (r / 32) c) (max (r / 32) c)).map fun c =>
      block (i.t.fP (min (r / 32) c) (max (r / 32) c)) v (fun j => (pElem i.t i.s r j).1) (blockIdx c i.t.n))

/-- Rows of A times v: a fixed row meets the present blocks of its block row, a variable row every block column
(R51, R58). -/
def SolveIn.aRows (i : SolveIn) (v : BVec) (rows : List Nat) : SolveM BVec :=
  let nf := i.t.m - i.t.mv
  matVec v (rows.map fun r =>
    ((List.range i.t.nb).filter fun c => nf ≤ r || i.t.aPresent (r / 32) c).map fun c =>
      block (if r < nf then i.t.fA (r / 32) c else i.t.vfmt) v (fun j => (aElem i.t i.s i.bank r j).1) (blockIdx c i.t.n))

/-- A v (R51, R58). -/
def SolveIn.a (i : SolveIn) (v : BVec) : SolveM BVec := i.aRows v (List.range i.t.m)

/-- A_v v: the variable rows on their own (R71). -/
def SolveIn.av (i : SolveIn) (v : BVec) : SolveM BVec :=
  if i.t.mv = 0 then return ⟨[], -128⟩ else i.aRows v ((List.range i.t.mv).map (i.t.m - i.t.mv + ·))

/-- Aᵀ v: a column meets the present fixed blocks of its block column, then the variable rows in blocks of
32 of their own (R51, R58). -/
def SolveIn.at (i : SolveIn) (v : BVec) : SolveM BVec :=
  let nf := i.t.m - i.t.mv
  matVec v ((List.range i.t.n).map fun c =>
    (((List.range i.t.mf).filter fun r => i.t.aPresent r (c / 32)).map fun r =>
      block (i.t.fA r (c / 32)) v (fun k => (aElem i.t i.s i.bank k c).1) (blockIdx r nf)) ++
    (List.range i.t.kb).map fun r =>
      block i.t.vfmt v (fun k => (aElem i.t i.s i.bank k c).1) ((blockIdx r i.t.mv).map (nf + ·)))

/-- x~ of an iteration (R67). DESIGN CHOICE (log entry 105): the sum of three terms is made in two additions, each
normalised, where `residuals` forms Px + q + Aᵀy as one sum normalised once. DESIGN CHOICE (log entry 30): every product with a scalar, 1/ρ included, is
normalised on its own by R67; only α·a + (1 − α)·b, which R59 names, is formed in the accumulator at once. -/
def admmX (i : SolveIn) (f : Factor) (x z y : BVec) : SolveM BVec := do
  let t1 ← scale i.rho z
  let t2 ← lin 1 t1 (-1) y
  let t3 ← i.at t2
  let t4 ← scale i.sigma x
  let t5 ← lin 1 t4 (-1) i.q
  let t6 ← lin 1 t5 1 t3
  factorSolve i.t f t6

/-- One ADMM iteration (R67): x, z, y, and the x~ and z~ they come from; the scalar products as in `admmX`. -/
def admmStep (i : SolveIn) (f : Factor) (x z y : BVec) : SolveM ((BVec × BVec × BVec) × BVec × BVec) := do
  let al := s16e8 i.t.alpha
  let xt ← admmX i f x z y
  let zt ← i.a xt
  let x' ← lin al xt (1 - al) x
  let zr ← lin al zt (1 - al) z
  let yr ← scale (1 / i.rho) y
  let sum ← lin 1 zr 1 yr
  let zn ← normalise (clip i.l i.u sum.vals)
  let df ← lin 1 zr (-1) zn
  let rd ← scale i.rho df
  let y' ← lin 1 y 1 rd
  return ((x', zn, y'), xt, zt)

/-- The residuals and right-hand sides of R70: r_p, its limit, r_d, its limit. DESIGN CHOICE (log entry 105): the
three terms of the dual residual are summed exactly and normalised once. -/
def residuals (i : SolveIn) (x z y : BVec) : SolveM (Rat × Rat × Rat × Rat) := do
  let ea := s16e8 i.t.epsAbs
  let er := s16e8 i.t.epsRel
  let ax ← i.a x
  let px ← i.p x
  let ay ← i.at y
  let rp ← lin 1 ax (-1) z
  let rd ← normalise ((List.range i.t.n).map fun k => px.val k + i.q.val k + ay.val k)
  return (maxAbs rp.vals, ea + er * ratMax (maxAbs ax.vals) (maxAbs z.vals),
    maxAbs rd.vals, ea + er * ratMax (maxAbs px.vals) (ratMax (maxAbs ay.vals) (maxAbs i.q.vals)))

/-- One iteration with its check where one is due; converged ends the solve. -/
def solveStep (i : SolveIn) (f : Factor) (k : Nat) (r : SolveRes) : SolveRes :=
  let s := (admmStep i f r.x r.z r.y).run r.stat
  let r := { r with x := s.1.1.1, z := s.1.1.2.1, y := s.1.1.2.2, xt := s.1.2.1, zt := s.1.2.2, stat := s.2, iters := k }
  if i.t.resid && k % (max 1 i.t.checkInt) = 0 then
    let c := (residuals i r.x r.z r.y).run r.stat
    let ok := decide (c.1.1 ≤ c.1.2.1) && decide (c.1.2.2.1 ≤ c.1.2.2.2)
    { r with stat := c.2, rp := c.1.1, rpLim := c.1.2.1, rd := c.1.2.2.1, rdLim := c.1.2.2.2,
             converged := ok, valid := ok }
  else r

/-- The iterations from number `k` on, `fuel` of them at most (R67). -/
def iterate (i : SolveIn) (f : Factor) : Nat → Nat → SolveRes → SolveRes
  | 0, _, r => { r with cap := true, valid := true }
  | fuel + 1, k, r =>
    let r' := solveStep i f k r
    if r'.converged then r' else iterate i f fuel (k + 1) r'

/-! Store access -/

/-- Vector slots of R65. -/
def vecQ : Nat := 0
def vecL : Nat := 1
def vecU : Nat := 2
def vecX : Nat := 3
def vecZ : Nat := 4
def vecY : Nat := 5
def vecXt : Nat := 6
def vecZt : Nat := 7
def vecWx : Nat := 8
def vecWz : Nat := 9
def vecWy : Nat := 10

def Die.readVec (d : Die) (w slot n : Nat) : BVec :=
  ⟨(List.range n).map fun i => d.store w (0x3E4000 + slot * 4096 + 4 * i),
   (d.sram.get 0 (storeBase w + 0x3F1000 + slot)).toInt⟩

def Die.writeWords (a : Nat) (l : List W32) (d : Die) : Die :=
  { d with sram := d.sram.write 0 a (l.flatMap fun v => leBytes 4 v.toNat) }

def Die.writeByte (a : Nat) (v : Byte) (d : Die) : Die := { d with sram := d.sram.put 0 a v }

def Die.writeVec (w slot : Nat) (v : BVec) (d : Die) : Die :=
  (d.writeWords (storeBase w + 0x3E4000 + slot * 4096) (v.m.map (BitVec.ofInt 32))).writeByte
    (storeBase w + 0x3F1000 + slot) (BitVec.ofInt 8 v.e)

/-- The BAR2 offset of factor area 0, 1 or 2 (working), and of its reciprocal table. -/
def factorBase (w k : Nat) : Nat := storeBase w + 0x8C000 + k * 0x88000
def recipBase (w k : Nat) : Nat := storeBase w + 0x3F2000 + k * 0x800

/-- Address of element (i, j), j ≤ i, of a factor area. -/
def factorAddr (w k i j : Nat) : Nat :=
  factorBase w k + ((i / 32) * (i / 32 + 1) / 2 + j / 32) * 4096 + 4 * (32 * (i % 32) + j % 32)

def Die.readFactor (d : Die) (w k : Nat) (t : Tmpl) : Factor :=
  let n := t.nb * 32
  ⟨(Array.range (n * n)).map fun p =>
     if p % n ≤ p / n then (d.sram.word (factorAddr w k (p / n) (p % n))).toInt else 0,
   (Array.range n).map fun i => d.sram.word (recipBase w k + 4 * i)⟩

def Die.writeFactor (w k : Nat) (t : Tmpl) (f : Factor) (d : Die) : Die :=
  let n := t.nb * 32
  let d := (List.range n).foldl (fun d i => (List.range (i + 1)).foldl (fun d j =>
    { d with sram := d.sram.putWord (factorAddr w k i j) (BitVec.ofInt 32 (getA f.l n i j)) }) d) d
  d.writeWords (recipBase w k) f.recips.toList

/-- Where element `k` of a shifted vector comes from (R71). -/
def shiftSrc (shifted : Bool) (per steps k : Nat) : Nat :=
  if shifted && decide (k < steps * per) && decide (k / per + 1 < steps) then k + per else k

/-- The warm vectors as a start, shifted by one step or not (R71). DESIGN CHOICE (log entry 104): the shifted x keeps
its mantissas and its exponent; z and y are normalised. -/
def Die.warmStart (d : Die) (w : Nat) (t : Tmpl) (i : SolveIn) (shifted : Bool) :
    SolveM (BVec × BVec × BVec) := do
  let nf := t.m - t.mv
  let x := d.readVec w vecWx t.n
  let z := d.readVec w vecWz t.m
  let y := d.readVec w vecWy t.m
  let xs : BVec := ⟨(List.range t.n).map fun k => (x.m[shiftSrc shifted t.ns t.h k]?).getD 0, x.e⟩
  let ax ← i.av xs
  let zs ← normalise ((List.range t.m).map fun k =>
    if k < nf then z.val (shiftSrc shifted t.rs t.h k) else i.u.upper k (i.l.lower k (ax.val (k - nf))))
  let ys ← normalise ((List.range t.m).map fun k =>
    if k < nf then y.val (shiftSrc shifted t.rs t.h k) else 0)
  return (xs, zs, ys)

/-- The cells of a region's store that hold P and fixed A (R65). -/
def Die.matCells (d : Die) (w : Nat) : List Host.Cell :=
  d.sram.cells.filter fun c => storeBase w ≤ c.1 &&
    (let a := c.1 - storeBase w; (0x4000 ≤ a && a < 0x8C000) || (0x224000 ≤ a && a < 0x364000))

def Region.builtOf (r : Region) (s : Bool) : Option SlotBuild := if s then r.built1 else r.built0

/-- The store as a solve on a slot sees it: P and fixed A as the slot was built from (R66). -/
def Die.slotStore (d : Die) (w : Nat) : Option SlotBuild → Store
  | none => d.store w
  | some b => fun a =>
    if (0x4000 ≤ a && a < 0x8C000) || (0x224000 ≤ a && a < 0x364000) then
      ((⟨b.mats⟩ : Memory).word (storeBase w + a)).toInt
    else d.store w a

/-- The inputs of a solve that has started: q, l and u stand normalised in the store (R61). A slot that is
not refactored keeps the σ, P and fixed A it was built with (R66). -/
def Die.solveIn (d : Die) (w : Nat) (slot refactor bank : Bool) : SolveIn :=
  let t := d.tmpl w
  let b := if refactor then none else (((d.regions[w]?).getD {}).builtOf slot)
  { t := t, s := d.slotStore w b, bank := bank, q := d.readVec w vecQ t.n,
    l := readBound (d.readVec w vecL t.m) (-(2 ^ 31)), u := readBound (d.readVec w vecU t.m) (2 ^ 31 - 1),
    rho := s16e8 (if slot then t.rho1 else t.rho0), sigma := s16e8 ((b.map (·.sigma)).getD t.sigma) }

/-- R49: a row whose lower bound, as written, lies above its upper bound. -/
def Die.badBounds (d : Die) (w : Nat) : Bool :=
  let t := d.tmpl w
  let l := readBound (d.readVec w vecL t.m) (-(2 ^ 31))
  let u := readBound (d.readVec w vecU t.m) (2 ^ 31 - 1)
  (List.range t.m).any fun k =>
    !(l.inf[k]?).getD false && !(u.inf[k]?).getD false && decide (u.v.val k < l.v.val k)

/-- The start of a solve normalises q, l and u in their slots (R61, R67). -/
def Die.normaliseInputs (w : Nat) (d : Die) : Die × SolveStat :=
  let t := d.tmpl w
  let m : SolveM (BVec × BVec × BVec) := do
    let q ← normalise ((d.readVec w vecQ t.n).vals)
    let l ← normBound (d.readVec w vecL t.m) (-(2 ^ 31))
    let u ← normBound (d.readVec w vecU t.m) (2 ^ 31 - 1)
    return (q, l, u)
  let r := m.run { trunc := t.trunc }
  (((d.writeVec w vecQ r.1.1).writeVec w vecL r.1.2.1).writeVec w vecU r.1.2.2, r.2)

/-- The factor a solve works with: the slot's, formed anew where asked (R67). -/
def Die.slotFactor (d : Die) (w : Nat) (slot refactor : Bool) : FacRes :=
  let t := d.tmpl w
  if refactor then factorise t (d.store w) (if slot then t.rho1 else t.rho0)
  else .ok (d.readFactor w (if slot then 1 else 0) t)

/-- A solve that has started, on the store of a region, up to iteration `limit` (R67). -/
def Die.solveTo (d : Die) (w : Nat) (run : SolveRun) (limit : Nat) : SolveRes :=
  let t := d.tmpl w
  let i := d.solveIn w run.slot run.refactor run.vbank
  match d.slotFactor w run.slot run.refactor with
  | .error r => { range := r, pivot := !r, stat := run.stat }
  | .ok f =>
    let made := if run.refactor then some f else none
    let upd : FacRes := if 0 < t.mv then rankUpdate t i.s run.vbank (if run.slot then t.rho1 else t.rho0) f else .ok f
    match upd with
    | .error r => { range := r, pivot := !r, stat := run.stat, factor := made }
    | .ok lw =>
      let work := if 0 < t.mv then some lw else none
      if t.iterCap = 0 then { stat := run.stat, factor := made, work := work }
      else
        let zero (n : Nat) : BVec := ⟨List.replicate n 0, -128⟩
        let start : SolveM (BVec × BVec × BVec) := match run.warm with
          | .cold => pure (zero t.n, zero t.m, zero t.m)
          | .plain => d.warmStart w t i false
          | .shifted => d.warmStart w t i (decide (t.shift = 1))
        let s := start.run run.stat
        iterate i lw (min limit t.iterCap) 1
          { x := s.1.1, z := s.1.2.1, y := s.1.2.2, stat := s.2, factor := made, work := work }

/-- A whole solve (R67). -/
def Die.solve (d : Die) (w : Nat) (run : SolveRun) : SolveRes := d.solveTo w run (d.tmpl w).iterCap

/-- What the solve record says of a result. -/
def SolveRes.sum (r : SolveRes) : SolveSum :=
  { iters := r.iters, rp := toS16E8 r.rp, rd := toS16E8 r.rd, stat := r.stat, converged := r.converged,
    cap := r.cap && !r.converged }

/-! Costs (R77) -/

def Tmpl.rowBlocks (t : Tmpl) (r : Nat) : Nat := ((List.range 16).filter fun c => t.aPresent r c).length

/-- Formation and factorisation. -/
def Tmpl.factCycles (t : Tmpl) : Nat :=
  32 * ((List.range t.mf).foldl (fun a r => a + t.rowBlocks r * (t.rowBlocks r + 1) / 2) 0)
    + 32 * (t.nb * (t.nb + 1) / 2) + (32 * t.nb ^ 3 + 2) / 3

def Tmpl.updateCycles (t : Tmpl) : Nat := if t.mv = 0 then 0 else 32 * t.nb ^ 2 * t.kb
def Tmpl.warmCycles (t : Tmpl) : Nat := 2 * (t.nb + t.mb) + t.nb * t.kb + 32
def Tmpl.iterCycles (t : Tmpl) : Nat :=
  2 * (t.nb * (t.nb - 1) / 2 + 8 * t.nb) + 2 * (t.nab + t.nb * t.kb) + 4 * (t.nb + t.mb) + 96
def Tmpl.checkCycles (t : Tmpl) : Nat := 2 * t.npb + t.nab + t.nb * t.kb + 4 * (t.nb + t.mb) + 64

/-- Cycles of a solve that made `iters` iterations. -/
def Tmpl.solveCycles (t : Tmpl) (refactor warm : Bool) (iters : Nat) : Nat :=
  400 + (if refactor then t.factCycles else 0) + t.updateCycles + (if warm then t.warmCycles else 0)
    + iters * t.iterCycles + (if t.resid then iters / max 1 t.checkInt * t.checkCycles else 0)

end Sys2Proof.Machine
end

