-- ==== Sys2Proof/Machine/Region.lean ====
section
/-! DEFINITION. Region planning on time: arming, solving, publishing, missing (chapter 03). -/

namespace Sys2Proof.Machine

def Die.uidRegion (d : Die) (w : Nat) : W16 := d.uid 2 w

def Region.count (i : Fin 14) (r : Region) : Region := { r with cnt := vupd r.cnt i satInc }

/-- The joints a region serves, in increasing number: rank k of RGN_PRED (R106). -/
def Die.regionJoints (d : Die) (w : Nat) : List Nat :=
  (List.range 128).filter fun j => (d.jnt j).used && (d.jnt j).region = w

/-- The arms of a region. -/
def Die.regionArms (d : Die) (w : Nat) : List Nat :=
  ((d.regionJoints w).map fun j => (d.jnt j).cfg.arm).eraseDups

/-! The plan interpolator (R194-R196) -/

/-- The quintic between two points 1 ms apart, `u` seconds after the first. -/
def quintic (a b : Int × Int × Int) (u : Rat) : Int × Int × Int :=
  let h : Rat := mkRat 1 1000
  let p0 := qv 20 a.1; let v0 := qv 20 a.2.1; let a0 := qv 16 a.2.2
  let p1 := qv 20 b.1; let v1 := qv 20 b.2.1; let a1 := qv 16 b.2.2
  let c3 := (20 * (p1 - p0) - (8 * v1 + 12 * v0) * h - (3 * a0 - a1) * h * h) / (2 * h * h * h)
  let c4 := (30 * (p0 - p1) + (14 * v1 + 16 * v0) * h + (3 * a0 - 2 * a1) * h * h) / (2 * h * h * h * h)
  let c5 := (12 * (p1 - p0) - 6 * (v1 + v0) * h - (a0 - a1) * h * h) / (2 * h * h * h * h * h)
  (clampS 32 (toQ 20 (p0 + v0 * u + a0 / 2 * u * u + c3 * u * u * u + c4 * u * u * u * u + c5 * u * u * u * u * u)),
   clampS 32 (toQ 20 (v0 + a0 * u + 3 * c3 * u * u + 4 * c4 * u * u * u + 5 * c5 * u * u * u * u)),
   clampS 32 (toQ 16 (a0 + 6 * c3 * u + 12 * c4 * u * u + 20 * c5 * u * u * u)))

/-- A joint of a plan at plan time `tau`; beyond the last point it is held (R196). -/
def Plan.at (p : Plan) (j : Nat) (tau : Nat) : Option (Int × Int × Int) :=
  match p.joints.find? (·.1 = j) with
  | none => none
  | some (_, pts) =>
    let t := (tau + 2 ^ 48 - p.tau) % 2 ^ 48
    let ms := 1000000 * 65536
    let k := t / ms
    match pts[k]?, pts[k + 1]? with
    | some a, some b => some (quintic a b (planSec (t % ms)))
    | _, _ => pts.getLast?.map fun l => (l.1, 0, 0)

/-- A slowed plan `k` cycles ahead under a scale (R100). -/
def pathAhead (s : W16) (tc : Nat) : Nat → PathStop → PathStop
  | 0, p => p
  | n + 1, p =>
    pathAhead s tc n { p with cyc := p.cyc + 1, sigma := max 0 (p.sigma - p.fall),
                              tau := (p.tau + (p.sigma * (2 * s.toNat * tc : Nat) / 2 ^ 30).toNat) % 2 ^ 48 }

/-- Path time and time-scale of a slowed joint at a target: unslowed up to the cycle it slows from
(R100, R163). -/
def Die.pathAt (d : Die) (w : Nat) (p : PathStop) (target : W32) : Nat × Int :=
  let k := diff32 target p.cyc
  if k ≤ 0 then (d.tauAt w target, 2 ^ 30)
  else
    let start := if 0 < diff32 p.cyc d.time.cyc then { p with tau := d.tauAt w p.cyc } else p
    let q := pathAhead (d.sepRegion w).applied d.img.cell.tc k.toNat start
    (q.tau, q.sigma)

/-- The SP entry of a joint for a target (R191, R194). On a slowed plan DQ carries the time-scale, and DDQ its
square with the fall of the scale, divided by the applied scale s because R192 multiplies DDQ by s² and the
fall acts with s (R100, R126). -/
def Die.spEntry (d : Die) (j : Nat) (target : W32) : List W32 :=
  let x := d.jnt j
  let w := x.region
  let tau := d.tauAt w target
  let at' (t : Nat) : Int × Int × Int :=
    ((d.region w).plan.bind fun p => p.at j t).getD (x.pos.toInt, 0, 0)
  let s := match x.path with
    | none => at' tau
    | some p =>
      let q := d.pathAt w p target
      let v := at' q.1
      let sg := qv 30 q.2
      let sn := qv 15 (d.sepRegion w).applied.toNat
      let fall := if sn = 0 ∨ q.2 = 0 ∨ q.2 = 2 ^ 30 then 0 else qv 20 v.2.1 * qv 30 p.fall / (tcSec d.img.cell.tc * sn)
      (v.1, clampS 32 (toQ 20 (qv 20 v.2.1 * sg)), clampS 32 (toQ 16 (qv 16 v.2.2 * sg * sg - fall)))
  [BitVec.ofInt 32 s.1, BitVec.ofInt 32 s.2.1, BitVec.ofInt 32 s.2.2, BitVec.ofNat 32 (tau / 65536)]

/-- The SP queues of a region with the role each feeds. -/
def Die.regionSpQueues (d : Die) (w : Nat) : List (Nat × Nat) :=
  (List.range 1024).filterMap fun q =>
    let x := d.queue q
    if x.used && x.cls = .sp && sameUnit x.prod (Sys2Proof.Machine.uid 0 2 w) then some (q, bits x.cons 9 0)
    else none

/-- The interpolator fills one SP queue with whole groups; without credits it stalls (R156, R169). -/
def Die.fillSp (q role : Nat) (d : Die) : Die :=
  let js := d.roleJoints role
  if js.isEmpty then d
  else (d.targetsToFill q d.time.cyc none).foldl (fun d t =>
    if (d.queue q).room < js.length then d.updQueue q Queue.stall
    else d.produceGroup q (tgtOf t) (js.map fun j => d.spEntry j t)) d

/-- The interpolator of a region at work: it fills every SP queue of the region once a plan is in use. -/
def Die.fillRegion (w : Nat) (d : Die) : Die :=
  if (d.region w).plan.isNone then d
  else (d.regionSpQueues w).foldl (fun d q => d.fillSp q.1 q.2) d

/-- A joint's time on the plan moves on at a boundary by the scale of the cycle that has ended (R100,
R126). -/
def Die.advancePath (j : Nat) (d : Die) : Die :=
  d.updJnt j fun x =>
    let next := x.path.map fun p =>
      let k := diff32 d.time.cyc p.cyc
      if k < 0 then p
      else if k = 0 then { p with tau := d.tauAt x.region d.time.cyc }
      else pathAhead (d.sepRegion x.region).prev d.img.cell.tc 1 p
    { x with path := next }

/-! Misses and tail mode (R97-R101) -/

/-- The deceleration of a joint of a plan is within DMAX at every cycle of a slowed path, at the full applied
scale (R100). -/
def pathDecel (p : Plan) (j : Nat) (dmax : Rat) (tc : Nat) : Nat → PathStop → Bool
  | 0, _ => true
  | n + 1, s =>
    let v := (p.at j s.tau).getD (0, 0, 0)
    let sg := qv 30 s.sigma
    let a := qv 16 v.2.2 * sg * sg - qv 20 v.2.1 * qv 30 s.fall / tcSec tc
    decide (-(ratSgn (qv 20 v.2.1) * a) ≤ dmax) && pathDecel p j dmax tc n (pathAhead 0x8000 tc 1 s)

/-- The deceleration limits of a joint allow the stop of R100. -/
def Die.pathFits (d : Die) (w j : Nat) : Bool :=
  let x := d.jnt j
  let last := d.lastPlanned w
  let tau := d.tauAt w last
  let fall := pathFall ((d.region w).tailLeft tau) d.img.cell.tc
  match (d.region w).plan with
  | none => true
  | some p => x.source ≠ 1 || pathDecel p j (qv 16 x.regs.pgDmax.toInt) d.img.cell.tc ((2 ^ 30 / fall).toNat + 1)
      { cyc := last, tau := tau, sigma := 2 ^ 30, fall := fall }

/-- TAIL_MODE_ENTRY (R100). -/
def Die.enterTail (w : Nat) (d : Die) : Die :=
  let fits := (d.regionJoints w).all fun j => d.pathFits w j
  let d := ((d.updRegion w fun r => { (Region.count 13 r) with state := .tail, run := none, toPublish := none }
    ).log .stop (d.uidRegion w) 0x44)
  if fits then d.stopArms 1 (d.regionArms w)
  else (d.log .stop (d.uidRegion w) 0x45).stopArms 2 (d.regionArms w)

/-- PERIOD_MISS (R98, R100). -/
def Die.periodMiss (w : Nat) (d : Die) : Die :=
  let d := d.updRegion w fun r => { (Region.count 6 r) with missConsec := satInc r.missConsec }
  let r := d.region w
  let left := r.tailLeft (d.tauAt w d.time.cyc)
  if r.state ≠ .tail && (3 ≤ r.missConsec.toNat || decide (left < r.act.minMs.toNat * 1000000 * 65536)) then
    d.enterTail w
  else d

/-! Solves -/

/-- Bits of STATUS (R76). -/
def stDone : Nat := 0
def stSolveDeadline : Nat := 10
def stFactorDeadline : Nat := 11
def stSquashed : Nat := 12

/-- The solve record (R76), written last. -/
def Die.solveRecord (w : Nat) (run : SolveRun) (status cycles : Nat) (buf : Bool) (sum : SolveSum) (d : Die) : Die :=
  let t := d.tmpl w
  let info := flag run.slot 0 + flag run.refactor 1 + flag buf 2
  let st := status + flag sum.converged 2 + flag sum.cap 3 + flag sum.stat.degraded 4 + flag (run.warm ≠ .cold) 8
    + flag run.warmReject 9
  let bytes := leBytes 8 t.sig ++ leBytes 4 run.cycStart.toNat ++ leBytes 2 sum.iters ++ leBytes 1 info ++ [0]
    ++ leBytes 4 st ++ leBytes 4 sum.rp.toNat ++ leBytes 4 sum.rd.toNat
    ++ leBytes 2 (min 65535 sum.stat.underflow) ++ leBytes 2 (min 65535 sum.stat.satCnt)
    ++ leBytes 4 cycles ++ List.replicate 28 0
  { d with sram := d.sram.write 0 (storeBase w + 0x3F6000) bytes }

def Region.validOf (r : Region) (s : Bool) : Bool := if s then r.valid1 else r.valid0

def Region.setValid (s v : Bool) (r : Region) : Region :=
  if s then { r with valid1 := v } else { r with valid0 := v }

def Region.setBuilt (s : Bool) (b : SlotBuild) (r : Region) : Region :=
  if s then { r with built1 := some b } else { r with built0 := some b }

/-- A slot is valid for the signature and the RHO_s under which it was built (R67, R84; log entry 31). -/
def Die.slotValid (d : Die) (w : Nat) (s : Bool) : Bool :=
  let t := d.tmpl w
  (d.region w).validOf s &&
    (match (d.region w).builtOf s with
     | none => true
     | some b => b.rho = (if s then t.rho1 else t.rho0) && b.sig.toNat = t.sig)

/-- R84: the slot and whether it is refactored, and the region after the choice. -/
def Die.selectSlot (d : Die) (w : Nat) (refactorCmd : Bool) : (Bool × Bool) × Region :=
  let r := d.region w
  let t := d.tmpl w
  let (s, r) : Bool × Region :=
    if r.act.pin then (r.act.pinSlot, r)
    else
      let (s, r) : Bool × Region := match r.adaptTo with
        | none => (r.cur, r)
        | some to' =>
          let r := { r with adaptTo := none }
          if d.slotValid w to' || decide (r.factCyc.toNat + r.lastCycles.toNat ≤ t.deadlineNs) then
            (to', Region.count 9 r)
          else (r.cur, Region.count 10 r)
      (if !d.slotValid w s && d.slotValid w (!s) && !refactorCmd then !s else s, r)
  let r := { r with cur := s }
  let r := if refactorCmd then r.setValid (!s) false else r
  ((s, refactorCmd || !d.slotValid w s), r)

/-- R90: the start and the counters it moves. DESIGN CHOICE (log entry 35): a tag that no row of the table
matches, period j itself from a solve that was not squashed or a later period, starts cold and counts
CNT_WARM_STALE. -/
def Die.selectWarm (d : Die) (w : Nat) (period : W32) : WarmKind × Bool × (Region → Region) :=
  let r := d.region w
  let t := d.tmpl w
  if !t.warm then (.cold, false, fun r => r)
  else if !r.warmWritten then (.cold, false, Region.count 5)
  else if r.warmSig.toNat ≠ t.sig then (.cold, true, Region.count 4)
  else if r.warmPeriod = period && r.warmSquashed then (.plain, false, fun r => r)
  else if r.warmPeriod = period - 1 then (.shifted, false, fun r => r)
  else (.cold, false, Region.count 5)

/-- Cycles of a solve that ends now: R77, or the time it took where the power cap throttled it (R76). -/
def Die.solveCost (d : Die) (run : SolveRun) (exact : Nat) : Nat :=
  if run.stalled then (d.time.ns - run.nsStart).toNat else exact

/-- An invalid solve: its slot, record and miss (R73, R75). DESIGN CHOICE (log entry 34): the miss of an
invalid solve is counted when it ends (R105), and a deadline that then finds nothing published counts a
second one of the same period with NO_START. -/
def Die.solveInvalid (w : Nat) (run : SolveRun) (res : SolveRes) (d : Die) : Die :=
  let badSlot := run.refactor && res.factor.isNone && !res.boundOrder
  let d := d.updRegion w fun r => { (if badSlot then r.setValid run.slot false else r) with run := none, state := .idle }
  let st := 1 + flag res.range 5 + flag res.pivot 6 + flag res.boundOrder 7
  let cycles := if res.boundOrder then 400 else (d.time.ns - run.nsStart).toNat
  let d := (d.solveRecord w run st cycles false res.sum).log .warn (d.uidRegion w) 0x42
  d.periodMiss w

/-- A solve starts (R49, R61, R84, R90, R105). DESIGN CHOICE (log entry 101): a REFACTOR command clears the valid
bit of the other slot (R84) as the solve starts, before the bound test ends it with BOUND_ORDER. -/
def Die.beginSolve (w : Nat) (run : SolveRun) (d : Die) : Die :=
  let c := d.selectSlot w run.refactorCmd
  let d := d.updRegion w fun _ => Region.count 0 c.2
  let wm := d.selectWarm w run.period
  let run := { run with started := true, due := false, slot := c.1.1, refactor := c.1.2, warm := wm.1, warmReject := wm.2.1,
                        cycStart := d.time.cyc, nsStart := d.time.ns, stalled := d.mon.duty.toNat < 16 && d.mon.pwrCap ≠ 0,
                        verified := run.verified || !run.spec }
  let put (run : SolveRun) (d : Die) : Die := d.updRegion w fun r => { (wm.2.2 r) with state := .solving, run := some run }
  if d.badBounds w then (put run d).solveInvalid w run { boundOrder := true }
  else
    let n := d.normaliseInputs w
    put { run with stat := n.2 } n.1

/-- Another array of the die runs a solve. -/
def Die.otherRuns (d : Die) (w : Nat) : Bool :=
  (List.range 4).any fun k => k ≠ w && (match (d.region k).run with | some x => x.started && !x.ended | none => false)

/-- A solve is due: it starts, or waits while the power cap holds it back (R81, R599). The standby's arrays
do not solve (R26). -/
def Die.solveDue (w : Nat) (run : SolveRun) (d : Die) : Die :=
  if !d.red.grant then d
  else if d.mon.capOver && d.otherRuns w then
    d.updRegion w fun r => { r with state := .armed, run := some { run with due := true } }
  else d.beginSolve w run

/-- Solves that wait for the power cap start where it lets them (R599). -/
def Die.startWaiting (d : Die) : Die :=
  (List.range 4).foldl (fun d w =>
    match (d.region w).run with
    | some run => if run.due && !run.started then d.solveDue w run else d
    | none => d) d

/-- The result of R94 for the next solve. DESIGN CHOICE (log entry 34): where the right-hand side of an
inequality is 0, or no residual check has run, p or d is the residual itself. -/
def Die.adapt (w : Nat) (run : SolveRun) (res : SolveRes) (d : Die) : Die :=
  let t := d.tmpl w
  let r := d.region w
  let k : Rat := r.act.rhoK.toNat
  let p := if res.rpLim = 0 then res.rp else res.rp / res.rpLim
  let q := if res.rdLim = 0 then res.rd else res.rd / res.rdLim
  let r0 := s16e8 t.rho0
  let r1 := s16e8 t.rho1
  let isLower := if run.slot then decide (r1 < r0) else decide (r0 < r1)
  let isHigher := if run.slot then decide (r0 < r1) else decide (r1 < r0)
  let move := t.resid && r.act.rhoK ≠ 0 && ((isLower && decide (k * q < p)) || (isHigher && decide (k * p < q)))
  if !move then d.updRegion w fun r => { r with adaptTo := none }
  else if r.act.pin then
    let was := r.rhoConflict
    (d.updRegion w fun r => { (Region.count 11 r) with rhoConflict := true, adaptTo := none }).logOnce was .info (d.uidRegion w) 0x47
  else d.updRegion w fun r => { r with adaptTo := some (!run.slot) }

/-- The factor areas that a solve has written (R68, R69). -/
def Die.storeFactors (w : Nat) (run : SolveRun) (res : SolveRes) (d : Die) : Die :=
  let t := d.tmpl w
  let d := match res.factor with
    | none => d
    | some f =>
      let b : SlotBuild := { rho := if run.slot then t.rho1 else t.rho0, sigma := t.sigma, sig := BitVec.ofNat 64 t.sig,
                             mats := d.matCells w }
      (d.writeFactor w (if run.slot then 1 else 0) t f).updRegion w fun r => (r.setValid run.slot true).setBuilt run.slot b
  match res.work with
  | none => d
  | some f => d.writeFactor w 2 t f

/-- The vector slots that the iterations of a solve use (R65): x, z, y, x~ and z~, and the two scratch
slots, whose content the manual does not state: free values (log entry 31). -/
def Die.storeIterates (w : Nat) (res : SolveRes) (d : Die) : Die :=
  if res.iters = 0 then d
  else
    let d := ((d.writeVec w vecX res.x).writeVec w vecZ res.z).writeVec w vecY res.y
    let d := (d.writeVec w vecXt res.xt).writeVec w vecZt res.zt
    let v := d.freeVal (8 * 8194)
    let m := d.sram.write 0 (storeBase w + 0x3EF000) (leBytes 8192 v.toNat)
    Die.useFree { d with sram := m.write 0 (storeBase w + 0x3F100B) (leBytes 2 (v.toNat / 2 ^ (8 * 8192))) }

/-- The solution buffer that does not hold the previous solution, a committed one included (R72, R103). -/
def Region.outBuf (r : Region) : Bool := match r.toPublish with | some x => !x.1 | none => r.nextBuf

/-- Solution buffer and warm vectors of a valid solve (R72). -/
def Die.storeSolution (w : Nat) (run : SolveRun) (res : SolveRes) (d : Die) : Die :=
  let t := d.tmpl w
  let buf := storeBase w + 0x3F4000 + (if (d.region w).outBuf then 0x1000 else 0)
  let d := (d.writeWords buf (res.x.m.map (BitVec.ofInt 32))).writeByte (buf + 0x800) (BitVec.ofInt 8 res.x.e)
  let d := ((d.writeVec w vecWx res.x).writeVec w vecWz res.z).writeVec w vecWy res.y
  d.updRegion w fun r => { r with warmWritten := true, warmSquashed := false, warmPeriod := run.period,
                                  warmSig := BitVec.ofNat 64 t.sig }

/-- The deadline of a solve's own period has come (R78, R97). -/
def Die.pastDeadline (d : Die) (w : Nat) (run : SolveRun) : Bool :=
  let r := d.region w
  run.period ≠ r.period + 1 && (run.period ≠ r.period || decide ((d.tmpl w).deadlineNs ≤ (d.time.ns - r.tj).toNat))

/-- The solve record of a squash (R87) and what it leaves. -/
def Die.squashSolve (w : Nat) (run : SolveRun) (sum : SolveSum) (d : Die) : Die :=
  let d := d.updRegion w fun r => { (Region.count 2 r) with run := none, state := .idle,
                                                            warmSquashed := r.warmSquashed || run.ended }
  let cycles := (d.time.ns - run.nsStart).toNat
  (d.solveRecord w run (1 + 2 ^ stSquashed) cycles run.ended sum).emit (.plannerSquash w)

/-- What a solve stopped in a phase leaves of its factors and vectors (R69, R86, R97): a finished
factorisation is kept, and so is the working factor of a solve stopped in its iterations. The result is
what its record says. -/
def Die.stopSolve (w : Nat) (run : SolveRun) (phase : SolvePhase) (iters : Nat) (d : Die) : Die × SolveSum :=
  if run.ended then (d, run.sum)
  else match phase with
    | .start => (d, { stat := run.stat })
    | .factor => (if run.refactor then d.updRegion w (Region.setValid run.slot false) else d, { stat := run.stat })
    | .update =>
      (if !run.refactor then d
       else match d.slotFactor w run.slot true with
         | .ok f => d.storeFactors w run { factor := some f }
         | .error _ => d.updRegion w (Region.setValid run.slot false), { stat := run.stat })
    | .iterate =>
      let res := d.solveTo w run iters
      ((d.storeFactors w run res).storeIterates w res, { res.sum with converged := false, cap := false })

/-- The deadline stops a solve (R97): its record and error record, the factors by the phase; a miss where
the period has none yet and nothing is published. -/
def Die.deadlineSolve (w : Nat) (run : SolveRun) (phase : SolvePhase) (iters : Nat) (d : Die) : Die :=
  let factor := !run.ended && (phase = .factor || phase = .update)
  let st := 1 + 2 ^ (if factor then stFactorDeadline else stSolveDeadline)
  let e := d.stopSolve w run phase iters
  let d := e.1.updRegion w fun r => { (Region.count (if factor then 8 else 7) r) with run := none, state := .idle }
  (d.solveRecord w run st (d.time.ns - run.nsStart).toNat run.ended e.2).log .warn (d.uidRegion w)
    (if factor then 0x41 else 0x40)

/-- The deadline of the period passes with a solve of it running, or with none (R97, R98). DESIGN CHOICE (log entry
108): a period whose only solve was one that factorises (ITER_CAP = 0) has started none, and its deadline writes
NO_START. -/
def Die.deadlinePeriod (w : Nat) (phase : SolvePhase) (iters : Nat) (d : Die) : Die :=
  let r := d.region w
  let miss (d : Die) : Die := if r.published then d else d.periodMiss w
  let noStart (d : Die) : Die := if r.published then d else (d.log .warn (d.uidRegion w) 0x43).periodMiss w
  let dropped (d : Die) : Die := d.updRegion w fun r => { r with run := none, state := .idle }
  if r.state = .host then miss d
  else match r.run with
    | none => noStart d
    | some run =>
      if run.started && run.period = r.period then miss (d.deadlineSolve w run phase iters)
      else if run.started || r.published then noStart d
      else noStart (dropped d)

/-- SOLVE_DEADLINE (R97, R98). A solve armed after the deadline of its period is stopped at its first test and
adds no miss. -/
def Die.solveDeadline (w : Nat) (phase : SolvePhase) (iters : Nat) (d : Die) : Die :=
  let r := d.region w
  if r.state = .off || r.state = .tail || !(d.red.grant || d.red.tk = .shadow || d.red.tk = .waitoff) || decide ((d.time.ns - r.tj).toNat < (d.tmpl w).deadlineNs) then d
  else if r.deadlineDone then
    match r.run with
    | some run => if run.started && d.pastDeadline w run then (d.deadlineSolve w run phase iters).startWaiting else d
    | none => d
  else ((d.updRegion w fun r => { r with deadlineDone := true }).deadlinePeriod w phase iters).startWaiting

/-- A solve finds its deadline passed (R89, R97): the outcome of SOLVE_DEADLINE where its period is the
present one. -/
def Die.meetDeadline (w : Nat) (run : SolveRun) (phase : SolvePhase) (iters : Nat) (d : Die) : Die :=
  if run.period = (d.region w).period then d.solveDeadline w phase iters
  else (d.deadlineSolve w run phase iters).startWaiting

/-- A valid solve ends (R72, R78, R79, R94, R105): a plan of a period that has one already is not
published. DESIGN CHOICE (log entry 107): the period counts as published from here on (R98), not from the boundary at
which the plan comes into use. -/
def Die.solveValid (w : Nat) (run : SolveRun) (res : SolveRes) (d : Die) : Die :=
  let t := d.tmpl w
  let cycles := d.solveCost run (t.solveCycles run.refactor (run.warm ≠ .cold) res.iters)
  let buf := (d.region w).outBuf
  let d := (d.storeSolution w run res).solveRecord w run (1 + 2) cycles true res.sum
  let d := d.updRegion w fun r =>
    { (if res.stat.degraded then Region.count 12 r else r) with lastCycles := BitVec.ofNat 32 cycles }
  let d := d.adapt w run res
  if run.verified then
    d.updRegion w fun r =>
      let r := { r with run := none, state := .idle }
      if r.published then r else { r with published := true, toPublish := some (buf, run.spec) }
  else d.updRegion w fun r => { r with state := .held, run := some { run with ended := true, sum := res.sum } }

/-- SOLVE_END (R72-R75, R79, R94, R97, R105). A solve that ends after its deadline does not count. -/
def Die.solveEnd (w : Nat) (d : Die) : Die :=
  match (d.region w).run with
  | none => d
  | some run =>
    if !run.started || run.ended || !d.red.grant then d
    else
      let res := d.solve w run
      let t := d.tmpl w
      if d.pastDeadline w run then d.meetDeadline w run .iterate res.iters
      else
        let d := (d.storeFactors w run res).storeIterates w res
        let d :=
          if run.failed then d.squashSolve w run res.sum
          else if t.iterCap = 0 && !res.range && !res.pivot then
            (d.updRegion w fun r => { r with run := none, state := .idle }).solveRecord w run 1
              (d.solveCost run (t.solveCycles run.refactor false 0)) false res.sum
          else if !res.valid then d.solveInvalid w run res
          else d.solveValid w run res
        d.startWaiting

/-- ARM_SOLVE (R82, R83). The standby's array does not solve (R26). `per` is the low half of the period number. A refused write leaves the fields. -/
def Die.armSolve (w : Nat) (spec refactor vbank : Bool) (per : W16) (d : Die) : Die :=
  let r := d.region w
  let isNow := decide (per = BitVec.ofNat 16 r.period.toNat)
  let isNext := decide (per = BitVec.ofNat 16 (r.period + 1).toNat)
  let bad := r.state = .tail || r.state = .host || r.state = .off || r.run.isSome ||
    (!isNow && !isNext) || (isNow && r.published) || (spec && r.act.specLead = 0) ||
    (isNow && r.noSolve) || (spec && isNow && (r.verifyDone || decide (r.act.specVmax.toNat ≤ (d.time.ns - r.tj).toNat))) || !d.red.grant
  if bad then d.refuseWarn (d.uidRegion w)
  else
    let run : SolveRun := { period := if isNow then r.period else r.period + 1, spec := spec,
                            refactorCmd := refactor, vbank := vbank }
    let d := d.accept.updRegion w fun r =>
      { r with cmdSpec := spec, cmdRefactor := refactor, cmdVbank := vbank, cmdPeriod := per }
    let toStart : Int := 1000000 - (d.time.ns - r.tj).toNat - r.act.specLead.toNat
    if isNow || (spec && decide (toStart ≤ 0)) then d.solveDue w run
    else d.updRegion w fun r => { r with state := .armed, run := some run }

/-- SPEC_SOLVE_START (R105): the held command starts at t_(j+1) - SPEC_LEAD. -/
def Die.specSolveStart (w : Nat) (d : Die) : Die :=
  let r := d.region w
  match r.run with
  | none => d
  | some run =>
    let due := decide (1000000 ≤ (d.time.ns - r.tj).toNat + r.act.specLead.toNat) || run.period = r.period
    if r.state = .armed && run.spec && !run.started && due then d.solveDue w run else d

/-- SOLVE_START (R84): a waiting solve of the period starts at t_j. -/
def Die.solveStart (w : Nat) (d : Die) : Die :=
  let r := d.region w
  match r.run with
  | none => d
  | some run =>
    if r.state = .armed && !run.spec && !run.started && run.period = r.period then d.solveDue w run else d

/-- The REPLY of a joint for the cycle that starts at t_j has come (R85). -/
def Die.freshAtTj (d : Die) (w j : Nat) : Bool := (d.region w).tjState.any (·.1 = j)

/-- The verify check of the period is due: all replies are in, or t_j + SPEC_VMAX has come (R85). -/
def Die.verifyDue (d : Die) (w : Nat) : Bool :=
  let r := d.region w
  ((d.regionJoints w).all fun j => d.freshAtTj w j) || decide (r.act.specVmax.toNat ≤ (d.time.ns - r.tj).toNat)

/-- A fresh measured state differs from RGN_PRED by more than the tolerances (R85). -/
def Die.predBad (d : Die) (w : Nat) : Bool :=
  let r := d.region w
  let off (x y : W32) : Nat := (x.toInt - y.toInt).natAbs
  (d.regionJoints w).zipIdx.any fun p =>
    let want := (r.pred[p.2]?).getD (0, 0)
    match r.tjState.find? (·.1 = p.1) with
    | none => false
    | some s => decide (r.act.tolPos.toNat < off s.2.1 want.1) || decide (r.act.tolVel.toNat < off s.2.2 want.2)

/-- The verify check of a speculative solve of the period (R86, R87, R89). DESIGN CHOICE (log entry 111): a solve
that the power cap still holds back is squashed at once, and its record counts CYC_START and CYCLES from 0. -/
def Die.judgeSpec (w : Nat) (run : SolveRun) (d : Die) : Die :=
  if d.predBad w then
    if run.ended || !run.started then
      if d.pastDeadline w run then d.meetDeadline w run .start 0
      else d.squashSolve w run run.sum
    else d.updRegion w fun r => { r with run := some { run with failed := true } }
  else if run.ended then
    d.updRegion w fun r =>
      let r' := { r with run := none, state := .idle }
      if r.published then r' else { r' with published := true, toPublish := some (r.outBuf, true) }
  else d.updRegion w fun r => { r with run := some { run with verified := true } }

/-- VERIFY_CHECK (R85, R86): it runs once in every period; a joint without a fresh reply counts. -/
def Die.verifyCheck (w : Nat) (d : Die) : Die :=
  let r := d.region w
  if r.state = .off || r.verifyDone || !d.verifyDue w || !d.red.grant then d
  else
    let stale := ((d.regionJoints w).filter fun j => !d.freshAtTj w j).length
    let d := d.updRegion w fun r => { r with verifyDone := true, cnt := vupd r.cnt 3 (satAdd stale) }
    match r.run with
    | none => d
    | some run => if run.spec && run.period = r.period && !run.verified then (d.judgeSpec w run).startWaiting else d

/-- SOLVE_SQUASH (R86, R87): the squash point of the phase is reached; a factorisation in progress ends first.
The deadline wins where it has come too (R89). -/
def Die.solveSquash (w : Nat) (phase : SolvePhase) (iters : Nat) (d : Die) : Die :=
  match (d.region w).run with
  | none => d
  | some run =>
    if !run.failed then d
    else if d.pastDeadline w run then d.meetDeadline w run phase iters
    else
      let e := d.stopSolve w run (if phase = .factor then .update else phase) iters
      (e.1.squashSolve w run e.2).startWaiting

/-- The power cap throttles the solves that run (R599). -/
def Die.throttleSolves (d : Die) : Die :=
  { d with regions := vmap d.regions fun _ r =>
      { r with run := r.run.map fun x => { x with stalled := x.stalled || x.started } } }

/-! Publication (R79, R196) -/

/-- A value of the solution buffer. -/
def Die.solution (d : Die) (w : Nat) (buf : Bool) (i : Nat) : Rat :=
  let a := 0x3F4000 + (if buf then 0x1000 else 0)
  let e := (d.sram.get 0 (storeBase w + a + 0x800)).toInt
  if e = -128 then 0 else qv 31 (d.store w (a + 4 * i)) * pow2 e

/-- The plan that a solution buffer holds (R196). -/
def Die.buildPlan (d : Die) (w : Nat) (buf spec : Bool) : Plan :=
  let r := d.region w
  let t := d.tmpl w
  let vars := match d.sep.geom.regions.find? (·.region = w) with | none => [] | some g => g.vars
  let js := d.regionJoints w
  let start (j : Nat) : Int × Int × Int :=
    let acc := (r.plan.bind fun p => p.at j r.tauJ).elim 0 (·.2.2)
    if spec then
      let p := (r.pred[js.idxOf j]?).getD (0, 0)
      (p.1.toInt, p.2.toInt, acc)
    else match r.sampled.find? (·.1 = j) with
      | none => (0, 0, acc)
      | some s => (s.2.1.toInt, s.2.2.toInt, acc)
  { period := r.period, tau := r.tauJ, steps := t.h,
    joints := vars.map fun (j, pv, vv, av) =>
      (j, start j :: (List.range t.h).map fun k =>
        (clampS 32 (toQ 20 (d.solution w buf (k * t.ns + pv))), clampS 32 (toQ 20 (d.solution w buf (k * t.ns + vv))),
         clampS 32 (toQ 16 (d.solution w buf (k * t.ns + av))))) }

/-- PLAN_PUBLISH (R79): the waiting solution becomes the plan in use; the other buffer is next, and
vector 52 + w is sent (R573). -/
def Die.publish (w : Nat) (d : Die) : Die :=
  match (d.region w).toPublish with
  | none => d
  | some (buf, spec) =>
    let p := d.buildPlan w buf spec
    let d := { d with sep := { d.sep with regions := vmap d.sep.regions fun i x => { x with noRows := x.noRows && i ≠ w } } }
    let d := d.updRegion w fun r => { (Region.count 1 r) with plan := some p, toPublish := none, missConsec := 0,
                                                              nextBuf := !buf, published := true }
    d.msix (52 + w)

/-- PLAN_PUBLISH as an event: it comes at a cell cycle boundary only, and uncommitted setpoints are replaced
under a new epoch (R79). -/
def Die.planPublish (w : Nat) (d : Die) : Die :=
  if (d.region w).toPublish.isNone || d.time.ns ≠ d.time.start then d
  else
    let d := d.publish w
    ((d.regionSpQueues w).foldl (fun d q => d.squashQueue q.1) d).fillRegion w

/-! Periods and commands -/

/-- PLANNING_PERIOD_START of a region in cycle `d.time.cyc` (R39, R102, R105, R106). DESIGN CHOICE (log entry 110):
the state sampled at t_j (R78, R196) is JNT_POS and JNT_VEL as they stand at the boundary. -/
def Die.periodStart (w : Nat) (d : Die) : Die :=
  let r := d.region w
  if r.state = .off then d
  else
    let j := (d.time.cyc - BitVec.ofNat 32 (w * d.np / 4)).toNat / max 1 d.np
    let samples := (d.regionJoints w).map fun k => (k, (d.jnt k).pos, (d.jnt k).vel)
    let host := r.regs.hostReq
    let toHost := host && (r.state = .idle || r.state = .armed)
    d.updRegion w fun r =>
      { r with period := BitVec.ofNat 32 j, tj := d.time.start, tauJ := (d.sepRegion w).tau, act := r.regs,
               deadlineDone := false, published := false, verifyDone := false, noSolve := false, sampled := samples, tjState := [],
               run := if toHost then none else r.run,
               state := if toHost then .host else if !host && r.state = .host then .idle else r.state }

/-- The cycle that starts is a period start of the region (R39). -/
def Die.isPeriodStart (d : Die) (w : Nat) : Bool :=
  decide (d.time.cyc.toNat % max 1 d.np = w * d.np / 4)

/-- A die that takes over finds the planning period in progress (R39, R480): one that has started since the last
streamed plan counts from here. -/
def Die.catchPeriod (w : Nat) (d : Die) : Die :=
  let r := d.region w
  let k := (d.time.cyc - BitVec.ofNat 32 (w * d.np / 4)).toNat
  let j := BitVec.ofNat 32 (k / max 1 d.np)
  if r.state = .off || r.period = j then d
  else d.updRegion w fun r =>
    { r with period := j, tj := d.time.start - BitVec.ofNat 32 (k % max 1 d.np * d.img.cell.tc), act := r.regs,
             tauJ := (d.sepRegion w).tau, deadlineDone := false, published := false, verifyDone := false, tjState := [] }

/-- RESUME (R101): the warm vectors count as unwritten, so the next solve starts cold. -/
def Die.resume (w : Nat) (d : Die) : Die :=
  let r := d.region w
  if r.state = .off then d.refuse
  else if r.state ≠ .tail then d.accept
  else if (d.regionJoints w).all fun j => (d.jnt j).atRest then
    d.accept.updRegion w fun r =>
      { r with missConsec := 0, warmWritten := false, state := if r.regs.hostReq then .host else .idle }
  else d.refuse

/-- HOST_REQ (R102); a region that is OFF accepts no command (R80). -/
def Die.hostReq (w : Nat) (on : Bool) (d : Die) : Die :=
  if (d.region w).state = .off then d.refuse
  else d.accept.updRegion w fun r => { r with regs := { r.regs with hostReq := on } }

/-- HOST_COMMIT (R103, R104). DESIGN CHOICE (log entries 106 and 107): the record of a commit gives the cycle of
the commit as CYC_START, slot 0, the buffer as written and CYCLES 0, and the period counts as published from the
commit on. A refused commit says why in COMMIT_ERR; a region in TAIL takes no plan (R101). -/
def Die.hostCommit (w : Nat) (per : W16) (d : Die) : Die :=
  let r := d.region w
  let t := d.tmpl w
  let err : Nat :=
    if per ≠ BitVec.ofNat 16 r.period.toNat then 1
    else if r.deadlineDone || decide (t.deadlineNs ≤ (d.time.ns - r.tj).toNat) then 2
    else if r.sigLo.toNat + r.sigHi.toNat * 2 ^ 32 ≠ t.sig then 3
    else if r.published then 4 else 0
  let no (d : Die) : Die :=
    if err = 0 then d
    else (d.updRegion w fun r => { r with commitErr := BitVec.ofNat 3 err }).log .warn (d.uidRegion w) 0x46
  if r.state = .off then d.refuse
  else if r.state = .tail then no d.refuse
  else if err = 0 then
    let run : SolveRun := { period := r.period, spec := false, refactorCmd := false, vbank := false, cycStart := d.time.cyc }
    (d.accept.updRegion w fun r => { r with published := true, toPublish := some (r.nextBuf, false) }
      ).solveRecord w run (1 + 2 + 2 ^ 13) 0 true {}
  else no d.accept

end Sys2Proof.Machine
end

