-- ==== Sys2Proof/Machine/Units.lean ====
section
/-! DEFINITION. Unit states, engine faults and engine takeovers (chapters 01, 09 and 15). -/

namespace Sys2Proof.Machine

/-! What the image in force uses (R10-R14, R20, R460) -/

/-- A role engine serves a joint, a small axis or a port (R498). -/
def Die.roleUsed (d : Die) (r : Nat) : Bool :=
  d.img.cell.joints.any (fun j => j.cluster * 5 + j.engine = r) ||
    d.img.cell.axes.any (fun a => a.cluster * 5 + a.engine = r) || d.img.ports.any (fun p => p.eng = r)

def Die.clusterUsed (d : Die) (c : Nat) : Bool := (List.range 4).any fun e => d.roleUsed (c * 5 + e)

/-- A region serves an arm (R20). -/
def Die.regionUsed (d : Die) (w : Nat) : Bool := d.img.cell.joints.any fun j => j.cluster / 4 = w

/-- The unit is in the image: every cluster's E4 is a spare of its region. -/
def Die.unitUsed (d : Die) (kind idx : Nat) : Bool :=
  match kind with
  | 0 => if idx % 5 = 4 then d.regionUsed (idx / 20) else d.roleUsed idx
  | 1 => d.clusterUsed idx
  | 2 => d.regionUsed idx
  | 3 => d.regionUsed idx
  | 4 => d.regionUsed idx
  | 5 => !d.img.cell.joints.isEmpty
  | 6 => d.img.pins.lanes.contains idx
  | 7 => d.img.pins.cans.contains idx
  | 8 => d.img.pins.eths.contains idx
  | 9 => d.img.cell.axes.any fun a => a.axis = idx
  | 10 => d.img.pins.encs.contains idx
  | 13 => (d.queue idx).used
  | 15 => true
  | _ => false

/-- The engine whose ROLE is role `r`. -/
def Die.holder (d : Die) (r : Nat) : Option (Fin 80) :=
  (List.finRange 80).find? fun e => (d.engine e).roleNum = some r

/-- An engine that can be a spare: E4, one whose old role another engine holds, and on the duty die every other one
in STANDBY, which has passed SELFTEST while another engine held its old role (R460, R462). -/
def Die.isSpare (d : Die) (e : Fin 80) : Bool :=
  e.val % 5 = 4 || (match d.holder e.val with | some f => f ≠ e | none => false) ||
    (d.red.grant && (d.unit 0 e).state = .standby)

/-- A free spare (R461, R485): in STANDBY, or in SELFTEST where a takeover may claim it (R484). -/
def Die.freeSpare (d : Die) (selftest : Bool) (e : Fin 80) : Bool :=
  let st := (d.unit 0 e).state
  d.isSpare e && (d.engine e).roleNum.isNone && (st = .standby || (selftest && st = .selftest)) &&
    !(d.red.takes.any fun t => t.toEng = e.val)

/-- The free spares among some engines, those in STANDBY first, in increasing number (R21). -/
def Die.spares (d : Die) (selftest : Bool) (p : Fin 80 → Bool) : List (Fin 80) :=
  let l := (List.finRange 80).filter fun e => p e && d.freeSpare selftest e
  l.filter (fun (e : Fin 80) => (d.unit 0 e).state = .standby) ++
    l.filter (fun (e : Fin 80) => (d.unit 0 e).state ≠ .standby)

/-- RED_STATUS.NO_SPARE and its record (R487). -/
def Die.judgeSpares (d : Die) : Die :=
  let none' (w : Nat) : Bool := d.regionUsed w && (d.spares false fun e => e.val / 20 = w).isEmpty
  let new := BitVec.ofNat 4 (flag (none' 0) 0 + flag (none' 1) 1 + flag (none' 2) 2 + flag (none' 3) 3)
  let old := d.red.noSpare
  (List.range 4).foldl (fun d w =>
    if bit new w && !bit old w then d.log .degrade (d.uid 2 w) 0xE3 else d)
    { d with red := { d.red with noSpare := new } }

/-! Binding (R315, R460) -/

/-- RED counters in the order of `Red.cnt`. -/
def Die.redCount (i : Fin 8) (d : Die) : Die := { d with red := { d.red with cnt := vupd d.red.cnt i satInc } }

/-- An engine is unbound (R322); its registers stay as they are until it is in RESET. -/
def Die.unbind (e : Fin 80) (d : Die) : Die :=
  (d.updEng e fun g => { g with role := 0xFFFF, running := false, wait := .none, replay := false, skipRun := false }
    ).updUnit 0 e fun u => { u with role := 0 }

/-- A unit enters RESET: an engine's registers are as after image load (R322). -/
def Die.enterReset (kind idx : Nat) (d : Die) : Die :=
  (if kind = 0 then d.updEng (Fin.ofNat 80 idx) fun g => { g with regs := {}, pc := 0 } else d).updUnit kind idx fun u =>
    { u with state := .reset }

/-- The partitions of a role are written into an engine's SRAM from the image copy (R315). -/
def Die.loadPartitions (e : Fin 80) (p : RoleProg) (d : Die) : Die :=
  let m := (d.sram.erase (progBase e) 0x4000).erase (dataBase e) 0x6000
  let m := m.write 0 (progBase e) p.code
  let m := p.data.foldl (fun (m : Memory) x => m.write 0 (dataBase e + x.1) x.2) m
  let inside (a : Nat) : Bool :=
    (progBase e ≤ a && a < progBase e + 0x4000) || (dataBase e ≤ a && a < dataBase e + 0x6000)
  { d with sram := m, eccBad := d.eccBad.filter (fun a => !inside a), eccSoft := d.eccSoft.filter (fun a => !inside a) }

/-- The engine takes the program header of a role (R324). -/
def Engine.takeHeader (role : W16) (p : RoleProg) (g : Engine) : Engine :=
  { g with entry := p.entry, dl := p.dl, wRun := p.wRun, rm0 := p.rm0, rm1 := p.rm1, rng := p.rng, size := p.size,
           role := role, regs := {}, running := false, wait := .none, snapshot := none }

def Die.roleProg (d : Die) (r : Nat) : RoleProg := (d.img.progs.find? fun p => p.role = r).getD { role := r }

/-- An engine is bound to a role with its partitions as the image has them. -/
def Die.bindEngine (e : Fin 80) (r : Nat) (d : Die) : Die :=
  let p := d.roleProg r
  ((d.loadPartitions e p).updEng e (Engine.takeHeader (d.uid 0 r) p)).updUnit 0 e fun u =>
    { u with state := .active, role := d.uid 0 r }

/-- The bytes of the newest committed cairn of a role: its cycle and record (R314, R468). -/
def Die.newestCairn (d : Die) (r : Nat) : Option (W32 × List Byte) :=
  match (d.red.cairnCyc[r]?).getD none with
  | none => none
  | some c =>
    let a := cairnBase r ((d.cairnSel[r]?).getD false)
    let len := leNat (d.sram.read 0 (a + 6) 2)
    some (c, d.sram.read 0 (a + 0x10) len)

/-! Taking a unit out of service (R460, R461) -/

/-- The unit goes to QUARANTINED (R461). -/
def Die.quarantineUnit (kind idx : Nat) (d : Die) : Die :=
  (d.updUnit kind idx fun u => { u with state := .quarantined, quarantine := false, inTakeover := false, silent := false,
                                        conflictDone := false, released := false }).redCount 6

/-- A FAULTED unit whose role has moved or been released: RESET, or QUARANTINED (R461, R484). -/
def Die.retire (kind idx : Nat) (d : Die) : Die :=
  let u := d.unit kind idx
  let d := d.updUnit kind idx fun u => { u with inTakeover := false, released := false }
  if u.again then (d.quarantineUnit kind idx).log .degrade (d.uid kind idx) 0xE6
  else if u.quarantine then d.quarantineUnit kind idx
  else d.enterReset kind idx

/-- The unit is FAULTED: its fault count rises, and a second fault within 2^20 cycles of its last pass through
SELFTEST is marked (R460, R461). -/
def Die.markFaulted (kind idx : Nat) (d : Die) : Die :=
  d.updUnit kind idx fun u =>
    { u with state := .faulted, faultCnt := satInc u.faultCnt, released := false,
             again := u.faultCnt ≠ 0 &&
               (match u.passCyc with | some p => decide ((d.time.cyc - p).toNat < 2 ^ 20) | none => false) }

/-! Engine takeover (R16, R17, R21, R27, R170, R469-R472) -/

/-- Output queues of a role: uncommitted entries are squashed, committed ones kept (R170). -/
def Die.squashOutputs (r : Nat) (d : Die) : Die :=
  (d.usedQueues.filter fun q => sameUnit (d.queue q).prod (roleUid r)).foldl (fun d q => d.squashQueue q) d

/-- Queues into a role are rebound: groups below `first` are dropped as late, and the dequeue port
serves the new engine after `wait` boundaries (R170). -/
def Die.rebindInputs (r : Nat) (first : W32) (wait : Nat) (d : Die) : Die :=
  (d.usedQueues.filter fun q => sameUnit (d.queue q).cons (roleUid r)).foldl (fun d q =>
    d.updQueue q fun x => { (x.dropLate first) with rebind := wait }) d

/-- The arms a role serves: of its joints, and of its bound axes. -/
def Die.roleArms (d : Die) (r : Nat) : List Nat :=
  ((d.roleJoints r).map (fun j => (d.jnt j).cfg.arm) ++
    ((d.ownedAxes r).filter fun a => (d.axis a).cfg.bind).map fun a => (d.axis a).cfg.arm.toNat).eraseDups

/-- The low 32 bits of the image signature, which is IMG_ID (R475, R501). -/
def Die.imgSig (d : Die) : W32 := BitVec.ofNat 32 (fieldAt d.img.id 0 4)

/-- The holder begins to hand the grant over in cycle n: it sends HO(n) (R482). -/
def Die.beginHandover (d : Die) : Die :=
  if d.red.handingOver.isSome then d
  else
    let d := if d.red.linkUp then d.emit (.token true d.time.cyc d.imgSig) else d
    { d with red := { d.red with handingOver := some d.time.cyc } }

/-- No spare is free (R27): a handover to a fit standby, or a QUICK_STOP of the arms concerned. -/
def Die.dieLevel (e : Fin 80) (r : Nat) (d : Die) : Die :=
  if d.red.grant && !d.red.degraded then d.beginHandover
  else (d.stopArms 2 (d.roleArms r)).updUnit 0 e fun u => { u with released := true }

/-- A spare is claimed for a role of a failed engine in cycle n. -/
def Die.claim (s failed : Fin 80) (r : Nat) (cross drain : Bool) (d : Die) : Die :=
  let t : EngTake := { role := r, fromEng := failed, toEng := s, cyc := d.time.cyc, cross := cross, drain := drain }
  let d := { d with red := { d.red with takes := d.red.takes ++ [t] } }
  let d := if (d.unit 0 s).state = .selftest then d.enterReset 0 s else d
  let d := (d.updUnit 0 s fun u => { u with inTakeover := true }).updUnit 0 failed fun u => { u with inTakeover := true }
  if cross && !drain then d.rebindInputs r (d.time.cyc + 1) 2 else d

/-- A spare of another cluster of the region, or the die level (R21, R27). -/
def Die.assignCross (failed : Fin 80) (r : Nat) (d : Die) : Die :=
  match d.spares true fun e => e.val / 20 = failed.val / 20 && e.val / 5 ≠ failed.val / 5 with
  | s :: _ => d.claim s failed r true false
  | [] => d.dieLevel failed r

/-- The successor of a failed engine (R16, R17, R21). -/
def Die.assign (failed : Fin 80) (r : Nat) (d : Die) : Die :=
  match d.spares true fun e => e.val / 5 = failed.val / 5 with
  | s :: _ => d.claim s failed r false false
  | [] =>
    match d.red.takes.find? fun t =>
      !t.cross && !t.drain && t.cyc = d.time.cyc && t.fromEng / 5 = failed.val / 5 && failed.val < t.fromEng with
    | some t =>
      let d := { d with red := { d.red with takes := d.red.takes.filter fun u => u ≠ t } }
      let d := d.updUnit 0 t.fromEng fun u => { u with inTakeover := false }
      (d.claim (Fin.ofNat 80 t.toEng) failed r false false).assignCross (Fin.ofNat 80 t.fromEng) t.role
    | none => d.assignCross failed r

/-- A take in which the engine is the successor or, of a DRAIN, the one drained, is dropped. -/
def Die.dropTakes (e : Fin 80) (d : Die) : Die :=
  let gone := d.red.takes.filter fun t => t.toEng = e.val || (t.drain && t.fromEng = e.val)
  let d := gone.foldl (fun d t =>
    (d.updUnit 0 t.toEng fun u => { u with inTakeover := false }).updUnit 0 t.fromEng fun u => { u with inTakeover := false }) d
  { d with red := { d.red with takes := d.red.takes.filter fun t => !(t.toEng = e.val || (t.drain && t.fromEng = e.val)) } }

/-- The engine stops and its role is to move (R460, R472, R484). The search for a successor still knows which engine
held the role: the engine of that slot is a spare (R462). -/
def Die.loseRole (e : Fin 80) (d : Die) : Die :=
  match (d.engine e).roleNum with
  | none => d
  | some r =>
    let d := (d.closePorts e).dropTakes e
    ((d.squashOutputs r).assign e r).unbind e

/-- The data path of a unit is silent (R463, R464): FAULTED, with its record. -/
def Die.markSilent (kind idx : Nat) (d : Die) : Die :=
  let d := (d.updUnit kind idx fun u => { u with silent := true }).markFaulted kind idx
  d.log .degrade (d.uid kind idx) 0xE5

/-- An engine stops at the instruction in execution (R322, R323): its run places no cairn (R314), its data path is
silent (R463), and its role is to move. -/
def Die.engStop (e : Fin 80) (d : Die) : Die :=
  let g := d.engine e
  let d := match g.roleNum with
    | some r => if g.running && !g.replay then d.noCairn r g.regs.rcyc else d
    | none => d
  let d := d.updEng e fun g => { g with running := false, wait := .none, faultPc := g.pc }
  (d.markSilent 0 e).loseRole e

/-- An engine fault (R323, R326). -/
def Die.engFault (e : Fin 80) (cause : Nat) (d : Die) : Die :=
  ((d.updEng e fun g => { g with faultCause := BitVec.ofNat 3 cause }).log .degrade (d.uid 0 e) (0x9F + cause)).engStop e

/-! Replays and the load of a successor (R315, R469-R471) -/

/-- One run of an engine's program from its partition, to END or a fault, within DL (R297). -/
def Die.runProgram (e : Fin 80) (limit : Nat) : Nat → Die → Die
  | 0, d => d.engFault e causeOverrun
  | n + 1, d =>
    let g := d.engine e
    if !g.running then d
    else if limit < g.hz.now then d.engFault e causeOverrun
    else
      match decodeEng (d.sram.word (progBase e + 4 * g.pc.toNat)) with
      | none => d.engFault e causeIllegal
      | some op =>
        match d.engIssue e op with
        | .error c => d.engFault e c
        | .ok d => Die.runProgram e limit n (match op with | .endRun _ => d.finishRun e | _ => d)

/-- The role runs an Ittis library program, for joints or for small axes alone. -/
def Die.isLibrary (d : Die) (r : Nat) : Bool :=
  ((d.roleJoints r).any fun j => (d.jnt j).cfg.library) || (d.ownedAxes r).any fun a => (d.axis a).cfg.library

/-! The library program of small axes (R235) -/

/-- ΔT after a cycle, in 2^-20 K: ΔT + (T_c/TAU_TH)·(RTH·AMP² − ΔT), with the parameters ALPHA_R, RTH and TAU_TH
at the axis's base in the engine's data partition. -/
def thermalStep (m : Memory) (base tc : Nat) (amp : W16) (temp : Int) (tr : Bool := false) : Int :=
  let rth := s16e8 (m.word (base + 4))
  let tau := s16e8 (m.word (base + 8))
  let t := qv 20 temp
  let a := qv 15 amp.toNat
  toQB tr 20 (t + (if tau = 0 then 0 else tcSec tc / tau) * (rth * a * a - t))

/-- RK = 1 + ALPHA_R·ΔT in U2.14, as a 16-bit field (R232, R235). -/
def thermalRk (m : Memory) (base : Nat) (temp : Int) : Nat :=
  (clampI 0 0xFFFF (toQ 14 (1 + s16e8 (m.word base) * qv 20 temp))).toNat

/-- Base of an axis's thermal parameters in the engine that serves a role. -/
def Die.thermBase (d : Die) (r a : Nat) : Nat :=
  dataBase (match d.engOf r with | some e => e.val | none => r) + (d.axis a).cfg.thermBase

/-- The axes of a role that the library program serves. -/
def Die.libraryAxes (d : Die) (r : Nat) : List Nat := (d.ownedAxes r).filter fun a => (d.axis a).cfg.library

/-- The thermal model of one axis runs once a cycle: here in cycle `n`; `tr`: the engine truncates (R306). -/
def Die.warmAxisAt (n : W32) (tr : Bool) (r a : Nat) (d : Die) : Die :=
  let b := d.thermBase r a
  d.updAxis a fun x =>
    if x.tempCyc = some n then x
    else { x with temp := thermalStep d.sram b d.img.cell.tc x.amp x.temp tr, tempCyc := some n }

/-- The thermal model of one axis in the cycle in progress. -/
def Die.warmAxis (r a : Nat) (d : Die) : Die := d.warmAxisAt d.time.cyc false r a

/-- The axes that the library program of a role has still to compute for in this cycle. -/
def Die.axesLeft (d : Die) (r : Nat) : List Nat := (d.libraryAxes r).filter fun a => (d.axis a).tempCyc ≠ some d.time.cyc

/-- When in the cycle the library program computes for an axis: at its F_START (R187). -/
def Die.axisDue (d : Die) (a : Nat) : Nat := (d.axis a).cfg.fStart.toNat * 16

/-- The drive sets of some axes of a role for the next cycle: RK, and EN = 1 (R232, R235). -/
def Die.driveSets (d : Die) (r : Nat) (l : List Nat) : List (Nat × W16 × List (List W32)) :=
  l.filterMap fun a =>
    (d.findQueue fun q => q.cls = .pw && sameUnit q.prod (roleUid r) && sameUnit q.cons (d.uidAxis a)).map fun q =>
      (q, tgtOf (d.time.cyc + 1), [[BitVec.ofNat 32 (thermalRk d.sram (d.thermBase r a) (d.axis a).temp + 2 ^ 16)]])

/-- The library program's part for some small axes of a role (R235); drive sets that find no credit are left. -/
def Die.runAxes (r : Nat) (l : List Nat) (d : Die) : List (Nat × W16 × List (List W32)) × Die :=
  let l := (d.axesLeft r).filter l.contains
  if (d.engOf r).isNone || l.isEmpty then ([], d)
  else
    let d := l.foldl (fun d a => d.warmAxis r a) d
    d.putOutputs (d.driveSets r l)

/-- The temperatures that a library program's cairn holds (R235, R650). -/
def Die.axisTemps (d : Die) (r : Nat) : List (Nat × Int) := (d.libraryAxes r).map fun a => (a, (d.axis a).temp)

/-- The axes of a role take their temperatures from its newest cairn. -/
def Die.restoreTemps (r : Nat) (d : Die) : Die :=
  (((d.cairnState[r]?).getD {}).temps).foldl (fun d t => d.updAxis t.1 fun x => { x with temp := t.2, tempCyc := none }) d

/-- The groups that a role's engine has dequeued are released (R155). -/
def Die.releaseInputs (r : Nat) (d : Die) : Die :=
  (d.usedQueues.filter fun q => sameUnit (d.queue q).cons (roleUid r)).foldl (fun d q => d.updQueue q Queue.release) d

/-- A replay of the library program for cycle `n`: every joint runs on substitutes, truncating, and nothing is
enqueued (R306, R315). -/
def Die.replayLibrary (r : Nat) (n : W32) (d : Die) : Die :=
  let d := (d.roleJoints r).foldl (fun d j => (d.useFeedback j false).runLawAt n true j none none) d
  (d.libraryAxes r).foldl (fun d a => d.warmAxisAt n true r a) d

/-- One replay run for a cycle, which starts `after` ticks from now (R315). -/
def Die.replay (e : Fin 80) (r : Nat) (cyc : W32) (after : Nat) (d : Die) : Die :=
  let d := d.updEng e fun g => { g with cnt := vupd g.cnt 4 satInc }
  if d.isLibrary r then d.replayLibrary r cyc
  else
    let lim := (d.engine e).dl.toNat * 16
    ((d.startRun e cyc true).updEng e fun g => { g with startPer := g.startPer + after }).runProgram e lim (lim + 2)

/-- The cycles c + 1 to r - 1 are replayed if they are 1 or 2; more are skipped (R315). -/
def Die.replays (e : Fin 80) (role : Nat) (c first : W32) (d : Die) : Die :=
  let k := diff32 first c - 1
  if k = 1 then d.replay e role (c + 1) 0
  else if k = 2 then
    let d := d.replay e role (c + 1) 0
    if (d.engine e).roleNum = some role then d.replay e role (c + 2) (((d.engine e).runCyc.toNat + 3) / 4) else d
  else if 2 < k then
    (d.updEng e fun g => { g with replaySkip := true, cnt := vupd g.cnt 5 satInc }).log .info (d.uid 0 e) 0xA8
  else d

/-- An engine takes a role with its newest committed cairn; its first normal run is `first`. -/
def Die.takeRole (e : Fin 80) (role : Nat) (first : W32) (d : Die) : Die :=
  let d := d.bindEngine e role
  let d := d.updEng e fun g => { g with resume := true, fresh := false }
  match d.newestCairn role with
  | none => d
  | some (c, bytes) =>
    let d := d.applyCairn e bytes
    (if d.isLibrary role then (d.restoreLaws role c).restoreTemps role else d).replays e role c first

/-- The supervisors of a role's joints pause for the rest of the cycle and the 2 after a takeover (R202). -/
def Die.skipJudgement (role : Nat) (d : Die) : Die :=
  (d.roleJoints role).foldl (fun d j => d.updJnt j fun x => { x with plSkip := 3 }) d

/-- The first normal run of a role starts at once where its cycle has begun before the load ended
(R469, R478). -/
def Die.startLate (e : Fin 80) (role : Nat) (first : W32) (d : Die) : Die :=
  if decide (0 ≤ diff32 d.time.cyc first) && (d.unit 0 e).state = .active &&
      (d.engine e).roleNum = some role then d.startRun e d.time.cyc false
  else d

/-- A DRAIN ends once the drained run has ended and the successor has loaded (R471). -/
def Die.finishDrain (t : EngTake) (d : Die) : Die :=
  let f := Fin.ofNat 80 t.fromEng
  let s := Fin.ofNat 80 t.toEng
  if !t.loaded || (d.engine f).running then d
  else
    let d := { d with red := { d.red with takes := d.red.takes.filter fun u => u ≠ t } }
    let d := ((d.unbind f).enterReset 0 f).updUnit 0 f fun u => { u with inTakeover := false }
    let d := d.updUnit 0 s fun u => { u with inTakeover := false }
    let c := match d.newestCairn t.role with | some (c, _) => c | none => d.time.cyc
    ((d.takeRole s t.role (c + 1)).skipJudgement t.role).startLate s t.role (c + 1)

/-- The run of an engine that is being drained has ended: it is unbound, and its role moves once the successor has
loaded (R322, R471). -/
def Die.drainStep (e : Fin 80) (d : Die) : Die :=
  match d.red.takes.find? fun t => t.drain && t.fromEng = e.val with
  | some t => (d.unbind e).finishDrain t
  | none => d

/-- SPARE_LOAD_DONE (R469-R471): engine `s` has loaded the role it was claimed for. -/
def Die.spareLoadDone (s : Fin 80) (d : Die) : Die :=
  match d.red.takes.find? fun t => t.toEng = s.val with
  | none => d
  | some t =>
    if t.drain then
      let t' := { t with loaded := true }
      let d := { d with red := { d.red with takes := d.red.takes.map fun u => if u = t then t' else u } }
      d.finishDrain t'
    else if t.cross && d.time.cyc = t.cyc then d
    else
      let f := Fin.ofNat 80 t.fromEng
      let d := { d with red := { d.red with takes := d.red.takes.filter fun u => u ≠ t } }
      let d := d.updUnit 0 s fun u => { u with inTakeover := false }
      let d := if t.cross then d else d.rebindInputs t.role (t.cyc + 1) 0
      let d := (d.log .info (d.uid 0 s) (if t.cross then 0xE1 else 0xE0)).redCount (if t.cross then 1 else 0)
      let d := if (d.unit 0 f).state = .faulted || (d.unit 0 f).quarantine then d.retire 0 f else d
      let first := t.cyc + (if t.cross then 2 else 1)
      (((d.takeRole s t.role first).skipJudgement t.role).startLate s t.role first).judgeSpares

/-! The instruction stream of an engine (R293, R296, R322, R323) -/

/-- An engine executes: a run is in progress and its unit is ACTIVE or DRAINING. -/
def Die.engRuns (d : Die) (e : Fin 80) : Bool :=
  (d.engine e).running && ((d.unit 0 e).state = .active || (d.unit 0 e).state = .draining)

/-- The producers that fill ahead go on where credits have come back (R156). -/
def Die.resumeProducers (d : Die) : Die :=
  let d := (List.range 4).foldl (fun d w =>
    if (d.regionSpQueues w).any fun q => (d.queue q.1).stalled then d.fillRegion w else d) d
  (List.range 128).foldl (fun d j =>
    let short := match d.pgQueue j with | some q => (d.queue q).stalled | none => false
    if (d.jnt j).used && short then d.refillPg j else d) d

/-- One instruction of the run in progress; it has no effect on an engine that does not run or that
waits. A fault ends the run and starts the takeover (R323). -/
def Die.runEng (e : Fin 80) (op : EngOp) (d : Die) : Die :=
  if d.engRuns e && (d.engine e).wait = .none then
    match d.engIssue e op with
    | .error c => d.engFault e c
    | .ok d => match op with | .endRun _ => ((d.finishRun e).resumeProducers).drainStep e | _ => d
  else d

/-- A wait of an engine ends: the program counter moves on (R311, R321). -/
def Die.endWait (e : Fin 80) (d : Die) : Die := d.updEng e fun g => { g with wait := .none }.advance

/-- The library program of a role has run: its cairn is taken, with the control state of its joints and the
temperatures of its axes (R650), and the run ends. The run time of the library is not stated: ENG_RUN_CYC
takes a free value (log entry 2). -/
def Die.libraryEnd (r : Nat) (d : Die) : Die :=
  match d.holder r with
  | none => d
  | some e =>
    if d.engRuns e && d.isLibrary r then
      let n := (d.freeVal 32).toNat
      let d := d.useFree.updEng e fun g => { g with hz := { g.hz with now := n } }
      match engCairn e d with
      | .error _ => d
      | .ok x =>
        let save : CairnState := { joints := x.1.cairnLaws r, temps := x.1.axisTemps r }
        let d := x.1.updEng e fun g => { g with hz := { g.hz with now := n }, snapLaw := save }
        ((d.releaseInputs r).finishRun e).resumeProducers.drainStep e
    else d

/-- The library program of a role computes for the joints of some lanes and for some axes, and ends its run once all
of them are done; where an output group finds no credit the run stands until one returns (R156). -/
def Die.runLibraryOn (r : Nat) (ls axes : List Nat) (d : Die) : Die :=
  match d.holder r with
  | some e =>
    if (d.engine e).wait ≠ .none then d
    else
      let x := d.runRole r ls
      let y := x.2.runAxes r axes
      let left := x.1 ++ y.1
      if !d.engRuns e then y.2
      else if !left.isEmpty then y.2.updEng e fun g => { g with wait := .library left }
      else if (y.2.libraryLeft r).isEmpty && (y.2.axesLeft r).isEmpty then y.2.libraryEnd r
      else y.2
  | none => d

/-- The lanes of a role's library joints that have still to run. -/
def Die.lanesLeft (d : Die) (r : Nat) : List Nat := ((d.libraryLeft r).map fun j => (d.jnt j).cfg.lane).eraseDups

/-- The library program of a role computes what is due by now (R187, R188, R190). -/
def Die.runLibrary (r : Nat) (d : Die) : Die :=
  if !d.isLibrary r then d
  else
    d.runLibraryOn r ((d.lanesLeft r).filter fun l => (d.laneDue r l).any fun t => decide (t ≤ d.sinceStart))
      ((d.axesLeft r).filter fun a => decide (d.axisDue a ≤ d.sinceStart))

/-- A library program that has not run for all its joints and axes by the end of the cycle does so on what it has
(R190, R203). -/
def Die.closeLibrary (r : Nat) (d : Die) : Die :=
  if d.isLibrary r then d.runLibraryOn r (d.lanesLeft r) (d.axesLeft r) else d

/-- The next time in the cycle at which a library program computes on what has come by then (R187, R190, R311). -/
def Die.libraryDue (d : Die) (r : Nat) : Option Nat :=
  if !d.isLibrary r then none
  else match (d.lanesLeft r).filterMap (d.laneDue r) ++ (d.axesLeft r).map d.axisDue with
    | [] => none
    | t :: l => some (l.foldl min t)

/-- WAITQ_RESUME (R187, R190, R310, R311): the group has arrived or the wait limit has passed, or a library
program's time for its run has come; `cycles` is how long the engine stood. -/
def Die.waitqResume (e : Fin 80) (cycles : Nat) (d : Die) : Die :=
  let g := d.engine e
  match g.wait with
  | .group qp =>
    match d.bind e qp with
    | none => d
    | some b =>
      let t := d.sinceStart
      let fs := b.fStart.getD 0
      if d.engRuns e && (((d.queue b.queue).ready g.regs.rcyc && decide (fs ≤ t)) || decide (max b.waitNs fs ≤ t)) then
        ((d.waitDone e qp b).updEng e fun g =>
          { g with hz := { g.hz with now := g.hz.now + cycles }, cnt := vupd g.cnt 1 (satAdd cycles) }).endWait e
      else d
  | .none =>
    match g.roleNum.bind d.libraryDue with
    | some t => if d.engRuns e && decide (t ≤ d.sinceStart) then d.runLibrary (g.roleNum.getD 0) else d
    | none => d
  | _ => d

/-- PUTQ_STALL_END (R156, R321): a credit has returned; the stall counts as cycles of the run. -/
def Die.putqStallEnd (e : Fin 80) (d : Die) : Die :=
  match (d.engine e).wait with
  | .credit xs qp last =>
    match d.bind e qp with
    | none => d
    | some b =>
      if d.engRuns e && decide (0 < (d.queue b.queue).free) then
        let d := (d.addCycles e (4 * (d.time.per - (d.engine e).stallAt))).updEng e fun g => { g with wait := .none }
        match engPutq e xs qp last d with
        | .error c => d.engFault e c
        | .ok r => if (r.1.engine e).wait = .none then r.1.updEng e Engine.advance else r.1
      else d
  | .library outs =>
    let r := d.putOutputs outs
    if !d.engRuns e then d
    else if r.1.isEmpty then
      (r.2.updEng e fun g => { g with wait := .none }).runLibrary ((d.engine e).roleNum.getD 0)
    else r.2.updEng e fun g => { g with wait := .library r.1 }
  | _ => d

/-- LOOKOUT_WAIT_END (R157): CYC has advanced far enough. -/
def Die.lookoutWaitEnd (e : Fin 80) (d : Die) : Die :=
  match (d.engine e).wait with
  | .lookout qp last =>
    match d.bind e qp with
    | none => d
    | some b =>
      if d.engRuns e then
        let d := (d.updEng e fun g => { g with wait := .none }).putEntry e qp b last
        if (d.engine e).wait = .none then d.updEng e Engine.advance else d
      else d
  | _ => d

/-- ENGINE_OVERRUN (R297, R478): the run has not ended by its limit after its cycle start. -/
def Die.engOverrun (e : Fin 80) (d : Die) : Die :=
  let lim := if (d.engine e).shadow then d.img.cell.tc - 500 else (d.engine e).dl.toNat * 16
  if d.engRuns e && decide (lim ≤ d.sinceStart) then d.engFault e causeOverrun else d

/-- ENG_CTRL.CLR_CNT (R324). -/
def Die.engClrCnt (e : Fin 80) (d : Die) : Die :=
  d.updEng e fun g => { g with cnt := Vector.replicate 6 0, runMax := 0 }

/-! Data path and commands (R463-R465, R471, R484-R486) -/

/-- The kinds of unit that have an indicator (R463). -/
def hasIndicator (kind : Nat) : Bool := kind = 0 || kind = 5 || kind = 6 || kind = 7

/-- DATA_PATH_SILENT (R464): the data path decides toward the safe side. -/
def Die.dataSilent (kind idx : Nat) (d : Die) : Die :=
  if !hasIndicator kind || (d.unit kind idx).state ≠ .active then d
  else
    if kind = 0 then d.engStop (Fin.ofNat 80 idx) else d.markSilent kind idx

/-- A self-test passes or fails (R460-R462, R488). -/
def Die.selftestDone (kind idx : Nat) (pass : Bool) (d : Die) : Die :=
  if (d.unit kind idx).state ≠ .selftest then d
  else if !pass then
    let d := ((d.updUnit kind idx fun u => { u with state := .quarantined, silent := false, conflictDone := false }
      ).redCount 7).log .degrade (d.uid kind idx) 0xE7
    if kind = 0 && idx % 5 = 4 then
      { d with red := { d.red with
          spares := d.red.spares.setIfInBounds (idx / 5)
            (let s := (d.red.spares[idx / 5]?).getD { passCyc := 0, fails := 0 }
             { s with fails := satInc s.fails }) } }
    else d
  else
    let d := d.updUnit kind idx fun u =>
      { u with passCyc := some d.time.cyc, silent := false, conflictDone := false }
    let d := if kind = 0 && idx % 5 = 4 then
        { d with red := { d.red with
            spares := d.red.spares.setIfInBounds (idx / 5)
              (let s := (d.red.spares[idx / 5]?).getD { passCyc := 0, fails := 0 }
               { s with passCyc := d.time.cyc }) } }
      else d
    let e := Fin.ofNat 80 idx
    let own := d.red.grant && (if kind = 0 then idx % 5 ≠ 4 && (d.holder idx).isNone && d.roleUsed idx else true)
    if !own then (d.updUnit kind idx fun u => { u with state := .standby }).judgeSpares
    else if kind = 0 then d.bindEngine e idx
    else d.updUnit kind idx fun u => { u with state := .active, role := d.uid kind idx }

/-- A unit in RESET has completed its reset (R460). -/
def Die.unitResetComplete (kind idx : Nat) (d : Die) : Die :=
  if (d.unit kind idx).state ≠ .reset then d
  else d.updUnit kind idx fun u => { u with state := if d.unitUsed kind idx then .selftest else .off }

/-- When the grant comes, the units of the die in STANDBY take their roles of the image (R460, R474). -/
def Die.bindStandby (d : Die) : Die :=
  let others := ([1, 2, 3, 4, 5, 6, 7, 8, 9, 10, 13, 15].flatMap fun k => (List.range (kindCount k)).map fun i => (k, i))
  let d := others.foldl (fun d u =>
    if (d.unit u.1 u.2).state = .standby && d.unitUsed u.1 u.2 then
      d.updUnit u.1 u.2 fun r => { r with state := .active, role := d.uid u.1 u.2 }
    else d) d
  (List.finRange 80).foldl (fun d (e : Fin 80) =>
    if e.val % 5 ≠ 4 && (d.unit 0 e).state = .standby && d.roleUsed e && (d.holder e).isNone then
      d.bindEngine e e
    else d) d

/-- The units of a die give their roles back: engines are unbound, and what is ACTIVE returns to STANDBY. -/
def Die.unbindAll (d : Die) : Die :=
  let d := (List.finRange 80).foldl (fun d (e : Fin 80) =>
    if (d.engine e).roleNum.isSome then (d.unbind e).updUnit 0 e fun u => { u with state := .standby } else d) d
  { d with red := { d.red with units := vmap d.red.units fun _ (u : UnitRec) =>
      if u.state = .active then { u with state := .standby, role := 0 } else u } }

/-- The role of a FAULTED unit has been released by a stop (R460): an engine's when no successor was
found, a lane's when every arm it serves is STOPPED, that of a unit of another kind when every arm is. -/
def Die.roleReleased (d : Die) (kind idx : Nat) : Bool :=
  let stopped (l : List Nat) : Bool := l.all fun j => (d.jnt j).stopped
  match kind with
  | 0 => (d.unit 0 idx).released
  | 6 => stopped ((List.range 128).filter fun j => (d.jnt j).used && (d.jnt j).cfg.lane = idx)
  | _ => stopped ((List.range 128).filter fun j => (d.jnt j).used)

/-- The actions of RED_UNIT_CMD (R488). -/
inductive UnitAction where
  | enable
  | drain
  | test
  | recover
  | quarantine
  | release
  deriving DecidableEq, Repr

/-- DRAIN of an engine (R471): the cluster spare, or else the lowest free spare of the region. -/
def Die.drainEngine (e : Fin 80) (d : Die) : Die :=
  match (d.engine e).roleNum,
      d.spares false (fun s => s.val / 5 = e.val / 5) ++ d.spares false (fun s => s.val / 20 = e.val / 20) with
  | some r, s :: _ =>
    let d := (d.accept.updUnit 0 e fun u => { u with state := .draining }).claim s e r (s.val / 5 ≠ e.val / 5) true
    if (d.engine e).running then d else d.unbind e
  | _, _ => d.refuse

/-- QUARANTINE (R460, R484): after the takeover of an ACTIVE or FAULTED engine, at once otherwise. -/
def Die.quarantineCmd (kind idx : Nat) (d : Die) : Die :=
  let u := d.unit kind idx
  let e := Fin.ofNat 80 idx
  if kind = 0 && u.state = .active && (d.engine e).roleNum.isSome then
    let d := (d.accept.updUnit 0 idx fun u => { u with quarantine := true }).loseRole e
    if d.red.takes.any fun t => t.fromEng = idx then d else d.quarantineUnit 0 idx
  else if u.state = .faulted && u.inTakeover then d.accept.updUnit kind idx fun u => { u with quarantine := true }
  else d.accept.quarantineUnit kind idx

/-- A RED_UNIT_CMD on a unit of this die (R460, R464, R465). -/
def Die.unitCmd (act : UnitAction) (kind idx : Nat) (d : Die) : Die :=
  let u := d.unit kind idx
  if u.silent && (act = .enable || act = .test || act = .drain || act = .release) then
    let d := (d.refuse.redCount 5).updUnit kind idx fun x => { x with conflictDone := true }
    d.logOnce u.conflictDone .warn (d.uid kind idx) 0xE9
  else if (!d.red.grant && act ≠ .test) ||
      (u.inTakeover && !(act = .quarantine && u.state = .faulted)) then d.refuse
  else
    match act, u.state with
    | .drain, .active => if kind = 0 then d.drainEngine (Fin.ofNat 80 idx) else d.refuse
    | .test, .standby => d.accept.updUnit kind idx fun x => { x with state := .selftest }
    | .recover, .faulted =>
      if d.roleReleased kind idx then d.accept.retire kind idx else d.refuse
    | .release, .quarantined => (d.accept.enterReset kind idx).updUnit kind idx fun x => { x with faultCnt := 0 }
    | .quarantine, .off => d.refuse
    | .quarantine, _ => d.quarantineCmd kind idx
    | _, _ => d.refuse

/-- BIST_SLOT_START (R485): the slot of the next cluster begins; its free spare runs logic BIST. -/
def Die.bistSlot (d : Die) : Die :=
  let c := d.red.bistNext
  let d := { d with red := { d.red with bistNext := (c + 1) % 16, bistAt := some d.time.per } }
  match (List.finRange 80).filter fun e => e.val / 5 = c && d.freeSpare false e with
  | [] => d
  | e :: _ => d.updUnit 0 e fun u => { u with state := .selftest }

/-- BLOCK_TEST_STEP (R486, R488): the standby tests a block; `last` ends the rotation. -/
def Die.blockTest (pass last : Bool) (d : Die) : Die :=
  if d.red.grant then d
  else
    let ok := d.red.blockOk && pass
    if last then
      { d with red := { d.red with
          blockNext := 0, blockOk := true, rotationOk := ok,
          dieHealth := if ok then d.time.cyc else d.red.dieHealth,
          dieFail := if ok then d.red.dieFail else satInc d.red.dieFail } }
    else { d with red := { d.red with blockNext := d.red.blockNext + 1, blockOk := ok } }

end Sys2Proof.Machine
end

