-- ==== Sys2Proof/Machine/Wire.lean ====
section
/-! DEFINITION. The wire of a Mirrad lane (R349, R352-R355): the 8b/10b code of IEEE 802.3 clause 36 with its
running disparity, the characters around the bytes of a frame, and what a receiver makes of code groups. The two
tables of the code stand in that standard and not in the manual (log entry 122). A code group is a number of ten
bits, bit a the highest. -/

namespace Sys2Proof.Machine

/-- abcdei of D.x at negative running disparity (log entry 122). -/
def code6Table : List Nat :=
  [0b100111, 0b011101, 0b101101, 0b110001, 0b110101, 0b101001, 0b011001, 0b111000,
   0b111001, 0b100101, 0b010101, 0b110100, 0b001101, 0b101100, 0b011100, 0b010111,
   0b011011, 0b100011, 0b010011, 0b110010, 0b001011, 0b101010, 0b011010, 0b111010,
   0b110011, 0b100110, 0b010110, 0b110110, 0b001110, 0b101110, 0b011110, 0b101011]

/-- fghj of D.x.y at negative running disparity, and of K.x.y (log entry 122). -/
def code4Table : List Nat := [0b1011, 0b1001, 0b0101, 0b1100, 0b1101, 0b1010, 0b0110, 0b1110]
def code4TableK : List Nat := [0b1011, 0b0110, 0b1010, 0b1100, 0b1101, 0b0101, 0b1001, 0b0111]

/-- Ones among the low `n` bits. -/
def onesOf : Nat → Nat → Nat
  | 0, _ => 0
  | n + 1, v => v % 2 + onesOf n (v / 2)

/-- abcdei of D.x or K.x at a running disparity (true: positive), and the disparity after it. -/
def code6 (rd k : Bool) (x : Nat) : Nat × Bool :=
  let c := if k && x = 28 then 0b001111 else (code6Table[x]?).getD 0
  let uneven := onesOf 6 c ≠ 3
  (if rd && (uneven || x = 7) then 63 - c else c, if uneven then !rd else rd)

/-- fghj after abcdei, and the disparity after it: the alternate D.x.7 keeps runs short. -/
def code4 (rd k : Bool) (x y : Nat) : Nat × Bool :=
  let alt := y = 7 && (if rd then x = 11 || x = 13 || x = 14 else x = 17 || x = 18 || x = 20)
  let c := if k then (code4TableK[y]?).getD 0 else if alt then 0b0111 else (code4Table[y]?).getD 0
  let uneven := onesOf 4 c ≠ 2
  (if rd && (k || uneven || y = 3) then 15 - c else c, if uneven then !rd else rd)

/-- The code group of a character and the running disparity after it (R352). -/
def codeGroup (rd k : Bool) (b : Byte) : BitVec 10 × Bool :=
  let x := b.toNat % 32
  let h := code6 rd k x
  let t := code4 h.2 k x (b.toNat / 32)
  (BitVec.ofNat 10 (h.1 * 16 + t.1), t.2)

/-- Code groups of characters in order; `true` marks a K character. -/
def codeGroups : Bool → List (Bool × Byte) → List (BitVec 10)
  | _, [] => []
  | rd, c :: r => (codeGroup rd c.1 c.2).1 :: codeGroups (codeGroup rd c.1 c.2).2 r

/-- PRE D21.5, SOF K28.5 and EOF K29.7 (R353). -/
def chPre : Bool × Byte := (false, 0xB5)
def chSof : Bool × Byte := (true, 0xBC)
def chEof : Bool × Byte := (true, 0xFD)

/-- The code groups of a frame as sent: preamble, SOF, the bytes of header, payload and CRC, EOF, from negative running
disparity (R352, R354). -/
def wireGroups (preN : Nat) (bytes : List Byte) : List (BitVec 10) :=
  codeGroups false (List.replicate preN chPre ++ chSof :: bytes.map (fun b => (false, b)) ++ [chEof])

/-- A data character from its group, by its two parts; none where the group has no place in the code at this
disparity. -/
def decodeGroup (rd : Bool) (g : BitVec 10) : Option Byte :=
  match (List.range 32).find? fun x => (code6 rd false x).1 = g.toNat / 16 with
  | none => none
  | some x =>
    ((List.range 8).find? fun y => (code4 (code6 rd false x).2 false x y).1 = g.toNat % 16).map fun y =>
      BitVec.ofNat 8 (y * 32 + x)

/-- What a receiver makes of the code groups from a SOF on (R353, R366). -/
structure Received where
  /-- Frames that another SOF has ended, and the characters before the SOF of the last one. -/
  cut : Nat := 0
  before : Nat := 0
  codeErr : Bool := false
  bytes : List Byte := []
  deriving DecidableEq, Repr

/-- The groups after the first, at a running disparity, `n` characters from the start. A SOF ends the frame as a code
error and starts a new one. Groups that end without an EOF leave an idle line of zeros, which is no code group; the
frame that has reached 524 bytes is ended there and is too long (R366). -/
def receiveGroups : Bool → Nat → Received → List (BitVec 10) → Received
  | _, _, x, [] => if x.bytes.length < 524 then { x with codeErr := true } else { x with bytes := x.bytes ++ [0] }
  | rd, n, x, g :: r =>
    let sof := codeGroup false true chSof.2
    let sofPos := codeGroup true true chSof.2
    if g = (codeGroup rd true chEof.2).1 then x
    else if g = sof.1 then receiveGroups sof.2 (n + 1) { cut := x.cut + 1, before := n } r
    else if g = sofPos.1 then receiveGroups sofPos.2 (n + 1) { cut := x.cut + 1, before := n } r
    else if x.bytes.length = 524 then { x with bytes := x.bytes ++ [0] }
    else match decodeGroup rd g with
      | some b => receiveGroups (codeGroup rd false b).2 (n + 1) { x with bytes := x.bytes ++ [b] } r
      | none => receiveGroups rd (n + 1) { x with codeErr := true } r

/-- The groups of a received frame from its SOF, of either disparity, to its EOF (R352, R353). -/
def received : List (BitVec 10) → Received
  | g :: r =>
    if g = (codeGroup false true chSof.2).1 then receiveGroups (codeGroup false true chSof.2).2 1 {} r
    else if g = (codeGroup true true chSof.2).1 then receiveGroups (codeGroup true true chSof.2).2 1 {} r
    else { codeErr := true }
  | [] => { codeErr := true }

/-- How long the frame lasts, in ns (R354). -/
def LaneTx.ns (preN : Nat) (t : LaneTx) : Nat := (preN + 2 + t.bytes.length) * 40

/-- The end of its EOF. -/
def LaneTx.eof (preN : Nat) (t : LaneTx) : BitVec 32 := t.start + BitVec.ofNat 32 (t.ns preN)

end Sys2Proof.Machine
end

