-- ==== Sys2Proof/Machine/Mirrad.lean ====
section
/-! DEFINITION. Mirrad lanes (chapters 11 and 12). -/

namespace Sys2Proof.Machine

def Die.lane (d : Die) (l : Nat) : Lane := (d.lanes[l]?).getD {}

def Die.updLane (l : Nat) (f : Lane → Lane) (d : Die) : Die :=
  { d with lanes := d.lanes.setIfInBounds l (f (d.lane l)) }

def Die.uidLane (d : Die) (l : Nat) : W16 := d.uid 6 l

def Lane.bump (i : Fin 13) (x : Lane) : Lane := { x with cnt := vupd x.cnt i satInc }

/-- The die drives the lane: it holds the grant, its gate is open, LIVE toggles and the lane is ACTIVE (R384, R390,
R479). -/
def Die.laneDrives (d : Die) (l : Nat) : Bool :=
  d.red.grant && d.red.gateOpen && d.red.live && (d.unit 6 l).state = .active

/-- A count of a lane, on the die that drives (R384). -/
def Die.laneCount (l : Nat) (i : Fin 13) (d : Die) : Die := if d.red.grant then d.updLane l (Lane.bump i) else d

/-- A lane record, on the die that drives (R384). -/
def Die.laneLog (sev : Sev) (l code : Nat) (d : Die) : Die := if d.red.grant then d.log sev (d.uidLane l) code else d

/-- The lane cycle number (R377). -/
def Die.laneCyc (d : Die) (l : Nat) : W32 := d.time.cyc + (d.lane l).laneOfs

/-- TC_CODE of R359. -/
def tcCode (tc : Nat) : Nat := if tc = 31250 then 0 else if tc = 62500 then 1 else if tc = 125000 then 2 else 3

/-! Frames (R354, R356, R358) -/

/-- A frame as its bytes between SOF and EOF: header, payload, CRC. -/
def makeFrame (type dest slot : Nat) (seq : Byte) (flags : Nat) (epoch : Byte) (payload : List Byte) : List Byte :=
  let body := [BitVec.ofNat 8 (type + 16), BitVec.ofNat 8 dest, BitVec.ofNat 8 slot] ++ leBytes 2 payload.length
    ++ [seq, BitVec.ofNat 8 flags, epoch] ++ payload
  body ++ leBytes 4 (crc32c body).toNat

/-- How long a frame of LEN payload bytes lasts, in ns (R354). -/
def frameNs (preN len : Nat) : Nat := (preN + 14 + len) * 40

/-- The header of R356 and the payload. -/
structure MbFrame where
  type : Nat
  dest : Nat
  slot : Nat
  seq : Byte
  flags : Nat
  epoch : Byte
  payload : List Byte
  deriving DecidableEq, Repr

def readFrame (b : List Byte) : MbFrame :=
  { type := fieldAt b 0 1 % 16, dest := fieldAt b 1 1, slot := fieldAt b 2 1, seq := BitVec.ofNat 8 (fieldAt b 5 1),
    flags := fieldAt b 6 1, epoch := BitVec.ofNat 8 (fieldAt b 7 1), payload := (b.drop 8).take (b.length - 12) }

/-- Checks 1 to 4 of R366: the counter of the first failure. -/
def frameCheck (codeErr : Bool) (b : List Byte) : Option (Fin 13) :=
  let len := fieldAt b 3 2 % 1024
  let t := fieldAt b 0 1 % 16
  if codeErr then some 1
  else if b.length ≠ 12 + len || 512 < len then some 2
  else if leBytes 4 (crc32c (b.take (8 + len))).toNat ≠ b.drop (8 + len) then some 3
  else if fieldAt b 0 1 / 16 ≠ 1 || t = 0 || 8 < t then some 4
  else none

/-- Check 5 of R366. -/
def Lane.epochBad (x : Lane) (f : MbFrame) : Bool :=
  ((x.state = .node && x.nodeSt = .joined && f.type ≠ 1 && f.type ≠ 2) ||
    (x.state = .head && (f.type = 4 || f.type = 7))) && f.epoch ≠ x.epoch

/-- A received frame: valid, or the counter of the check it fails (R366). -/
def Lane.receive (x : Lane) (codeErr : Bool) (b : List Byte) : Except (Fin 13) MbFrame :=
  match frameCheck codeErr b with
  | some i => .error i
  | none => if x.epochBad (readFrame b) then .error 5 else .ok (readFrame b)

/-! Joints and entries of a lane -/

def SchedEntry.ofWord (w : Nat) : SchedEntry :=
  { offset := w % 2 ^ 16, node := w / 2 ^ 16 % 32, cls := w / 2 ^ 21 % 8, pollLen := w / 2 ^ 24 % 1024,
    replyLen := w / 2 ^ 34 % 1024, deadline := w / 2 ^ 44 % 4096 }

def Die.schedEntry (d : Die) (l i : Nat) : Option SchedEntry := (d.lane l).cfg.sched[i]?

/-- The commanded joints of a node, in increasing JIDX (R361). -/
def Die.nodeJoints (d : Die) (l n : Nat) : List Nat :=
  (List.range 8).filterMap fun i => (List.range 128).find? fun j =>
    (d.jnt j).used && (d.jnt j).cfg.lane = l && (d.jnt j).cfg.node = n && (d.jnt j).cfg.jidx = i

/-! Missed replies (R390, R391) -/

/-- An entry ends without an accepted reply, by cause. A window that has ended with no SOF in it is a missed reply at
once; its cause stays open to the end of the entry, where a SOF may still come (R390). -/
def Die.missedReply (l : Nat) (cause : Option (Fin 13)) (d : Die) : Die :=
  match (d.lane l).waiting with
  | none => d
  | some w =>
    let drives := d.laneDrives l
    let d := d.updLane l fun x =>
      { x with waiting := if drives && cause.isNone then some { w with lapsed := true } else none }
    if !drives then d
    else
      let d := match cause with | some c => d.laneCount l c | none => d
      let d := if w.lapsed then d else d.laneCount l 12
      if w.acyc || w.lapsed then d
      else
        let n := Fin.ofNat 17 w.node
        let k := vget (d.lane l).missed n + 1
        let was := bit (d.lane l).absent w.node
        let d := d.updLane l fun x =>
          { x with missed := vset x.missed n k,
                   absent := if 3 ≤ k then x.absent ||| BitVec.ofNat 17 (2 ^ w.node) else x.absent }
        if 3 ≤ k && !was then d.laneLog .warn l 0xB0 else d

/-! Acyclic requests (R373, R374, R389, R393) -/

/-- APPLY_OFS of a class F joint in units of 16 ns (R187, R373). -/
def Joint.applyOfs (x : Joint) : W16 := if x.cfg.classF then x.cfg.fOut.zeroExtend 16 else 0

/-- The APPLY_OFS a node is known to hold for a joint. -/
def Lane.knownApply (x : Lane) (node jidx : Nat) : Option W16 :=
  (x.applyOfs.find? fun p => p.1 = node && p.2.1 = jidx).map fun p => p.2.2

/-- Fresh records may go to a joint: its node holds its APPLY_OFS; a class A joint's is 0, which a node holds that
no write has told otherwise (R373, R389). -/
def Die.applyReady (d : Die) (l j : Nat) : Bool :=
  let x := d.jnt j
  match (d.lane l).knownApply x.cfg.node x.cfg.jidx with
  | some v => v = x.applyOfs
  | none => !x.cfg.classF

/-- The device's own APPLY_OFS writes at a session start. -/
def Die.queueApply (l : Nat) (d : Die) : Die :=
  let js := (List.range 128).filter fun j => (d.jnt j).used && (d.jnt j).cfg.lane = l && !d.applyReady l j
  let own := js.map fun j =>
    let x := d.jnt j
    ({ op := 2, node := x.cfg.node, obj := 0x0010, sub := BitVec.ofNat 8 x.cfg.jidx, ofs := 0,
       data := leBytes 2 x.applyOfs.toNat, count := 0, own := true } : AcycReq)
  d.updLane l fun x => { x with reqs := own ++ x.reqs.filter fun r => !r.own }

/-- The mailbox request ends (R393). -/
def Lane.acycEnd (result : Nat) (data : List Byte) (x : Lane) : Lane :=
  { x with acBusy := false, acDone := true, acResult := BitVec.ofNat 3 result,
           acRcount := BitVec.ofNat 10 data.length,
           acData := if data.isEmpty then x.acData
             else vmap x.acData fun i b => (data[i]?).getD b }

/-- ACYC_GO (R393, R399). -/
def Die.acycGo (l : Nat) (d : Die) : Die :=
  let x := d.lane l
  if x.acBusy || x.acOp = 0 || x.acOp = 3 then d.refuse
  else
    let es := x.cfg.sched.filter fun e => e.cls = 2 && (e.node = 0 || e.node = x.acNode.toNat)
    let need := x.acCount.toNat + 8
    let fits := es.any fun e => need ≤ (if x.acOp = 2 then e.pollLen else e.replyLen)
    d.accept.updLane l fun x =>
      let x := { x with acBusy := true, acDone := false }
      if !fits then x.acycEnd 7 []
      else
        { x with reqs := x.reqs ++ [{ op := x.acOp.toNat, node := x.acNode.toNat, obj := x.acObj, sub := x.acSub,
                                      ofs := x.acOfs, own := false, count := x.acCount.toNat,
                                      data := if x.acOp = 2 then x.acData.toList.take x.acCount.toNat else [] }] }

/-- Payload of an ACYC frame (R364). -/
def AcycReq.payload (r : AcycReq) : List Byte :=
  [BitVec.ofNat 8 r.op, 0] ++ leBytes 2 r.obj.toNat ++ [r.sub, 0] ++ leBytes 2 r.ofs.toNat
    ++ (if r.op = 2 then r.data else leBytes 2 r.count)

/-- A request that got no reply other than BUSY: after 8 sends it ends with TIMEOUT (R393). The device's own write
is made again, since its joint waits for an OK (R389). -/
def Die.acycRetry (l : Nat) (d : Die) : Die :=
  match (d.lane l).reqs with
  | r :: rest =>
    if r.sends < 8 then d
    else d.updLane l fun x =>
      if r.own then { x with reqs := rest ++ [{ r with sends := 0 }] } else { x with reqs := rest }.acycEnd 6 []
  | [] => d

/-! Sending (R378, R380, R394) -/

/-- A frame whose first preamble bit lies `after` ns from now (R354). -/
def Die.sendAfter (l after : Nat) (b : List Byte) (d : Die) : Die :=
  (d.updLane l fun x => { x with tx := some { start := d.time.ns + BitVec.ofNat 32 after, bytes := b } }).emit (.mirrad l b)

/-- The head sends a frame whose first preamble bit lies now. -/
def Die.sendFrame (l : Nat) (b : List Byte) (d : Die) : Die := d.sendAfter l 0 b

/-- The turnaround of a node lane: 312 to 328 ns (R355, log entry 122). -/
def nodeTurn (l : Nat) : Nat := 312 + 4 * (Config.laneTiming l 2 % 5)

/-- `MBLn_DE` at a time `t` by the frame sent: up 20 to 28 ns before its first preamble bit, down 12 to 20 ns after
its last EOF bit (R643), and at once where it is broken off; never where the die does not drive (R355, log entry 122). -/
def Die.mblDe (d : Die) (l : Nat) (t : W32) : Bool :=
  match (d.lane l).tx with
  | none => false
  | some x =>
    let lead := 20 + 4 * (Config.laneTiming l 0 % 3)
    let tail := 12 + 4 * (Config.laneTiming l 1 % 3)
    let off := diff32 t x.start
    let broken := match x.cut with | some c => decide (0 ≤ diff32 t c) | none => false
    d.laneDrives l && decide (-(lead : Int) ≤ off) && decide (off < (x.ns (d.lane l).cfg.preN + tail : Nat)) && !broken

/-- `MBLn_TXD` at a time `t`: a bit of the frame every 4 ns, bit a of a group first, and low outside it (R352, R355). -/
def Die.mblTxd (d : Die) (l : Nat) (t : W32) : Bool :=
  match (d.lane l).tx with
  | none => false
  | some x =>
    let k := (diff32 t x.start / 4).toNat
    d.mblDe l t && decide (0 ≤ diff32 t x.start) &&
      (((wireGroups (d.lane l).cfg.preN x.bytes)[k / 10]?).map fun g => bit g (9 - k % 10)).getD false

/-- The lane stops sending (R387). -/
def Lane.breakOff (now : W32) (x : Lane) : Lane := { x with tx := x.tx.map fun t => { t with cut := some now } }

/-- The head runs the full schedule: its session's cycle N + 2 has come (R383). -/
def Die.fullService (d : Die) (l : Nat) : Bool :=
  let x := d.lane l
  d.laneDrives l && x.state = .head &&
    (match x.session with | some n => x.full || 2 ≤ (d.laneCyc l - n).toNat | none => false)

/-- The reply window opens after a request of LEN bytes (R368). -/
def Die.expectReply (l i : Nat) (e : SchedEntry) (node : Nat) (seq : Byte) (acyc queued : Bool) (len : Nat) (d : Die) : Die :=
  d.updLane l fun x =>
    { x with waiting := some { slot := i, seq := seq, node := node, acyc := acyc, queued := queued, replyLen := e.replyLen,
                               deadline := e.deadline, eof := d.time.ns + BitVec.ofNat 32 (frameNs x.cfg.preN len) } }

/-- The payload of a beacon (R359, R378) with `extra` ns of delay. -/
def Die.beaconPayload (d : Die) (l extra : Nat) : List Byte :=
  let x := d.lane l
  leBytes 4 (d.laneCyc l).toNat ++ leBytes 4 d.time.start.toNat
    ++ leBytes 2 (4 * x.cfg.beaconOfs + 40 * x.cfg.preN + extra)
    ++ [BitVec.ofNat 8 (tcCode d.img.cell.tc), BitVec.ofNat 8 x.cfg.rank.toNat] ++ leBytes 4 x.cfg.schedId.toNat

/-- The beacon of the lane cycle goes out; the first one of a session raises the epoch unless its
STARTUP has fixed it (R383). -/
def Die.sendBeacon (l extra : Nat) (d : Die) : Die :=
  let d := d.updLane l fun x =>
    match x.session with
    | some _ => x
    | none => { x with session := some (d.laneCyc l), full := false, epoch := if x.epochFixed then x.epoch else x.epoch + 1,
                       epochFixed := false, startAfter := none }
  let d := (d.updLane l fun x => { x with beaconCyc := some (d.laneCyc l) }).laneCount l 0
  d.sendFrame l (makeFrame 1 0xFF 0 (BitVec.ofNat 8 (d.laneCyc l).toNat) 0 (d.lane l).epoch (d.beaconPayload l extra))

/-- BEACON_SEND (R378, R383, R387). -/
def Die.beaconSend (l : Nat) (d : Die) : Die :=
  let x := d.lane l
  let early := match x.startAfter with
    | some t => decide (diff32 d.time.start t < 0)
    | none => false
  if !d.laneDrives l || x.state ≠ .head || early || x.beaconCyc = some (d.laneCyc l) then d
  else
    let new := x.session.isNone
    let d := d.sendBeacon l 0
    if new then d.queueApply l else d

/-- The TX group of a role for a target: taken once a cycle for POLLs (R380). -/
def Die.takeTx (l r : Nat) (d : Die) : Option (List (List W32)) × Die :=
  match (d.lane l).taken.find? fun t => t.role = r && t.cyc = d.time.cyc with
  | some t => (t.group, d)
  | none =>
    let (g, d) : Option (List (List W32)) × Die := match d.txQueue l r with
      | none => (none, d)
      | some q => let (g, d) := d.dequeue q d.time.cyc false; (g.map fun es => es.map (·.payload), d)
    (g, d.updLane l fun x =>
      { x with taken := (x.taken.filter fun t => t.cyc = d.time.cyc) ++ [{ role := r, cyc := d.time.cyc, group := g }] })

/-- The committed TX group of a role for the next cycle, left in the queue (R380). -/
def Die.peekTx (d : Die) (l r : Nat) : Option (List (List W32)) :=
  match d.txQueue l r with
  | none => none
  | some q =>
    let es := (d.queue q).ring.filter fun e => e.commit && e.tgt = tgtOf (d.time.cyc + 1)
    if es.isEmpty then none else some (es.map (·.payload))

/-- A profile J record (R361, R652); none of the words means NOFRESH. -/
def Joint.record (x : Joint) (words : Option (List W32)) (tgt : W32) : List Byte :=
  let (sp, ff, stale) : W32 × W16 × Bool := match words with
    | none => (0, 0, true)
    | some w =>
      let ff : W16 := match w[1]? with
        | some t => if x.cfg.outVel then BitVec.ofInt 16 (clampS 16 (roundDiv t.toInt 65536)) else 0
        | none => 0
      ((w[0]?).getD 0, ff, false)
  leBytes 4 sp.toNat ++ leBytes 2 ff.toNat
    ++ [BitVec.ofNat 8 (x.cfg.jidx + flag x.en 3 + flag x.cfg.outVel 4 + flag stale 5 + flag x.cfg.classF 6),
        BitVec.ofNat 8 tgt.toNat]

/-- The records of a POLL or RETPOLL and whether any is fresh (R380). -/
def Die.pollRecords (l node : Nat) (next : Bool) (d : Die) : List Byte × Bool × Die :=
  let tgt := if next then d.laneCyc l + 1 else d.laneCyc l
  (d.nodeJoints l node).foldl (fun (s : List Byte × Bool × Die) j =>
    let d := s.2.2
    let r := (d.jnt j).roleNum
    let (g, d) := if next then (d.peekTx l r, d) else d.takeTx l r
    let w := (g.bind fun es => es[(d.laneJoints l r).idxOf j]?).filter fun _ => d.applyReady l j
    (s.1 ++ (d.jnt j).record w tgt, s.2.1 || w.isSome, d)) ([], false, d)

/-- A POLL or RETPOLL in hardware mode; `stale` makes every record NOFRESH (R380, R394). -/
def Die.sendPoll (l i : Nat) (e : SchedEntry) (stale : Bool) (d : Die) : Die :=
  let next := e.cls = 1
  let (recs, fresh, d) : List Byte × Bool × Die := if stale then ([], false, d) else d.pollRecords l e.node next
  let seq := BitVec.ofNat 8 (d.laneCyc l).toNat
  let payload := if fresh then recs else []
  let d := d.sendFrame l (makeFrame (if next then 5 else 3) e.node i seq (flag (!fresh) 0) (d.lane l).epoch payload)
  if next then d else d.expectReply l i e e.node seq false false payload.length

/-- The reply awaited is missed, by cause; a request sent is tried again (R390, R393). -/
def Die.missReply (l : Nat) (cause : Option (Fin 13)) (d : Die) : Die :=
  let queued := match (d.lane l).waiting with | some w => w.queued && !w.lapsed | none => false
  let d := d.missedReply l cause
  if queued then d.acycRetry l else d

/-- The acyclic request an ACYC entry serves next, of those to its node: the device's own go first, and one in
progress before one not sent yet (R380, R393). -/
def Lane.nextReq (x : Lane) (e : SchedEntry) : Option AcycReq :=
  let l := x.reqs.filter fun r => e.node = 0 || e.node = r.node
  ((l.find? fun r => r.own && r.sends ≠ 0).or (l.find? (·.own))).or ((l.find? (·.sends ≠ 0)).or l.head?)

/-- An ACYC entry in hardware mode: the request, moved to the front, or an IDLE (R374, R380). -/
def Die.sendAcyc (l i : Nat) (e : SchedEntry) (d : Die) : Die :=
  match (d.lane l).nextReq e with
  | none => d.sendFrame l (makeFrame 8 0xFF i 0 0 (d.lane l).epoch [])
  | some r =>
    let n := Fin.ofNat 17 r.node
    let seq := if r.sends = 0 then vget (d.lane l).seqs n + 1 else r.seq
    let r' := { r with sends := r.sends + 1, seq := seq }
    let d := d.updLane l fun x => { x with seqs := vset x.seqs n seq, reqs := r' :: x.reqs.erase r }
    let d := d.sendFrame l (makeFrame 6 r.node i seq (flag (r.sends ≠ 0) 2) (d.lane l).epoch r'.payload)
    d.expectReply l i e r.node seq true true r'.payload.length

/-- The host area of an entry by BAR2 offset (R394). -/
def Lane.hostArea (x : Lane) (i : Nat) : Nat := x.cfg.hostBase.toNat + i * 0x800

/-- The host's TX frame of an entry, if every condition of R394 holds. -/
def Die.hostFrame (d : Die) (l i : Nat) (e : SchedEntry) : Option MbFrame :=
  let x := d.lane l
  let a := x.hostArea i
  let hdr := d.sram.read 0 (a + 8) 8
  let len := fieldAt hdr 3 2 % 1024
  let t := if e.cls = 0 then 3 else if e.cls = 1 then 5 else if e.cls = 2 then 6 else 8
  if d.sram.word a = d.laneCyc l && fieldAt hdr 0 1 = t + 16 &&
      (if e.cls = 2 && e.node = 0 then 1 ≤ fieldAt hdr 1 1 && fieldAt hdr 1 1 ≤ 16
        else fieldAt hdr 1 1 = (if e.cls = 3 then 0xFF else e.node)) && len ≤ e.pollLen then
    some { readFrame hdr with payload := d.sram.read 0 (a + 16) len }
  else none

/-- HOST_BAD (R394). -/
def Die.hostBad (l : Nat) (d : Die) : Die := (d.updLane l fun x => { x with hostBad := true }).laneCount l 11

/-- An entry in host-composed mode (R394). -/
def Die.sendHost (l i : Nat) (e : SchedEntry) (d : Die) : Die :=
  match d.hostFrame l i e with
  | some f =>
    let seq := if e.cls < 2 then BitVec.ofNat 8 (d.laneCyc l).toNat else f.seq
    let d := d.sendFrame l (makeFrame f.type f.dest i seq f.flags (d.lane l).epoch f.payload)
    if e.cls = 0 then d.expectReply l i e f.dest seq false false f.payload.length
    else if e.cls = 2 then d.expectReply l i e f.dest seq true false f.payload.length
    else d
  | none =>
    let d := d.hostBad l
    if e.cls < 2 then d.sendPoll l i e true
    else if e.cls = 2 then d.sendAcyc l i e
    else d.sendFrame l (makeFrame 8 0xFF i 0 0 (d.lane l).epoch (List.replicate e.pollLen 0))

/-- An entry of the schedule at its offset: `cls` is the CLASS the command stands for (R380). It goes out once in a
lane cycle (R378). A reply of the entry before that has not come is missed (R390). -/
def Die.entrySend (l i cls : Nat) (d : Die) : Die :=
  match d.schedEntry l i with
  | none => d
  | some e =>
    if !d.fullService l || e.cls ≠ cls || (d.lane l).sent.contains i then d
    else
      let d := (d.missReply l (some 6)).updLane l fun x => { x with sent := i :: x.sent, full := true }
      if (d.lane l).host then d.sendHost l i e
      else if cls < 2 then d.sendPoll l i e false
      else if cls = 2 then d.sendAcyc l i e
      else d.sendFrame l (makeFrame 8 0xFF i 0 0 (d.lane l).epoch (List.replicate e.pollLen 0))

/-! Following a lane (R384-R388) -/

/-- The last EPOCH received on the lane (R383). -/
def Lane.sawEpoch (e : Byte) (x : Lane) : Lane := { x with epochRx := some e }

/-- Entry into LISTEN (R386). -/
def Lane.toListen (x : Lane) : Lane := { x with nodeSt := .listen, missing := 0 }

/-- A frame that sends a node in CHECK back to LISTEN (R386). -/
def Lane.disturb (x : Lane) : Lane := if x.state = .node && x.nodeSt = .check then x.toListen else x

/-- A frame of LEN bytes ends at `now`: one that starts before the one before it ended, or ends after the expected
start of cycle N + 1, disturbs a node in CHECK (R386). Its SOF comes at least 2 preamble characters after its start. -/
def Lane.heard (now : W32) (len : Nat) (x : Lane) : Lane :=
  let start := now - BitVec.ofNat 32 (40 * (len + 16))
  let bad := diff32 start x.lastEof < 0 || 0 < diff32 now (x.lastStart + BitVec.ofNat 32 x.lastTc)
  { (if bad then x.disturb else x) with lastEof := now }

/-- The cycle start expected next (R385). -/
def Lane.nextStart (x : Lane) : W32 := x.lastStart + BitVec.ofNat 32 x.lastTc

/-- The beacon is on time: its cycle start lies within 250 ns of the expected one (R385). -/
def Lane.onTime (x : Lane) (start : W32) : Bool := decide ((diff32 start x.nextStart).natAbs ≤ 250)

/-- The period that a TC_CODE names, in ns (R359). -/
def tcOf (code : Nat) : Nat := if code = 0 then 31250 else if code = 1 then 62500 else if code = 2 then 125000 else 250000

/-- The beacon is taken as the last accepted one. -/
def Lane.accept (p : List Byte) (start : W32) (x : Lane) : Lane :=
  { x with lastCyc := BitVec.ofNat 32 (fieldAt p 0 4), lastStart := start, missing := 0,
           headRank := BitVec.ofNat 2 (fieldAt p 0xB 1), lastTc := tcOf (fieldAt p 0xA 1) }

/-- A valid beacon at a node lane (R386), which ends at `now`; one in CHECK that starts before the frame before it
ended, or is not on time but ends after the expected start of N + 1, is a frame that disturbs the cycle. -/
def Lane.nodeBeacon (f : MbFrame) (start now : W32) (x : Lane) : Lane :=
  let taken := x.accept f.payload start
  if x.nodeSt = .listen || f.epoch ≠ x.epoch then { taken with nodeSt := .check, epoch := f.epoch }
  else if x.nodeSt = .check && diff32 (now - BitVec.ofNat 32 (40 * 32)) x.lastEof < 0 then x.toListen
  else if x.onTime start then
    { taken with nodeSt := if x.nodeSt = .check then .hold else .joined }
  else if diff32 start x.nextStart < 0 && 0 < diff32 now x.nextStart then x.disturb
  else x

/-- TIME_SKEW (R43): the beacon's cell time differs by more than the jump threshold. -/
def Die.judgeSkew (l : Nat) (f : MbFrame) (start : W32) (d : Die) : Die :=
  let e := (diff32 (BitVec.ofNat 32 (fieldAt f.payload 4 4)) start).natAbs
  if d.time.jumpTh.toNat < e then
    let was := (d.lane l).timeSkew
    let d := d.updLane l fun x => { x with timeSkew := true }
    if was then d else d.laneLog .warn l 0xB8
  else d

/-- SCHED_MISMATCH and TC_MISMATCH of a BACKUP (R388). -/
def Die.judgeBeacon (l : Nat) (f : MbFrame) (d : Die) : Die :=
  let x := d.lane l
  let sOk := BitVec.ofNat 32 (fieldAt f.payload 0xC 4) = x.cfg.schedId
  let tOk := fieldAt f.payload 0xA 1 = tcCode d.img.cell.tc
  let d := d.updLane l fun y =>
    { y with beaconOk := sOk && tOk, schedMismatch := y.schedMismatch || !sOk, tcMismatch := y.tcMismatch || !tOk }
  let d := if !sOk && !x.schedMismatch then d.laneLog .warn l 0xB6 else d
  if !tOk && !x.tcMismatch then d.laneLog .warn l 0xB7 else d

/-- The REPLY that a BACKUP waits for has not come: the node's missed replies rise (R388, R391). -/
def Lane.watchEnd (x : Lane) : Lane :=
  match x.watch with
  | none => x
  | some (n, _) =>
    let k := vget x.missed (Fin.ofNat 17 n) + 1
    { x with watch := none, missed := vset x.missed (Fin.ofNat 17 n) k,
             absent := if 3 ≤ k then x.absent ||| BitVec.ofNat 17 (2 ^ n) else x.absent }

/-- A BACKUP sees a POLL, and a REPLY (R388). -/
def Lane.watchPoll (f : MbFrame) (x : Lane) : Lane := { x.watchEnd with watch := some (f.dest, BitVec.ofNat 8 f.slot) }
def Lane.watchReply (f : MbFrame) (x : Lane) : Lane :=
  match x.watch with
  | some (n, slot) =>
    if slot.toNat = f.slot then
      let b := BitVec.ofNat 17 (2 ^ n)
      { x with watch := none, missed := vset x.missed (Fin.ofNat 17 n) 0, absent := x.absent &&& ~~~b,
               alarm := if f.flags / 2 % 2 = 1 then x.alarm ||| b else x.alarm }
    else x
  | none => x

/-- A valid beacon at a master lane that does not drive as head (R384, R387, R388). -/
def Die.followBeacon (l : Nat) (f : MbFrame) (start : W32) (d : Die) : Die :=
  let x := d.lane l
  let ok := !x.follows || f.epoch ≠ x.epoch || x.onTime start
  let d := if ok then
      d.updLane l fun y => { (y.accept f.payload start) with epoch := f.epoch, follows := true, state := .backup }
    else d
  (d.updLane l fun y => if d.red.grant then y.watchEnd else y).judgeBeacon l f

/-- A head hears another head's beacon or STARTUP (R387). -/
def Die.depose (l : Nat) (d : Die) : Die :=
  (d.updLane l fun x => { x.breakOff d.time.ns with
      state := .backup, deposed := true, session := none, waiting := none, missing := 0, follows := false,
      lastSof := d.time.ns }).laneLog .warn l 0xB4

/-- A frame of another epoch disturbs a node in CHECK (R386). -/
def Lane.checkEpoch (f : MbFrame) (x : Lane) : Lane := if f.epoch ≠ x.epoch then x.disturb else x

/-- A frame that fails a check: it is counted, and disturbs a node in CHECK (R366, R386). -/
def Die.badFrame (l : Nat) (i : Fin 13) (d : Die) : Die := (d.laneCount l i).updLane l Lane.disturb

/-- A frame at a node lane, and whether it acts on it: a JOINED node, a type, addressed to it (R367, R386). -/
def Die.nodeFrame (l type : Nat) (codeErr : Bool) (b : List Byte) (d : Die) : Option MbFrame × Die :=
  let x := d.lane l
  if x.state ≠ .node then (none, d)
  else
    match x.receive codeErr b with
    | .error i => (none, d.badFrame l i)
    | .ok f =>
      let d := d.updLane l fun x => ((x.sawEpoch f.epoch).checkEpoch f).heard d.time.ns f.payload.length
      if f.type = type && x.nodeSt = .joined && (f.dest = x.cfg.addr.toNat || f.dest = 0xFF) then (some f, d) else (none, d)

/-! Replies (R362, R368, R376, R391-R393) -/

/-- A node is heard: present again, and its alarm (R391, R392). -/
def Die.nodeHeard (l node : Nat) (alarm : Bool) (poll : Bool) (d : Die) : Die :=
  let n := Fin.ofNat 17 node
  let b : BitVec 17 := BitVec.ofNat 17 (2 ^ node)
  let was := bit (d.lane l).absent node
  let d := if poll then d.updLane l fun x => { x with missed := vset x.missed n 0, absent := x.absent &&& ~~~b } else d
  let d := if poll && was then d.laneLog .info l 0xB1 else d
  if alarm then
    let old := bit (d.lane l).alarm node
    let d := d.updLane l fun x => { x with alarm := x.alarm ||| b }
    if old then d else d.laneLog .warn l 0xB2
  else d

/-- The profile J records of a REPLY (R362): JIDX, and words 0 to 3 of the RX entry (R376). -/
def replyRecords (seq : Byte) : Nat → List Byte → List (Nat × List W32)
  | 0, _ => []
  | n + 1, p =>
    if p.length < 12 then []
    else
      let w (a k : Nat) : W32 := BitVec.ofNat 32 (fieldAt p a k)
      (fieldAt p 11 1 % 8, [w 0 4, w 4 4, w 8 2 <<< 16, w 10 1 ||| (seq.zeroExtend 32 <<< 8)]) ::
        replyRecords seq n (p.drop 12)

/-- The feedback of an accepted REPLY reaches its joints and the RX queues: the entries of an engine's joints form
one group in slot order, which is written when the last of their nodes has replied (R376). A library program
computes for a lane's class A joints once their group is there (R187, R188, R376). One whose F_START or wait limit has
passed has run without the reply (R190, R311). -/
def Die.deliverReply (l node : Nat) (f : MbFrame) (d : Die) : Die :=
  let recs := replyRecords f.seq 8 f.payload
  let jointOf (i : Nat) : Option Nat := (d.nodeJoints l node).find? fun j => (d.jnt j).cfg.jidx = i
  let hits := recs.filterMap fun r => (jointOf r.1).map fun j => (j, r.2)
  let word (w : List W32) (i : Nat) : W32 := (w[i]?).getD 0
  let roles := (hits.map fun h => (d.jnt h.1).roleNum).eraseDups
  let d := roles.foldl (fun d r => d.runLibrary r) d
  let d := hits.foldl (fun d h =>
    if bit (word h.2 3) 6 then d
    else d.feedback h.1 (word h.2 0) (word h.2 1) (BitVec.ofNat 16 (bits (word h.2 2) 31 16))) d
  let held := ((d.lane l).rxHeld.filter fun h => h.2.1 = d.time.cyc) ++ hits.map fun h => (h.1, d.time.cyc, h.2)
  let group (d : Die) (r : Nat) : List (Option (List W32)) :=
    (d.laneJoints l r).map fun j => (held.find? fun h => h.1 = j).map fun h => h.2.2
  let done (d : Die) (r : Nat) : Bool := (group d r).all Option.isSome
  let d := d.updLane l fun x => { x with rxHeld := held.filter fun h => !done d (d.jnt h.1).roleNum }
  let d := roles.foldl (fun d r =>
    match d.rxQueue l r with
    | none => d
    | some q => if done d r then d.produceGroup q (tgtOf d.time.cyc) ((group d r).filterMap fun e => e) else d) d
  roles.foldl (fun d r => d.runLibrary r) d

/-- RX_CYC, RX_LEN and the RX frame of the host area (R394). -/
def Die.storeHostReply (l slot : Nat) (b : List Byte) (d : Die) : Die :=
  let x := d.lane l
  if !x.host then d
  else
    let a := x.hostArea slot
    let frame := b.take (b.length - 4)
    { d with sram := ((d.sram.putWord (a + 0x400) (d.laneCyc l)).putWord (a + 0x404)
        (BitVec.ofNat 32 frame.length)).write 0 (a + 0x408) frame }

/-- Where the reply's SOF lies: before, in or after the window (R368). -/
def ReplyWait.late (w : ReplyWait) (sof : W32) : Option (Fin 13) :=
  let t := diff32 sof w.eof
  if t < 320 then some 6 else if t ≤ 4 * w.deadline + 320 then none else some 7

/-- A frame that came in the entry of a request: accepted, or the cause of the missed reply (R368, R390). -/
def Lane.judgeReply (x : Lane) (w : ReplyWait) (sof : W32) (codeErr : Bool) (b : List Byte) : Except (Fin 13) MbFrame :=
  match if w.lapsed then some ((w.late sof).getD 7) else w.late sof with
  | some i => .error i
  | none =>
    match x.receive codeErr b with
    | .error i => .error i
    | .ok f =>
      if f.type ≠ (if w.acyc then 7 else 4) || f.slot ≠ w.slot || f.seq ≠ w.seq ||
          (!w.acyc && f.payload.length ≠ w.replyLen) then .error 8
      else .ok f

/-- An acyclic reply with a final STATUS ends its request (R393); an own write that did not return OK is made again
(R389). -/
def Die.acycDone (l : Nat) (r : AcycReq) (status : Nat) (data : List Byte) (d : Die) : Die :=
  d.updLane l fun x =>
    let x := { x with reqs := x.reqs.drop 1 }
    if r.own then
      if status = 0 then
        { x with applyOfs := (r.node, r.sub.toNat, BitVec.ofNat 16 (leNat r.data)) ::
            x.applyOfs.filter fun p => !(p.1 = r.node && p.2.1 = r.sub.toNat) }
      else { x with reqs := x.reqs ++ [{ r with sends := 0 }] }
    else x.acycEnd status (if r.op = 1 && status = 0 then data else [])

/-- A REPLY that the head accepts (R362, R376, R391, R392). -/
def Die.replyTaken (l : Nat) (w : ReplyWait) (f : MbFrame) (b : List Byte) (d : Die) : Die :=
  ((d.nodeHeard l w.node (f.flags / 2 % 2 = 1) true).storeHostReply l w.slot b).deliverReply l w.node f

/-- An ACYC_REPLY that the head accepts ends its request, or has it repeated on BUSY (R364, R374, R393). -/
def Die.acycTaken (l : Nat) (w : ReplyWait) (f : MbFrame) (b : List Byte) (d : Die) : Die :=
  let d := (d.nodeHeard l w.node (f.flags / 2 % 2 = 1) false).storeHostReply l w.slot b
  let status := fieldAt f.payload 1 1
  match w.queued, (d.lane l).reqs with
  | true, r :: _ => if status = 4 then d.acycRetry l else d.acycDone l r status (f.payload.drop 8)
  | _, _ => d

/-- A lane in BACKUP notes the APPLY_OFS write that a frame acknowledges with OK (R388). -/
def Lane.seenReply (f : MbFrame) (x : Lane) : Lane :=
  match x.seenWrite with
  | some (n, j, v, seq) =>
    if f.type = 7 && f.seq = seq && fieldAt f.payload 1 1 = 0 then
      { x with seenWrite := none, applyOfs := (n, j, v) :: x.applyOfs.filter fun p => !(p.1 = n && p.2.1 = j) }
    else x
  | none => x

/-- A BACKUP sees a REPLY or ACYC_REPLY; only the die with the grant marks nodes (R384, R388). -/
def Die.backupSees (l : Nat) (f : MbFrame) (d : Die) : Die :=
  if (d.lane l).state ≠ .backup then d
  else d.updLane l fun x => if f.type = 7 then x.seenReply f else if f.type = 4 && d.red.grant then x.watchReply f else x

/-- A frame on a lane where no other row takes it. A driving head that awaits a reply judges it as that reply (R368,
R390); every other lane checks it (R366), a node lane by R386. -/
def Die.answerRx (l : Nat) (sof : W32) (codeErr : Bool) (b : List Byte) (d : Die) : Die :=
  let x := d.lane l
  if x.state = .off then d
  else if x.state = .node then (d.nodeFrame l 4 codeErr b).2
  else
    match if x.state = .head && d.laneDrives l then x.waiting else none with
    | none =>
      match x.receive codeErr b with
      | .error i => d.badFrame l i
      | .ok f => (d.updLane l (Lane.sawEpoch f.epoch)).backupSees l f
    | some w =>
      match x.judgeReply w sof codeErr b with
      | .error i => d.missReply l (some i)
      | .ok f =>
        let d := d.updLane l fun x => { x.sawEpoch f.epoch with waiting := none }
        if w.acyc then d.acycTaken l w f b else d.replyTaken l w f b

/-- Where the SOF of a frame lies whose EOF ends now (R354). -/
def Die.sofOf (d : Die) (b : List Byte) : W32 := d.time.ns - BitVec.ofNat 32 (40 * (b.length + 2))

/-- REPLY_RX (R362, R368, R376, R391). -/
def Die.replyRx (l : Nat) (sof : W32) (codeErr : Bool) (b : List Byte) (d : Die) : Die := d.answerRx l sof codeErr b

/-- ACYC_REPLY_RX (R364, R374, R393). -/
def Die.acycReplyRx (l : Nat) (sof : W32) (codeErr : Bool) (b : List Byte) (d : Die) : Die := d.answerRx l sof codeErr b

/-- REPLY_MISSED (R390, R391): the window has ended with no SOF in it. -/
def Die.replyMissed (l : Nat) (d : Die) : Die :=
  match (d.lane l).waiting with
  | none => d
  | some w =>
    if w.lapsed || diff32 d.time.ns w.eof < 4 * w.deadline + 320 then d
    else d.missReply l none

/-- FRAME_RX_INVALID (R366, R386, R390): the check that fails is counted; where a reply was awaited it
is a missed reply. -/
def Die.frameInvalid (l : Nat) (codeErr : Bool) (b : List Byte) (d : Die) : Die :=
  match (d.lane l).receive codeErr b with
  | .ok _ => d
  | .error _ => d.answerRx l (d.sofOf b) codeErr b

/-- A frame as the groups from its SOF to its EOF give it: a SOF inside ends a frame as a code error and starts a new
one (R353). -/
def Die.onFrame (l : Nat) (g : List (BitVec 10)) (f : Bool → List Byte → Die → Die) (d : Die) : Die :=
  let r := received g
  f r.codeErr r.bytes ((List.range r.cut).foldl (fun d _ => d.frameInvalid l true []) d)

/-- The SOF of the last frame that the groups hold. -/
def lastSofOf (sof : W32) (g : List (BitVec 10)) : W32 := sof + BitVec.ofNat 32 (40 * (received g).before)

/-! Beacons and STARTUPs (R359, R360, R385-R388) -/

/-- BEACON_RX (R359, R385-R388): `sof` is the arrival of its first SOF bit. -/
def Die.beaconRx (l : Nat) (sof : W32) (codeErr : Bool) (b : List Byte) (d : Die) : Die :=
  let x := d.lane l
  match x.receive codeErr b with
  | .error _ => d.answerRx l sof codeErr b
  | .ok f =>
    if f.type ≠ 1 || f.payload.length ≠ 16 || x.state = .off then d.answerRx l sof codeErr b
    else
      let start := sof - BitVec.ofNat 32 (fieldAt f.payload 8 2)
      let d := d.updLane l (Lane.sawEpoch f.epoch)
      if x.state = .node then
        if f.dest ≠ x.cfg.addr.toNat && f.dest ≠ 0xFF then d.updLane l (Lane.heard d.time.ns 16)
        else (d.updLane l fun x => { x.nodeBeacon f start d.time.ns with lastEof := d.time.ns }).judgeSkew l f start
      else if x.state = .head && d.laneDrives l then (d.depose l).followBeacon l f start
      else if x.state = .head then
        d.updLane l fun y =>
          { (y.accept f.payload start) with
            epoch := f.epoch, laneOfs := BitVec.ofNat 32 (fieldAt f.payload 0 4) - d.time.cyc }
      else if x.state = .silent || x.state = .backup then
        (d.followBeacon l f start).updLane l fun y => { y with lastSof := sof }
      else d

/-- STARTUP_RX (R360, R386, R387). -/
def Die.startupRx (l : Nat) (codeErr : Bool) (b : List Byte) (d : Die) : Die :=
  let x := d.lane l
  match x.receive codeErr b with
  | .error _ => d.answerRx l (d.sofOf b) codeErr b
  | .ok f =>
    if f.type ≠ 2 || x.state = .off then d.answerRx l (d.sofOf b) codeErr b
    else
      let d := d.updLane l (Lane.sawEpoch f.epoch)
      if x.state = .node then
        if f.dest ≠ x.cfg.addr.toNat && f.dest ≠ 0xFF then d else d.updLane l Lane.toListen
      else if x.state = .head && d.laneDrives l then d.depose l
      else d

/-- BEACON_MISSING (R385, R386): 5 µs after the expected cycle start. -/
def Die.beaconMissing (l : Nat) (d : Die) : Die :=
  let x := d.lane l
  let due := decide (0 ≤ diff32 d.time.ns (x.nextStart + 5000))
  if !due || !((x.state = .node && x.nodeSt ≠ .listen) || x.state = .backup) then d
  else
    d.updLane l fun x =>
      let x := { x with lastStart := x.nextStart, missing := x.missing + 1 }
      if x.state = .node && (x.nodeSt ≠ .joined || 3 ≤ x.missing) then x.toListen else x

/-! Startup and clashes (R387) -/

/-- A STARTUP is sent with the epoch of the session to come (R360, R383). -/
def Die.sendStartup (l : Nat) (d : Die) : Die :=
  let x := d.lane l
  let e : Byte := match x.epochRx with | some e => e + 1 | none => 1
  let p := [BitVec.ofNat 8 x.cfg.rank.toNat, BitVec.ofNat 8 (tcCode d.img.cell.tc)] ++ leBytes 2 d.host.nodeId.toNat
    ++ leBytes 4 x.cfg.schedId.toNat
  (d.updLane l fun x => { x with state := .starting, epoch := e }).sendFrame l (makeFrame 2 0xFF 0 0 0 e p)

/-- The lane has been silent for `ns`. -/
def Die.silentFor (d : Die) (l ns : Nat) : Bool := decide ((ns : Int) ≤ diff32 d.time.ns (d.lane l).lastSof)

/-- SILENCE_TIMEOUT. -/
def Die.silenceTimeout (l : Nat) (d : Die) : Die :=
  let x := d.lane l
  if d.laneDrives l && x.state = .silent && d.silentFor l (3 * d.img.cell.tc + 4000 * x.cfg.rank.toNat) then d.sendStartup l
  else d

/-- CLASH_BACKOFF_END. -/
def Die.clashBackoffEnd (l : Nat) (d : Die) : Die :=
  let x := d.lane l
  if d.laneDrives l && x.state = .clash && d.silentFor l ((x.cfg.rank.toNat + 1) * 8000) then d.sendStartup l else d

/-- The end of the frame on the lane (R354). -/
def Lane.txEof (now : W32) (x : Lane) : W32 := match x.tx with | some t => t.eof x.cfg.preN | none => now

/-- STARTUP_READBACK: `ok` where the frame read back is identical to the one sent. -/
def Die.startupReadback (l : Nat) (ok : Bool) (d : Die) : Die :=
  let x := d.lane l
  if x.state ≠ .starting then d
  else if ok then
    d.updLane l fun x =>
      { x with state := .head, laneOfs := 0, session := none, epochFixed := true, beaconCyc := none, unread := 0,
               clashCnt := 0, startAfter := some (x.txEof d.time.ns + 2000), lastSof := d.time.ns }
  else
    let k := x.clashCnt + 1
    let d := (d.updLane l fun x =>
      { x.breakOff d.time.ns with
        clashCnt := k, lastSof := d.time.ns, state := if k = 4 then .stopped else .clash }).laneCount l 9
    if k = 4 then d.laneLog .degrade l 0xB5 else d

/-- SOF_DETECTED: the silence timer restarts; a SOF in CLASH ends it. -/
def Die.sofDetected (l : Nat) (d : Die) : Die :=
  d.updLane l fun x =>
    let x := { x with lastSof := d.time.ns }
    if x.state = .clash then { x with state := .silent, clashCnt := 0 } else x

/-- BACKUP_SILENCE. -/
def Die.backupSilence (l : Nat) (d : Die) : Die :=
  if (d.lane l).state = .backup && d.silentFor l (3 * d.img.cell.tc) then d.updLane l fun x => { x with state := .silent, follows := false }
  else d

/-- The sending time of a takeover: the expected cycle start, BEACON_OFS and RANK × 1 µs (R388). -/
def Lane.takeoverAt (x : Lane) : W32 := x.nextStart + BitVec.ofNat 32 (4 * x.cfg.beaconOfs + 1000 * x.cfg.rank.toNat)

/-- BACKUP_TAKEOVER (R388, R389) in lane cycle k + 2, at its sending time. -/
def Die.backupTakeover (l : Nat) (d : Die) : Die :=
  let x := d.lane l
  let quiet := decide (diff32 x.lastSof (x.nextStart - 500) < 0) && decide (0 ≤ diff32 d.time.ns x.takeoverAt)
  if !d.laneDrives l || x.state ≠ .backup || x.missing ≠ 2 || !x.beaconOk || !quiet then d
  else
    let d := d.updLane l fun x =>
      { x with state := .head, session := none, epochFixed := false, unread := 0, waiting := none,
               laneOfs := x.lastCyc + 3 - d.time.cyc }
    (((d.sendBeacon l (1000 * x.cfg.rank.toNat)).laneCount l 10).laneLog .warn l 0xB3).queueApply l

/-- BEACON_READBACK (R463): two failed read-backs in a row make the data path silent. -/
def Die.beaconReadback (l : Nat) (ok : Bool) (d : Die) : Die :=
  let x := d.lane l
  if !d.laneDrives l || x.state ≠ .head then d
  else if ok then d.updLane l fun x => { x with unread := 0 }
  else
    let d := d.updLane l fun x => { x with unread := x.unread + 1 }
    if 1 ≤ x.unread then d.dataSilent 6 l else d

/-! A lane set to node (R42, R363, R367, R386) -/

/-- The HS queue that feeds an object (R149). -/
def Die.feedQueue (d : Die) (u : W16) : Option Nat := d.findQueue fun q => q.cls = .hs && q.feeds = some u

/-- The profile S records of a POLL or RETPOLL are enqueued for target c + HC (R363). -/
def Die.nodeRecords (l : Nat) : Nat → List Byte → Die → Die
  | 0, _, d => d
  | n + 1, p, d =>
    if p.length < 20 then d
    else
      let w (a : Nat) : W32 := BitVec.ofNat 32 (fieldAt p a 4)
      let d := match (d.lane l).cfg.objs[fieldAt p 0 1]? with
        | none => d
        | some u =>
          if fieldAt p 1 1 / 32 % 2 = 1 then d
          else match d.feedQueue u with
            | none => d
            | some q => d.produce q (tgtOf (d.time.cyc + BitVec.ofNat 32 (d.queue q).hc)) true [w 4, w 8, w 12, w 16]
      Die.nodeRecords l n (p.drop 20) d

/-- The record of an object in a profile S REPLY (R363). -/
def Die.objectRecord (d : Die) (u : W16) : List Byte :=
  let i := bits u 9 0
  if bits u 13 10 = 11 then
    let x := d.jnt i
    leBytes 4 x.pos.toNat ++ leBytes 4 x.vel.toNat ++ leBytes 4 x.status.toNat
  else
    let x := d.axis i
    let v : Int := x.sign * (x.vt * 1000000 / 2 ^ 28 : Nat)
    leBytes 4 (fit32 (x.pint * 2 ^ 20)).toNat ++ leBytes 4 (fit32 v).toNat ++ leBytes 4 x.status.toNat

/-- POLL_RX (R363, R367); a lane in BACKUP notes which node is polled (R388). -/
def Die.pollRx (l : Nat) (codeErr : Bool) (b : List Byte) (d : Die) : Die :=
  let x := d.lane l
  if x.state ≠ .node then
    let d := d.answerRx l (d.sofOf b) codeErr b
    match x.receive codeErr b with
    | .ok f => if x.state = .backup && f.type = 3 && d.red.grant then d.updLane l (Lane.watchPoll f) else d
    | .error _ => d
  else match d.nodeFrame l 3 codeErr b with
  | (none, d) => d
  | (some f, d) =>
    let d := if f.flags % 2 = 1 then d else d.nodeRecords l 26 f.payload
    let x := d.lane l
    if f.dest = x.cfg.addr.toNat && d.laneDrives l then
      d.sendAfter l (nodeTurn l) (makeFrame 4 0 f.slot f.seq 0 f.epoch (x.cfg.objs.flatMap fun u => d.objectRecord u))
    else d

/-- RETPOLL_RX (R363, R370). -/
def Die.retpollRx (l : Nat) (codeErr : Bool) (b : List Byte) (d : Die) : Die :=
  if (d.lane l).state ≠ .node then d.answerRx l (d.sofOf b) codeErr b
  else match d.nodeFrame l 5 codeErr b with
  | (none, d) => d
  | (some f, d) => if f.flags % 2 = 1 then d else d.nodeRecords l 26 f.payload

/-- The bytes of IDENT with PROFILE S (R373). -/
def identBytes (die l : Nat) : List Byte := overlay (sliceBytes (Config.ident die l) 0 16) 7 [1]

/-- The reply of a node lane to an acyclic request (R364, R373). -/
def acycAnswer (die l : Nat) (p : List Byte) : List Byte :=
  let op := fieldAt p 0 1
  let obj := fieldAt p 2 2
  let ofs := fieldAt p 6 2
  let n := fieldAt p 8 2
  let (status, data) : Nat × List Byte :=
    if obj = 1 then
      if op = 2 then (2, [])
      else if op ≠ 1 || 16 < ofs + n then (3, [])
      else (0, ((identBytes die l).drop ofs).take n)
    else (1, [])
  [BitVec.ofNat 8 op, BitVec.ofNat 8 status] ++ sliceBytes p 2 3 ++ [0] ++ sliceBytes p 6 2 ++ data

/-- ACYC_RX (R364, R367, R374). A lane in BACKUP notes a write of APPLY_OFS (R388). -/
def Die.acycRx (l : Nat) (codeErr : Bool) (b : List Byte) (d : Die) : Die :=
  let x := d.lane l
  if x.state ≠ .node then
    let d := d.answerRx l (d.sofOf b) codeErr b
    match x.receive codeErr b with
    | .ok f =>
      if x.state = .backup && f.type = 6 && fieldAt f.payload 0 1 = 2 && fieldAt f.payload 2 2 = 0x10 then
        d.updLane l fun x =>
          { x with seenWrite := some (f.dest, fieldAt f.payload 4 1, BitVec.ofNat 16 (fieldAt f.payload 8 2), f.seq) }
      else d
    | .error _ => d
  else
    match d.nodeFrame l 6 codeErr b with
    | (none, d) => d
    | (some f, d) =>
      if f.dest ≠ x.cfg.addr.toNat then d
      else
        let ans := match x.lastReply with
          | some (s, r) => if s = f.seq then r else acycAnswer d.id.num l f.payload
          | none => acycAnswer d.id.num l f.payload
        let d := d.updLane l fun x => { x with lastReply := some (f.seq, ans) }
        if d.laneDrives l then d.sendAfter l (nodeTurn l) (makeFrame 7 0 f.slot f.seq 0 f.epoch ans) else d

/-- IDLE_RX (R365): checked and discarded. -/
def Die.idleRx (l : Nat) (codeErr : Bool) (b : List Byte) (d : Die) : Die := d.answerRx l (d.sofOf b) codeErr b

/-! Commands and boundaries (R387, R394, R396) -/

/-- MB_LANE_CTRL.RESTART: only from STOPPED. -/
def Die.mbRestart (l : Nat) (d : Die) : Die :=
  if (d.lane l).state = .stopped then
    d.accept.updLane l fun x => { x with state := .silent, clashCnt := 0, lastSof := d.time.ns }
  else d.accept

def Die.mbHostReq (l : Nat) (on : Bool) (d : Die) : Die := d.updLane l fun x => { x with hostReq := on }

def Die.mbClrCnt (l : Nat) (d : Die) : Die := d.updLane l fun x => { x with cnt := Vector.replicate 13 0 }

/-- A time long past stays so: it is kept within 2^30 ns of the present. -/
def keepPast (now t : W32) : W32 := if 2 ^ 30 ≤ (now - t).toNat then now - 0x40000000 else t

/-- A cell cycle boundary: a reply still awaited is missed, the host mode follows its request, and a frame that has
ended is off the lane. -/
def Die.laneBoundary (l : Nat) (d : Die) : Die :=
  let now := d.time.ns
  (d.missReply l (some 6)).updLane l fun x =>
    { x with host := x.hostReq && !x.cfg.node, sent := [], lastSof := keepPast now x.lastSof, lastEof := keepPast now x.lastEof,
             tx := if 40 < diff32 now (x.txEof now) then none else x.tx }

/-- A lane the image uses begins (R386, R387). -/
def Lane.place (c : LaneCfg) (now : W32) : Lane :=
  { state := if c.node then .node else .silent, cfg := c, lastSof := now, lastEof := now }

end Sys2Proof.Machine
end

