-- ==== Sys2Proof/Machine/Pair.lean ====
section
/-! DEFINITION. The two dies of the package as one state. -/

namespace Sys2Proof.Machine

/-- A die of the package. -/
def State.die (s : State) : DieId → Die
  | .a => s.a
  | .b => s.b

/-- A die replaced. -/
def State.put (s : State) : DieId → Die → State
  | .a, d => { s with a := d }
  | .b, d => { s with b := d }

/-- A die rewritten. -/
def State.upd (id : DieId) (f : Die → Die) (s : State) : State := s.put id (f (s.die id))

/-- Both dies rewritten. -/
def State.both (f : Die → Die) (s : State) : State := (s.upd .a f).upd .b f

/-- The die that holds the grant (R473). -/
def State.holder (s : State) : Option DieId :=
  if s.a.red.grant then some .a else if s.b.red.grant then some .b else none

/-- A die rewritten with sight of the other one. -/
def State.updWith (id : DieId) (f : Die → Die → Die) (s : State) : State :=
  s.put id (f (s.die id.peer) (s.die id))

end Sys2Proof.Machine
end

