-- ==== Sys2Proof/Machine/Red.lean ====
section
/-! DEFINITION. The interlock, the grant, die takeovers and the standby's copies (chapter 15). -/

namespace Sys2Proof.Machine

/-! Registers of RED (R474, R481-R483, R489) -/

/-- R533: while die A's boundary-scan instruction is EXTEST or CLAMP the interlock grants no new grant. -/
def Die.scanBlocks (d peer : Die) : Bool :=
  let a := if d.id = .a then d else peer
  a.jtag.instr = .extest || a.jtag.instr = .clamp

/-- The die that drives the shared push-pull balls: that of the open gate; before die A's first GRANT_REQ, with
neither grant line asserted, die A alone by its boundary register under EXTEST or CLAMP (R25, R533, R624). -/
def State.ballDriver (s : State) : Option DieId :=
  if s.a.red.gateOpen then some .a
  else if s.b.red.gateOpen then some .b
  else if s.a.scanBlocks s.b && !s.a.jtag.grantReqSeen && !s.a.red.grant && !s.b.red.grant then some .a
  else none

/-- GRANT_REQ (R474, R523, R533): the grant goes to the first die that asks after its boot while neither
line is asserted. It first marks the die for boundary scan. -/
def Die.grantReq (peer d : Die) : Die :=
  let d := { d.accept with jtag := { d.jtag with grantReqSeen := true } }
  if d.boot.phase ≠ .complete || d.red.grant || peer.red.grant || d.red.latched || d.scanBlocks peer then d
  else { d with red := { d.red with grant := true, tk := .duty, grantAt := some d.real } }.bindStandby

/-- Die B gives back a grant of the same CLK_PER cycle (R474). -/
def Die.yieldGrant (d : Die) : Die :=
  { d with red := { d.red with grant := false, tk := .standby, gateOpen := false, grantAt := none } }.unbindAll

/-- GRANT_REQ on a die: where die B has received the grant in this same CLK_PER cycle, die A receives it (R474). -/
def State.grantReq (id : DieId) (s : State) : State :=
  let tie := id = .a && s.b.red.grant && s.b.red.grantAt = some s.b.real &&
    s.a.boot.phase = .complete && !s.a.red.latched && !s.a.scanBlocks s.b
  (if tie then s.upd .b Die.yieldGrant else s).updWith id Die.grantReq

/-- HOST_CONFIRM (R481): the mode moves at a cell cycle boundary. -/
def Die.hostConfirm (on : Bool) (d : Die) : Die := { d with red := { d.red with confirmReq := on } }

/-- HANDOVER (R482): by the holder, while redundancy is not degraded. -/
def Die.handover (d : Die) : Die :=
  if d.red.degraded || !d.red.grant then d.refuse
  else
    let d := d.beginHandover
    { d with red := { d.red with handoverCmd := true } }

/-- A die takeover is in progress on this die (R477). -/
def Die.takingOver (d : Die) : Bool := d.red.tk = .armed || d.red.tk = .shadow || d.red.tk = .waitoff

/-- RESTART_PEER (R483, R484). -/
def State.restartPeer (id : DieId) (s : State) : State :=
  let d := s.die id
  let p := s.die id.peer
  if !d.red.grant || p.takingOver || d.takingOver || !d.red.takes.isEmpty then s.upd id Die.refuse
  else s.upd id.peer (Die.restart 3)

/-- CLR_CNT (R489). -/
def Die.redClrCnt (d : Die) : Die := { d with red := { d.red with cnt := Vector.replicate 8 0 } }

/-- RED_CONFIRM (R481, R484): ignored before the holder is silent. -/
def Die.redConfirm (d : Die) : Die :=
  if d.takingOver then { d with red := { d.red with confirmed := true } } else d

/-! The gate (R473, R482) -/

/-- The gate closes; an axis that loses its drive in motion loses its HOMED (R243). -/
def Die.shutGate (d : Die) : Die :=
  if d.red.gateOpen then
    { d with red := { d.red with gateOpen := false }
             axes := vmap d.axes fun _ x => { x with homed := x.homed && x.vt = 0 } }
  else d

/-- The gate opens while the grant line is asserted and LIVE toggles, and closes with the grant line. -/
def Die.gateSync (d : Die) : Die :=
  { d with red := { d.red with
      gateOpen := d.red.grant && (d.red.gateOpen || (d.red.live && !d.red.latched)) } }

/-- GATE_CLOSE: 500 ns after the last LIVE edge the enables are latched off (R473). The die drops its
grant line (log entry 63). -/
def Die.gateClose (d : Die) : Die :=
  if !d.red.live && d.red.gateOpen then
    let d := d.shutGate
    { d with red := { d.red with latched := true, grant := false, handingOver := none } }
  else d

/-- HANDOVER_LIVE_STOP: the start of n + 2 less 750 ns (R482). -/
def Die.handoverLiveStop (d : Die) : Die :=
  match d.red.handingOver with
  | some n =>
    if d.time.cyc = n + 1 && decide (d.img.cell.tc ≤ d.sinceStart + 750) then
      { d with red := { d.red with live := false } }
    else d
  | none => d

/-! Heartbeats (R475, R482) -/

/-- HEARTBEAT_RX: HB(k) arrives at the standby. -/
def Die.heartbeatRx (k sig : W32) (d : Die) : Die :=
  if d.red.grant || !d.red.linkUp then d
  else
    { d with red := { d.red with
        hbLast := k, hbSig := sig, hbSeen := true,
        hbSince := d.red.hbSince || (d.takingOver && decide (0 < diff32 k d.red.silentAt)) } }

/-- HANDOVER_TOKEN_RX: HO(n) arrives; it does not count as a heartbeat. -/
def Die.handoverTokenRx (n sig : W32) (d : Die) : Die :=
  if d.red.grant || !d.red.linkUp then d
  else { d with red := { d.red with handoverRx := some n, hbSig := sig } }

/-- The holder is silent now (R475): HB(k) has not arrived within 2,000 ns of the start of k, or
LIVE shows a gap of 1,000 ns. HO(k) does not count as HB(k) (R482). -/
def Die.holderSilentNow (d peer : Die) : Bool :=
  (peer.red.grant || d.red.hbSeen) &&
    ((d.red.hbLast ≠ d.time.cyc && decide (2000 ≤ d.sinceStart)) || decide (250 ≤ peer.red.quiet))

/-! Die takeover (R477-R481) -/

/-- The sequencers of a role take the axis blocks of its newest cairn and advance by the ticks that
have passed since the snapshot (R234). -/
def Die.loadAxes (role : Nat) (ticks : List Nat) (d : Die) : Die :=
  match d.newestCairn role with
  | none => d
  | some (_, bytes) =>
    let own := d.ownedAxes role
    let base := bytes.length - 32 * own.length
    own.zipIdx.foldl (fun d (p : Nat × Nat) =>
      (d.updAxis p.1 (Axis.loadBlock (sliceBytes bytes (base + 32 * p.2) 32))).seqTicks p.1 ((ticks[p.1]?).getD 0)) d

/-- A role starts on its own engine, or on a spare where that engine cannot run (R11, R202, R477). -/
def Die.armRole (r : Nat) (first : W32) (d : Die) : Die :=
  let e := Fin.ofNat 80 r
  let st := (d.unit 0 r).state
  if st = .standby || st = .selftest then (d.takeRole e r first).skipJudgement r else d.assign e r

/-- The roles of the image. -/
def Die.usedRoles (d : Die) : List Nat := (List.range 80).filter fun r => d.roleUsed r

/-- HOLDER_SILENT (R477): a fit standby arms, an unfit one writes the FATAL record. `ticks`: the ticks
since the snapshot of each small axis. -/
def Die.holderSilent (ticks : List Nat) (peer d : Die) : Die :=
  if d.red.grant || d.red.tk ≠ .standby || !d.holderSilentNow peer then d
  else if !d.red.fit then
    let d := { d with red := { d.red with tk := .unfit } }
    d.log .fatal uidInterlock 0xEB
  else
    let first := d.time.cyc + 1
    let d := { d with kept := some { joints := d.joints, regions := d.regions, axes := d.axes } }
    let d := { d with red := { d.red with tk := .armed, silentAt := d.time.cyc, hbSince := false, confirmed := false } }
    let d := { d with qrc := { d.qrc with queues := vmap d.qrc.queues fun _ q => if q.used then q.restart else q } }
    let d := d.usedRoles.foldl (fun d r => (d.armRole r first).loadAxes r ticks) d
    let d := (List.range 4).foldl (fun d w => (d.catchPeriod w).fillRegion w) d
    (List.range 128).foldl (fun d j =>
      if (d.jnt j).used && ((d.jnt j).source = 2) then d.fillPg j first none else d) d

/-- R481: the confirm that the mode asks for has been given. -/
def Die.confirmOk (d peer : Die) : Bool :=
  !d.red.confirmMode || d.red.confirmed || (d.red.handoverRx = some d.red.silentAt && peer.red.handoverCmd)

/-- The grant moves to this die (R202, R422, R449, R477, R479, R480): its first solve is for a period that starts later. -/
def Die.takeGrant (d : Die) : Die :=
  let d := { d with red := { d.red with grant := true, tk := .duty, tkCyc := d.red.silentAt } }
  let d := ((d.log .warn uidInterlock 0xE2).redCount 2).bindStandby
  let d := { d with kept := none, regions := vmap d.regions fun _ r => { r with noSolve := true } }
  let d := d.usedRoles.foldl (fun d r => d.skipJudgement r) d
  (d.canTakeover.encTake).judgeAllLate

/-- REDUNDANCY_DEGRADED is set; the holder writes its record once until fitness returns (R487). -/
def Die.setDegraded (cause : BitVec 3) (d : Die) : Die :=
  let was := d.red.degraded
  let d := { d with red := { d.red with degraded := true, cause := cause } }
  d.logOnce (was || !d.red.grant) .degrade uidInterlock 0xE4

/-- A takeover is abandoned: the shadow state is discarded (R477), and no unit is in a takeover any more (R465). -/
def Die.abandon (d : Die) : Die :=
  let d := d.red.takes.foldl (fun d t =>
    (d.updUnit 0 t.toEng fun u => { u with inTakeover := false }).updUnit 0 t.fromEng fun u => { u with inTakeover := false })
    d.unbindAll
  let d := match d.kept with
    | some k => { d with kept := none, joints := k.joints, regions := k.regions, axes := d.keepPins k.axes }
    | none => d
  let d := { d with
    red := { d.red with tk := .standby, handoverRx := none, takes := [] }
    qrc := { d.qrc with queues := vmap d.qrc.queues fun _ q => if q.used then q.restart else q } }
  ((d.log .warn uidInterlock 0xE8).redCount 3).setDegraded 2

/-- The die stands at a check point (R477): 1,000 ns before the start of a cycle from d + 2 on. -/
def Die.atCheckPoint (d : Die) : Bool :=
  d.red.tk = .shadow && decide (1 ≤ diff32 d.time.cyc d.red.silentAt) && decide (d.img.cell.tc ≤ d.sinceStart + 1000)

/-- The grant may move to this die: the other's ENOFF is asserted and its grant line is not, the confirm is
there where it is required, and boundary scan does not hold the interlock (R473, R477, R481, R533). -/
def Die.mayTake (d peer : Die) : Bool :=
  !peer.red.gateOpen && !peer.red.grant && d.confirmOk peer && !d.scanBlocks peer

/-- A check point takes the grant: no heartbeat since d, and the grant may move. -/
def Die.checkTakes (d peer : Die) : Bool := d.atCheckPoint && !d.red.hbSince && d.mayTake peer

/-- A check point that does not take the grant (R477, R481). -/
def Die.checkStays (peer d : Die) : Die :=
  if !d.atCheckPoint || !peer.red.gateOpen then d
  else if !d.red.hbSince && d.red.handoverRx = some d.red.silentAt then { d with red := { d.red with tk := .waitoff } }
  else d.abandon

/-- ENOFF comes in WAITOFF before the start of k less 100 ns (R477, R482). -/
def Die.waitoffTakes (d peer : Die) : Bool :=
  d.red.tk = .waitoff && d.mayTake peer && decide (d.sinceStart + 100 < d.img.cell.tc)

/-- WAITOFF_TIMEOUT (R477): another shadow cycle. -/
def Die.waitoffTimeout (d : Die) : Die :=
  if d.red.tk = .waitoff && decide (d.img.cell.tc ≤ d.sinceStart + 100) then
    { d with red := { d.red with tk := .shadow } }
  else d

/-! The standby's copies (R384, R466, R467, R577, R603) -/

/-- CAIRN_STREAM_RX (R466): the oldest cairn on the link arrives, its bytes changed by `err`; an accepted
one brings the state of a library program with it (R650). -/
def Die.cairnRx (role : Nat) (buf : List Byte) (law : CairnState) (err : List Byte) (d : Die) : Die :=
  let b := buf.zipIdx.map fun (p : Byte × Nat) => p.1 ^^^ ((err[p.2]?).getD 0)
  let len := fieldAt b 6 2
  let rec' := sliceBytes b 0x10 len
  let gap := (d.red.cairnGap[role]?).getD false
  if len + 0x10 ≤ b.length && crc32c rec' = BitVec.ofNat 32 (fieldAt b 8 4) then
    let k := !((d.cairnSel[role]?).getD false)
    { d with
      sram := d.sram.write 0 (cairnBase role k) b
      cairnSel := d.cairnSel.setIfInBounds role k
      cairnState := d.cairnState.setIfInBounds role law
      red := { d.red with cairnCyc := d.red.cairnCyc.setIfInBounds role (some (BitVec.ofNat 32 (fieldAt b 0 4))),
                          cairnGap := d.red.cairnGap.setIfInBounds role false } }
  else
    let d := ({ d with red := { d.red with cairnGap := d.red.cairnGap.setIfInBounds role true } }).redCount 4
    d.logOnce gap .warn (d.uid 0 role) 0xEA

def State.cairnStreamRx (id : DieId) (err : List Byte) (s : State) : State :=
  let d := s.die id
  let p := s.die id.peer
  match p.red.cairnTx with
  | [] => s
  | (role, buf, law) :: rest =>
    let s := s.put id.peer { p with red := { p.red with cairnTx := rest } }
    if d.red.linkUp && !d.red.grant then s.upd id (Die.cairnRx role buf law err) else s

/-- Bytes of the other die's SRAM copied to the same place. -/
def Die.copySram (a n : Nat) (d peer : Die) : Die := { d with sram := d.sram.write 0 a (peer.sram.read 0 a n) }

/-- The warm vectors of a region: slots 8 to 10 and their exponents (R65). -/
def Die.copyWarm (w : Nat) (d peer : Die) : Die :=
  (d.copySram (storeBase w + 0x3E4000 + 8 * 4096) (3 * 4096) peer).copySram (storeBase w + 0x3F1000 + 8) 3 peer

/-- PLAN_STREAM_RX (R467): the standby keeps the plan set of a region, with the applied scale and the plan time. -/
def Die.planStreamRx (w : Nat) (peer d : Die) : Die :=
  if d.red.grant || !d.red.linkUp || !peer.red.grant then d
  else
    let p := peer.region w
    let d := d.copySram (storeBase w + 0x3F4000 + (if p.nextBuf then 0 else 0x1000)) 0x1000 peer
    let d := if p.warmWritten then d.copyWarm w peer else d
    let g := peer.sepRegion w
    let keep (x : SepRegion) : SepRegion := { x with applied := g.applied, prev := g.prev, tau := g.tau }
    let d := { d with sep := { d.sep with regions := vmap d.sep.regions fun i x => if i = w then keep x else x } }
    d.updRegion w fun r =>
      let r := { r with plan := p.plan, period := p.period, tauJ := p.tauJ, tj := p.tj, published := p.published,
                        nextBuf := p.nextBuf, missConsec := p.missConsec, sampled := p.sampled,
                        state := if r.state = .off then r.state else if p.state = .armed || p.state = .solving then .idle else p.state }
      if p.warmWritten then
        { r with warmWritten := true, warmPeriod := p.warmPeriod, warmSig := p.warmSig, warmSquashed := p.warmSquashed }
      else r

/-- The lane state that the duty die forwards (R384). -/
def Lane.forward (src dst : Lane) : Lane :=
  { src with lastSof := dst.lastSof, lastEof := dst.lastEof, waiting := none, taken := [], rxHeld := [], sent := [], tx := none,
             follows := dst.follows }

/-- A joint as the duty die forwards it (R577, R650): its registers, modes, requests and generator. What the
cairn of a library program holds comes with the cairn, and a joint of an author's program has none of it
in the cluster. -/
def Joint.forward (p x : Joint) : Joint :=
  { p with cfg := x.cfg, fbPos := x.fbPos, fbVel := x.fbVel, fbCur := x.fbCur, fresh := x.fresh, ran := x.ran,
           lost := x.lost, pred := x.pred, law := x.law,
           blend := p.blend.map fun b => { b with law := (x.blend.map fun o => o.law).getD {} } }

/-- FORWARD_STATE_RX (R142, R384, R467, R577): the standby adopts what the duty die forwards at a
boundary: modes, sources, requests and generators of the joints with the records of their service,
region scales and plan times, lane state, CAN selects and the selects of Solve, Homing and Failover. -/
def Die.forwardRx (peer d : Die) : Die :=
  if d.red.grant || !d.red.linkUp || !peer.red.grant then d
  else
    { d with
      joints := vmap d.joints fun j x => if x.used then Joint.forward (peer.jnt j) x else x
      regions := vmap d.regions fun w x => { x with regs := { x.regs with hostReq := (peer.region w).regs.hostReq } }
      sep := { d.sep with regions := vmap d.sep.regions fun w x =>
        let p := peer.sepRegion w
        { x with target := p.target, applied := p.applied, prev := p.prev, tau := p.tau } }
      lanes := vmap d.lanes fun l x => (peer.lane l).forward x
      cans := vmap d.cans fun n x => { (Can.mirror (peer.can n) x) with direct := (peer.can n).direct }
      axes := vmap d.axes fun a x => 
        let p := peer.axis a
        { x with regs := { x.regs with hostStep := p.regs.hostStep }, stop := p.stop, homeStart := p.homeStart, edge := p.edge }
      red := { d.red with confirmReq := peer.red.confirmReq, confirmMode := peer.red.confirmMode } }

/-- PEER_RECORD_RX (R603): the duty die logs the oldest record the standby has forwarded. -/
def State.peerRecordRx (id : DieId) (s : State) : State :=
  let p := s.die id.peer
  match p.err.forward with
  | [] => s
  | r :: rest =>
    if (s.die id).red.grant && (s.die id).red.linkUp then
      (s.put id.peer { p with err := { p.err with forward := rest } }).upd id (Die.enterRec { r with peer := true })
    else s

/-! The link and fitness (R487) -/

/-- The causes of R487 in the order of DEGR_CAUSE, as seen by the standby `d` against the holder. -/
def Die.unfitCause (d peer : Die) : Nat :=
  let age := (d.time.cyc - d.red.dieHealth).toNat * d.img.cell.tc
  if !d.red.rotationOk || 12 * 10 ^ 9 < age then 1
  else if !d.red.linkUp then 2
  else if (peer.usedRoles.filter fun r => (peer.holder r).any fun e => (peer.unit 0 e).state = .active).any fun r =>
      match (d.red.cairnCyc[r]?).getD none with | none => true | some c => 4 < (d.time.cyc - c).toNat then 3
  else if d.red.hbSig ≠ d.imgSig then 4
  else if 16 < (diff32 peer.time.ns d.time.ns).natAbs then 5
  else if d.boot.minimal then 6
  else 0

/-- The cause in force: a standby that is not there at all is 7. -/
def degradeCause (duty standby : Die) : Nat :=
  if standby.red.latched || standby.boot.phase ≠ .complete then (if standby.boot.minimal then 6 else 7)
  else standby.unfitCause duty

/-- REDUNDANCY_DEGRADED on one die by a cause. -/
def Die.judgeDegraded (cause : Nat) (d : Die) : Die :=
  if cause = 0 then { d with red := { d.red with degraded := false, cause := 0 } }
  else d.setDegraded (BitVec.ofNat 3 cause)

/-- Both dies judge fitness, at the end of a cell cycle or when the link changes (R487). -/
def State.judgeFitness (s : State) : State :=
  match s.holder with
  | none => s
  | some h =>
    let cause := degradeCause (s.die h) (s.die h.peer)
    let s := s.both (Die.judgeDegraded cause)
    (s.upd h fun d => { d with red := { d.red with fit := false } }).upd h.peer fun d =>
      { d with red := { d.red with fit := decide (cause = 0) } }

/-- D2D_LINK_DOWN (R487): the fitness of the last cycle's end stays what a silence judges. -/
def State.linkDown (s : State) : State :=
  let s := s.both fun d => { d with red := { d.red with linkUp := false, cairnTx := [] } }
  if s.holder.isSome then s.both (Die.setDegraded 2) else s

/-- D2D_LINK_UP: the link domain is ON on both dies. -/
def State.linkUp (s : State) : State :=
  if s.a.awake domD2d && s.b.awake domD2d then
    s.both fun d => { d with red := { d.red with linkUp := true } }
  else s

/-! Unit commands across the dies (R37, R465, R488) -/

/-- The kinds that have a unit state (R459). -/
def hasUnitState (kind : Nat) : Bool := kind ≤ 10 || kind = 13 || kind = 15

/-- A RED_UNIT_CMD on a block of the package, by the table of R460; none: refused. -/
def UnitRec.command (act : UnitAction) (u : UnitRec) : Option UnitRec :=
  match act, u.state with
  | .test, .standby => some { u with state := .selftest }
  | .release, .quarantined => some { u with state := .reset, faultCnt := 0 }
  | .quarantine, .off => none
  | .quarantine, _ => some { u with state := .quarantined }
  | _, _ => none

/-- A RED_UNIT_CMD on the unit of RED_UNIT_SEL. -/
def State.redUnitCmd (id : DieId) (act : UnitAction) (s : State) : State :=
  let u := (s.die id).red.sel
  let kind := bits u 13 10
  let idx := bits u 9 0
  let die : DieId := if bits u 15 14 = 0 then .a else .b
  if u = uidNone then s.upd id Die.refuse
  else if !validUid u then s.upd id (Die.endAccess .badUid)
  else if !hasUnitState kind then s.upd id Die.refuse
  else if bits u 15 14 = 2 then
    match ((s.pkg.units[idx]?).getD {}).command act with
    | none => s.upd id Die.refuse
    | some r => { s.upd id Die.accept with pkg := { s.pkg with units := s.pkg.units.setIfInBounds idx r } }
  else if die = id then s.upd id (Die.unitCmd act kind idx)
  else if !(s.die id).red.linkUp then s.upd id Die.refuse
  else
    let s := s.upd die (Die.unitCmd act kind idx)
    s.upd id (Die.endAccess (s.die die).host.access)

end Sys2Proof.Machine
end

