-- ==== Sys2Proof/Machine/Safe.lean ====
section
/-! DEFINITION. Safety inputs and outputs (R605-R607). -/

namespace Sys2Proof.Machine

def Die.safeIn (d : Die) (k : Fin 4) : SafeIn := vget d.safe.inputs k

def Die.updSafe (k : Fin 4) (f : SafeIn → SafeIn) (d : Die) : Die :=
  { d with safe := { d.safe with inputs := vupd d.safe.inputs k f } }

/-- Bits set in a mask of arms. -/
def armList (m : W16) : List Nat := (List.range 16).filter fun a => bit m a

/-- The stop of an input acts, with its INFO record. -/
def Die.safeStop (k : Fin 4) (d : Die) : Die :=
  let x := d.safeIn k
  (d.log .info uidSafety 0x09).stopArms x.stop.toNat (armList x.arms)

/-- A request enters WAIT with its stop, and STOP in the same sample when both channels ask (R605, R608). -/
def Die.safeRequest (k : Fin 4) (a b : Bool) (d : Die) : Die :=
  (d.safeStop k).updSafe k fun x => { x with state := if a || b then .wait else .stop, waitA := !a, waitAt := d.real }

/-- The pins of an input take levels; an unused ball reads as a stop request (R623, R627). -/
def Die.safePins (k : Fin 4) (a b : Bool) (d : Die) : Die :=
  let put (i : Nat) (v : Bool) (s : Safety) : Safety :=
    if bit s.pins i = v then s
    else { s with pins := s.pins ^^^ BitVec.ofNat 8 (2 ^ i), pinAt := s.pinAt.setIfInBounds i d.real }
  { d with safe := put (2 * k.val + 1) (b && d.ballUsed (.safeIn k true))
                     (put (2 * k.val) (a && d.ballUsed (.safeIn k false)) d.safe) }

/-- The output of the 500 µs filter of a channel: the pin's level once it has stood so long. -/
def Die.safeFilter (d : Die) (i : Nat) (was : Bool) : Bool :=
  if 125000 ≤ d.real - (d.safe.pinAt[i]?).getD 0 then bit d.safe.pins i else was

/-- SAFE_IN_SAMPLE (R605): the filtered levels of the two channels are judged; high permits motion. -/
def Die.safeSample (k : Fin 4) (d : Die) : Die :=
  let a := d.safeFilter (2 * k.val) (d.safeIn k).filA
  let b := d.safeFilter (2 * k.val + 1) (d.safeIn k).filB
  let d := d.updSafe k fun x => { x with filA := a, filB := b }
  let x := d.safeIn k
  if !x.en || !d.awake domSafe then d
  else
    match x.state with
    | .load | .latched =>
      if a && b then d.updSafe k fun x => { x with state := .latched } else d.safeRequest k a b
    | .clear => if a && b then d else d.safeRequest k a b
    | .wait => if (if x.waitA then b else a) then d else d.updSafe k fun x => { x with state := .stop }
    | .stop | .disc => if a && b then d.updSafe k fun x => { x with state := .latched } else d

/-- SAFE_DISC_TIMEOUT (R605, R607): the DISC_MS timer of an input in WAIT expires. -/
def Die.safeDiscTimeout (k : Fin 4) (d : Die) : Die :=
  if (d.safeIn k).en && (d.safeIn k).state = .wait then
    let d := (d.updSafe k fun x => { x with state := .disc }).log .stop uidSafety 0x0A
    { d with err := { d.err with foghorn := true } }
  else d

/-- SAFE_ACK: SAFE_CTRL.ACK of the inputs in a mask; refused for one that is not LATCHED (R605). -/
def Die.safeAck (mask : BitVec 4) (d : Die) : Die :=
  (List.finRange 4).foldl (fun d (k : Fin 4) =>
    if !bit mask k.val then d
    else if (d.safeIn k).state = .latched then d.updSafe k fun x => { x with state := .clear }
    else d.refuse) d.accept

/-- SAFE_OUT_MISMATCH: the two copies differ for a CLK_PER cycle, or are found equal again
(R606, R607). -/
def Die.safeMismatch (differ : Bool) (d : Die) : Die :=
  let was := d.safe.mismatch
  let d := { d with safe := { d.safe with mismatch := differ } }
  if differ && !was then
    let d := d.log .stop uidSafety 0x0B
    ({ d with err := { d.err with foghorn := true } }).stopArms 2 d.usedArms
  else d

/-- The level the holder drives on `SAFE_OUT_A` and `SAFE_OUT_B` (R606). -/
def Die.motionPermitted (d : Die) : Bool :=
  d.safe.inputs.toList.all (fun x => !x.en || x.state = .clear) && d.sep.state = .run && !d.err.fatalOwn &&
    !d.safe.mismatch

/-- SAFE_OUT_STAT and SAFE_IN_STAT codes: the entry state reads STOP (R605, R610). -/
def SafeState.code : SafeState → Nat
  | .clear => 0 | .wait => 1 | .stop => 2 | .load => 2 | .disc => 3 | .latched => 4

end Sys2Proof.Machine
end

