-- ==== Sys2Proof/Machine/Geom.lean ====
section
/-! DEFINITION. Geometry of the separation monitor: frames, capsules, closest points, approach
(R113-R118, R651). Sines, cosines and frames are held to 48 fraction bits; the end points of a posed
capsule and their velocities are Q15.16 (R113), to nearest (DESIGN CHOICE, log entry 38). -/

namespace Sys2Proof.Machine

/-- A vector of exact numbers. -/
abbrev V3 := Rat × Rat × Rat

def vadd (a b : V3) : V3 := (a.1 + b.1, a.2.1 + b.2.1, a.2.2 + b.2.2)
def vsub (a b : V3) : V3 := (a.1 - b.1, a.2.1 - b.2.1, a.2.2 - b.2.2)
def vscale (k : Rat) (a : V3) : V3 := (k * a.1, k * a.2.1, k * a.2.2)
def dot (a b : V3) : Rat := a.1 * b.1 + a.2.1 * b.2.1 + a.2.2 * b.2.2
def cross (a b : V3) : V3 :=
  (a.2.1 * b.2.2 - a.2.2 * b.2.1, a.2.2 * b.1 - a.1 * b.2.2, a.1 * b.2.1 - a.2.1 * b.1)
def P3.v (p : P3) : V3 := (qv 16 p.x, qv 16 p.y, qv 16 p.z)

/-- An exact number held to 48 fraction bits. -/
def hold48 (r : Rat) : Rat := qv 48 (toQ 48 r)

/-- π to 2^-64. -/
def piRat : Rat := mkRat 57952155664616982739 (2 ^ 64)

/-- An angle brought into [-π, π]. -/
def reduceAngle (a : Rat) : Rat := a - (ratRound (a / (2 * piRat)) : Rat) * (2 * piRat)

/-- sin x = x - x^3/3! + ...: the term of order n and the sum of the rest. -/
def taylor (x2 : Rat) : Nat → Rat → Nat → Rat
  | 0, _, _ => 0
  | f + 1, term, n => term + taylor x2 f (hold80 (-(term * x2) / (((n + 1) * (n + 2) : Nat) : Rat))) (n + 2)
where
  hold80 (r : Rat) : Rat := qv 80 (toQ 80 r)

def sinRat (a : Rat) : Rat := let x := reduceAngle a; hold48 (taylor (x * x) 24 x 1)
def cosRat (a : Rat) : Rat := let x := reduceAngle a; hold48 (taylor (x * x) 24 1 0)

/-- A frame: origin and the three axes. -/
structure Frame where
  o : V3
  x : V3
  y : V3
  z : V3

def Frame.vec (f : Frame) (p : V3) : V3 :=
  vadd (vscale p.1 f.x) (vadd (vscale p.2.1 f.y) (vscale p.2.2 f.z))
def Frame.point (f : Frame) (p : V3) : V3 := vadd f.o (f.vec p)

def hold3 (v : V3) : V3 := (hold48 v.1, hold48 v.2.1, hold48 v.2.2)

/-- A coordinate or velocity held in a 32-bit word of Q15.16 (R113). -/
def hold16 (r : Rat) : Rat := qv 16 (toWord 16 r).toInt
def hold163 (v : V3) : V3 := (hold16 v.1, hold16 v.2.1, hold16 v.2.2)

/-- The axes that a unit quaternion rotates to. -/
def Quat.axes (q : Quat) : V3 × V3 × V3 :=
  let w := qv 30 q.w; let x := qv 30 q.x; let y := qv 30 q.y; let z := qv 30 q.z
  ((1 - 2 * (y * y + z * z), 2 * (x * y + w * z), 2 * (x * z - w * y)),
   (2 * (x * y - w * z), 1 - 2 * (x * x + z * z), 2 * (y * z + w * x)),
   (2 * (x * z + w * y), 2 * (y * z - w * x), 1 - 2 * (x * x + y * y)))

/-- A frame moved by a translation and a rotation given in it (R115). -/
def Frame.child (f : Frame) (t : V3) (q : Quat) : Frame :=
  let a := q.axes
  { o := hold3 (f.point t), x := hold3 (f.vec a.1), y := hold3 (f.vec a.2.1), z := hold3 (f.vec a.2.2) }

/-- The joint motion about or along z (R115). -/
def Frame.move (f : Frame) (prismatic : Bool) (q : Rat) : Frame :=
  if prismatic then { f with o := hold3 (vadd f.o (vscale q f.z)) }
  else
    let c := cosRat q
    let s := sinRat q
    { f with x := hold3 (vadd (vscale c f.x) (vscale s f.y)),
             y := hold3 (vsub (vscale c f.y) (vscale s f.x)) }

/-- A joint of a posed arm: axis point and axis before its motion, kind, and the link frame (R115). -/
structure PosedJoint where
  joint : Nat
  o : V3
  z : V3
  prismatic : Bool
  frame : Frame

/-- Forward kinematics (R115, R116); `q` gives joint positions in rad or mm. -/
def poseArm (a : ArmDecl) (q : Nat → Rat) : List PosedJoint :=
  let base : Frame := ({ o := (0, 0, 0), x := (1, 0, 0), y := (0, 1, 0), z := (0, 0, 1) } : Frame).child
    a.baseTrans.v a.baseRot
  (a.links.foldl (fun (s : Frame × List PosedJoint) l =>
    let f := s.1.child l.trans.v l.rot
    let g := f.move l.prismatic (q l.joint)
    (g, s.2 ++ [{ joint := l.joint, o := f.o, z := f.z, prismatic := l.prismatic, frame := g }])) (base, [])).2

/-- J_m(e) of R116. -/
def PosedJoint.jac (p : PosedJoint) (e : V3) : V3 := if p.prismatic then p.z else cross p.z (vsub e p.o)

/-- A posed link capsule: number, chain position, end points and radius. -/
structure PosedCap where
  idx : Nat
  link : Nat
  a : V3
  b : V3
  r : Rat

def poseCaps (arm : ArmDecl) (js : List PosedJoint) : List PosedCap :=
  arm.caps.zipIdx.filterMap fun p =>
    match js[p.1.1]? with
    | none => none
    | some j => some { idx := p.2, link := p.1.1, a := hold163 (j.frame.point p.1.2.a.v),
                       b := hold163 (j.frame.point p.1.2.b.v),
                       r := qv 16 p.1.2.r }

/-- v_e of R116 over the joints up to a link, for a choice of joint rates. -/
def endVel (js : List PosedJoint) (link : Nat) (rate : Nat → Rat) (e : V3) : V3 :=
  hold163 ((js.take (link + 1)).foldl (fun v j => vadd v (vscale (rate j.joint) (j.jac e))) (0, 0, 0))

/-- The velocity at parameter `s` (R117). -/
def capVel (js : List PosedJoint) (c : PosedCap) (rate : Nat → Rat) (s : Rat) : V3 :=
  vadd (vscale (1 - s) (endVel js c.link rate c.a)) (vscale s (endVel js c.link rate c.b))

/-- The point at parameter `s`. -/
def lerp (a b : V3) (s : Rat) : V3 := vadd a (vscale s (vsub b a))

def clamp01 (r : Rat) : Rat := ratMax 0 (ratMin 1 r)

/-- Parameter on the other segment closest to the point at `s` of the first. -/
def otherParam (a1 b1 a2 b2 : V3) (s : Rat) : Rat :=
  let v := vsub b2 a2
  let c := dot v v
  if c = 0 then 0 else clamp01 (dot (vsub (lerp a1 b1 s) a2) v / c)

/-- Squared distance between the point at `s` and the other segment. -/
def sqDist (a1 b1 a2 b2 : V3) (s : Rat) : Rat :=
  let d := vsub (lerp a2 b2 (otherParam a1 b1 a2 b2 s)) (lerp a1 b1 s)
  dot d d

/-- The ends of the interval of closest points along the first segment (R651), lower first. -/
def closestEnds (a1 b1 a2 b2 : V3) : Rat × Rat :=
  let u := vsub b1 a1; let v := vsub b2 a2; let w := vsub a1 a2
  let a := dot u u; let b := dot u v; let c := dot v v; let dd := dot u w; let e := dot v w
  let q (n m : Rat) : List Rat := if m = 0 then [] else [clamp01 (n / m)]
  let cand := [0, 1] ++ q (-dd) a ++ q (b - dd) a ++ q (b * e - c * dd) (a * c - b * b) ++ q (-e) b ++ q (c - e) b
  let best := cand.foldl (fun m s => ratMin m (sqDist a1 b1 a2 b2 s)) (sqDist a1 b1 a2 b2 0)
  let at' := cand.filter fun s => sqDist a1 b1 a2 b2 s = best
  (at'.foldl ratMin 1, at'.foldl ratMax 0)

/-- floor and ceiling of a square root in Q15.16 of a non-negative number. -/
def sqrtDown16 (r : Rat) : Int := (isqrt (r * (2 ^ 32 : Nat)).floor.toNat : Nat)
def sqrtUp16 (r : Rat) : Int :=
  let x := (r * (2 ^ 32 : Nat)).ceil.toNat
  let s := isqrt x
  if s * s = x then s else s + 1

/-- x / √g in Q15.16, rounded toward +∞ (R118). -/
def overRootUp (x g : Rat) : Int := if 0 ≤ x then sqrtUp16 (x * x / g) else -(sqrtDown16 (x * x / g))

/-- An exact number rounded toward +∞ in Q15.16. -/
def ceil16 (r : Rat) : Int := (r * (65536 : Nat)).ceil

/-- n · v toward the other point, or the norm of v where the points meet (R116, R122). -/
def approach (diff : V3) (v : V3) : Int :=
  let g := dot diff diff
  if g = 0 then sqrtUp16 (dot v v) else overRootUp (dot diff v) g

end Sys2Proof.Machine
end

