-- ==== Sys2Proof/Machine/Sep.lean ====
section
/-! DEFINITION. Speed and separation monitoring (chapter 04). -/

namespace Sys2Proof.Machine

/-- The monitor as a whole (R148). -/
def Die.uidSep (d : Die) : W16 := d.uid 15 8

def Sep.arm (s : Sep) (a : Nat) : SepArm := (s.arms[a]?).getD {}
def Sep.sensor (s : Sep) (k : Nat) : Sensor := (s.sensors[k]?).getD {}

def Die.updSep (f : Sep → Sep) (d : Die) : Die := { d with sep := f d.sep }
def Die.updSepArm (a : Nat) (f : SepArm → SepArm) (d : Die) : Die :=
  d.updSep fun s => { s with arms := s.arms.setIfInBounds a (f (s.arm a)) }
def Die.updSepRegion (w : Nat) (f : SepRegion → SepRegion) (d : Die) : Die :=
  d.updSep fun s => { s with regions := s.regions.setIfInBounds w (f ((s.regions[w]?).getD {})) }
def Die.updSensor (k : Nat) (f : Sensor → Sensor) (d : Die) : Die :=
  d.updSep fun s => { s with sensors := s.sensors.setIfInBounds k (f (s.sensor k)) }
def Sep.count (i : Fin 6) (s : Sep) : Sep := { s with cnt := vupd s.cnt i satInc }

def GeomSec.arm (g : GeomSec) (a : Nat) : Option ArmDecl := g.arms.find? (·.arm = a)
def GeomSec.region (g : GeomSec) (w : Nat) : SepRegionDecl :=
  (g.regions.find? (·.region = w)).getD { region := w, tS := 0, tRise := 0, rowsPp := 0, vars := [] }
def GeomSec.sensor (g : GeomSec) (k : Nat) : Option SensorDecl := g.sensors.find? (·.sensor = k)

/-! Scales and plan time (R124, R125) -/

/-- down and up of R124 in U1.15 per cycle. -/
def scaleDown (tc tSms : Nat) : Nat := (32768 * tc + tSms * 1000000 - 1) / max 1 (tSms * 1000000)
def scaleUp (tc tRise : Nat) : Nat := max 1 (32768 * tc / max 1 (tRise * 1000000))

/-- APPLIED_SCALE_UPDATE of one region. -/
def nextScale (s target : Nat) (down up : Nat) : Nat :=
  if target < s then max target (s - down) else min target (s + up)

/-- PLAN_TIME_ADVANCE and APPLIED_SCALE_UPDATE of a region at a boundary: τ moves on by s·T_c of the
cycle that ends, then s is fixed for the cycle that starts. -/
def Die.scaleBoundary (w : Nat) (d : Die) : Die :=
  let g := d.sep.geom.region w
  let tc := d.img.cell.tc
  d.updSepRegion w fun r =>
    { r with tau := (r.tau + 2 * r.applied.toNat * tc) % 2 ^ 48, prev := r.applied,
             applied := BitVec.ofNat 16 (nextScale r.applied.toNat r.target.toNat (scaleDown tc g.tS) (scaleUp tc g.tRise)) }

/-- The scale of the region changes at this boundary (R127, R195). -/
def Die.scaleChanged (d : Die) (w : Nat) : Bool := (d.sepRegion w).applied ≠ (d.sepRegion w).prev

/-! Sensors (R138-R142) -/

/-- Every used sensor is ABSENT after a load (R137, R140). -/
def Sep.startSensors (s : Sep) : Sep :=
  { s with sensors := vmap s.sensors fun k x =>
      if (s.geom.sensor k).isSome then { x with state := .absent, unhealthyDone := false, frame := none, healthy := false }
      else { x with state := .unused } }

/-- The sensors meet a new geometry (R140, R507): one that it adds starts in ABSENT, one that it takes away is
UNUSED, the others go on. -/
def Sep.matchSensors (s : Sep) : Sep :=
  { s with sensors := vmap s.sensors fun k x =>
      if !(s.geom.sensor k).isSome then { x with state := .unused, frame := none, healthy := false }
      else if x.state = .unused then { x with state := .absent, unhealthyDone := false, frame := none, healthy := false }
      else x }

/-- The monitor starts: image in force and SEP ON (R124, R137); its first targets are still to come. -/
def Die.sepStart (d : Die) : Die :=
  if d.sep.state = .off && d.awake domSep && !d.img.isEmpty then
    d.updSep fun s =>
      { s.startSensors with state := .run, phaseS := false, phaseR := false,
                            regions := vmap s.regions fun _ r => { r with target := 0, applied := 0, prev := 0 } }
  else d

/-- The sensor's frame is counted as of one failed check (R139). -/
def Die.countAuth (k : Nat) (d : Die) : Die := d.updSensor k fun s => { s with cntAuth := satInc s.cntAuth }
def Die.countOld (k : Nat) (d : Die) : Die := d.updSensor k fun s => { s with cntOld := satInc s.cntOld }

/-- Checks 4 and 5 of R139. -/
def Die.frameTimely (d : Die) (k : Nat) (seq ts : W32) : Bool :=
  let s := d.sep.sensor k
  let age := diff32 d.time.ns ts
  let maxAge := ((d.sep.geom.sensor k).map (·.maxAge)).getD 0
  (!s.seqSeen || (decide (1 ≤ (seq - s.lastSeq).toNat) && decide ((seq - s.lastSeq).toNat < 2 ^ 31))) &&
    decide (-1000 ≤ age) && decide (age ≤ maxAge)

/-- The points of a payload. -/
def payloadPts (p : List Byte) (n : Nat) : List P3 :=
  (List.range n).map fun i =>
    let w (o : Nat) : Int := (BitVec.ofNat 32 (fieldAt p (16 + 12 * i + o) 4)).toInt
    ⟨w 0, w 4, w 8⟩

/-- An accepted frame (R140). The SENS_UNHEALTHY record of an exit from FRESH counts as the one written since
that exit (DESIGN CHOICE, log entry 37). -/
def Die.acceptFrame (k : Nat) (p : List Byte) (d : Die) : Die :=
  let healthy := fieldAt p 3 1 % 2 = 1
  let s := d.sep.sensor k
  let fr : SensFrame := { ts := BitVec.ofNat 32 (fieldAt p 8 4), zones := BitVec.ofNat 32 (fieldAt p 12 4),
                          pts := payloadPts p (fieldAt p 2 1) }
  let d := d.updSensor k fun s =>
    { s with lastSeq := BitVec.ofNat 32 (fieldAt p 4 4), seqSeen := true, frame := some fr, healthy := healthy }
  if healthy then d.updSensor k fun s => { s with state := .fresh }
  else if s.state = .fresh then
    (d.updSensor k fun s => { s with state := .absent, unhealthyDone := true }).log .warn d.uidSep 0x54
  else if s.unhealthyDone then d
  else (d.updSensor k fun s => { s with unhealthyDone := true }).log .warn d.uidSep 0x54

/-- SENSOR_FRAME (R139): a payload received at a time port of the die. -/
def Die.sensorFrame (p : List Byte) (d : Die) : Die :=
  let k := fieldAt p 1 1
  if p.length < 2 ∨ 15 < k then d.updSep fun s => { s with cntSensBad := satInc s.cntSensBad }
  else
    let n := fieldAt p 2 1
    let body := p.take (16 + 12 * n)
    let tagOk := match (d.sep.sensor k).key with
      | none => false
      | some key => decide (aesCmac key body = p.drop (16 + 12 * n))
    if p.length ≠ 32 + 12 * n ∨ fieldAt p 0 1 ≠ 1 ∨ 16 < n ∨ (d.sep.sensor k).state = .unused ∨ !tagOk then
      d.countAuth k
    else if d.frameTimely k (BitVec.ofNat 32 (fieldAt p 4 4)) (BitVec.ofNat 32 (fieldAt p 8 4)) then
      d.acceptFrame k p
    else d.countOld k

/-- SENSOR_STALE (R140): the newest frame of a FRESH sensor exceeds MAXAGE. -/
def Die.sensorStale (k : Nat) (d : Die) : Die :=
  let s := d.sep.sensor k
  match s.frame, d.sep.geom.sensor k with
  | some f, some g =>
    if s.state = .fresh && decide ((g.maxAge : Int) < diff32 d.time.ns f.ts) then
      (d.updSensor k fun s => { s with state := .absent, unhealthyDone := false }).log .warn d.uidSep 0x53
    else d
  | _, _ => d

/-- SENSOR_KEY_LOAD (R140, R143): word 3 of SEP_SENS_KEY. -/
def Die.sensorKey (k : Nat) (w : W32) (d : Die) : Die :=
  d.updSensor k fun s =>
    let words := s.keyWords.set 3 w
    { s with keyWords := words, key := some (words.toList.flatMap fun v => leBytes 4 v.toNat),
             state := if s.state = .unused then .unused else .absent,
             unhealthyDone := s.unhealthyDone && s.state ≠ .fresh }

/-! The monitor period (R39, R115, R141) -/

/-- MONITOR_PERIOD_SAMPLE. -/
def Die.monitorPeriod (d : Die) : Die :=
  if d.sep.state = .off || !d.red.grant then d
  else
    let js := (List.range 128).filter fun j => (d.jnt j).used
    let freshOf (k : Nat) : Option SensFrame :=
      let s := d.sep.sensor k
      if s.state = .fresh then s.frame else none
    let occ := (d.sep.geom.zones.filter fun z => z.sensors.any fun k =>
      (d.sep.sensor k).state = .absent ||
        (match freshOf k with | some f => bit f.zones z.zone | none => false)).map (·.zone)
    d.updSep fun s =>
      { s with sampleCyc := d.time.cyc, sample := js.map d.sepSample, phaseS := true, phaseR := true,
               points := (List.range 16).filterMap (fun k => (freshOf k).map fun f => (k, f.pts)),
               occupied := occ }

/-! Phase S: pairs and bounds (R119-R123) -/

/-- One evaluated pair of an arm: kind, index, d, v_r1 of the parts that slow with the scale, v_rb. -/
structure PairRes where
  kind : Nat
  idx : Nat
  d : Int
  bound : Nat

/-- A posed arm with the rates of its joints. -/
structure ArmPose where
  decl : ArmDecl
  joints : List PosedJoint
  caps : List PosedCap
  /-- Rates of all joints, of the braking ones, and of the others, by joint number. -/
  rate : Nat → Rat
  brake : Nat → Rat
  other : Nat → Rat
  braking : Bool
  /-- T_b in seconds. -/
  tb : Rat

def Die.armPose (d : Die) (a : ArmDecl) : ArmPose :=
  let smp (j : Nat) : SepSample := (d.sep.sample.find? (·.joint = j)).getD
    { joint := j, q := 0, dq1 := 0, braking := false, tb := 0 }
  let js := poseArm a fun j => qv 20 (smp j).q
  let rate (j : Nat) : Rat := qv 20 (smp j).dq1
  let mine := a.links.map (·.joint)
  { decl := a, joints := js, caps := poseCaps a js, rate := rate,
    brake := fun j => if (smp j).braking then rate j else 0,
    other := fun j => if (smp j).braking then 0 else rate j,
    braking := mine.any fun j => (smp j).braking,
    tb := mkRat (mine.foldl (fun m j => if (smp j).braking then max m (smp j).tb else m) 0) 1000000000 }

/-- v_r1 (or its part that slows with the scale) and v_rb at the chosen end of the interval, and the
distance along the segments (R122, R651). `sgn`: -1 looks along -n for the other arm. -/
def ArmPose.speeds (p : ArmPose) (c : PosedCap) (s : Rat) (diff : V3) : Int × Int :=
  if p.braking then
    (approach diff (capVel p.joints c p.other s), max 0 (approach diff (capVel p.joints c p.brake s)))
  else (approach diff (capVel p.joints c p.rate s), 0)

/-- v_r1: the approach speed at unit scale of all the joints (R116). -/
def ArmPose.vr1 (p : ArmPose) (c : PosedCap) (s : Rat) (diff : V3) : Int := approach diff (capVel p.joints c p.rate s)

/-- The bound of R121 and R122. -/
def pairBound (dist k0 k1 vrb : Int) : Nat :=
  if vrb > 0 ∧ dist ≤ k0 then 0
  else if k1 ≤ 0 then 32768
  else if dist ≤ k0 then 0
  else min 32768 ((dist - k0) * 32768 / k1).toNat

/-- A link capsule against a fixed object: R119-R122, R651. `rT` is the reaction time, `k0` the other
terms of K0 in Q15.16. -/
def ArmPose.fixedPair (p : ArmPose) (c : PosedCap) (a b : V3) (r : Rat) (kind idx : Nat) (rT tS : Rat)
    (k0 : Int) : PairRes :=
  let ends := closestEnds c.a c.b a b
  let at' (s : Rat) : V3 := vsub (lerp a b (otherParam c.a c.b a b s)) (lerp c.a c.b s)
  let v (s : Rat) : Int := p.vr1 c s (at' s)
  let s := if v ends.1 < v ends.2 then ends.2 else ends.1
  let diff := at' s
  let q := p.speeds c s diff
  let dist := sqrtDown16 (dot diff diff) - toQ 16 (c.r + r)
  let k1 := ceil16 (qv 16 q.1 * (rT + tS / 2))
  let k0 := k0 + ceil16 (qv 16 q.2 * (rT + p.tb))
  { kind := kind, idx := idx, d := dist, bound := pairBound dist k0 k1 q.2 }

/-- A capsule pair of two arms of different regions: R120, R122. -/
def armPair (p q : ArmPose) (c e : PosedCap) (rT tS : Rat) (k0 : Int) : PairRes × PairRes :=
  let ends := closestEnds c.a c.b e.a e.b
  let diffOf (s : Rat) : V3 × Rat :=
    let t := otherParam c.a c.b e.a e.b s
    (vsub (lerp e.a e.b t) (lerp c.a c.b s), t)
  let tot (s : Rat) : Int := let x := diffOf s; p.vr1 c s x.1 + q.vr1 e x.2 (vscale (-1) x.1)
  let s := if tot ends.1 < tot ends.2 then ends.2 else ends.1
  let diff := (diffOf s).1
  let v := (p.speeds c s diff, q.speeds e (diffOf s).2 (vscale (-1) diff))
  let dist := sqrtDown16 (dot diff diff) - toQ 16 (c.r + e.r)
  let k1 := ceil16 (qv 16 (v.1.1 + v.2.1) * (rT + tS / 2))
  let k0 := k0 + ceil16 (qv 16 v.1.2 * (rT + p.tb)) + ceil16 (qv 16 v.2.2 * (rT + q.tb))
  let b := pairBound dist k0 k1 (max v.1.2 v.2.2)
  ({ kind := 4, idx := q.decl.arm, d := dist, bound := b },
   { kind := 4, idx := p.decl.arm, d := dist, bound := b })

/-- Distance of a capsule pair, truncated (R133). -/
def capDist (c e : PosedCap) : Int :=
  sqrtDown16 (sqDist c.a c.b e.a e.b (closestEnds c.a c.b e.a e.b).1) - toQ 16 (c.r + e.r)

def nsSec (n : Nat) : Rat := mkRat n 1000000000

/-- Every pair of an arm with operators, occupied zones and obstacles. -/
def Die.fixedPairs (d : Die) (p : ArmPose) : List PairRes :=
  let g := d.sep.geom
  let tS : Rat := mkRat (g.region p.decl.region).tS 1000
  let lat := nsSec (5 * d.img.cell.tc)
  p.caps.flatMap fun c =>
    (d.sep.points.flatMap fun (k, pts) =>
      let sd := (g.sensor k).getD { sensor := k, maxAge := 0, c := 0, zd := 0 }
      let tr := nsSec sd.maxAge + lat
      let k0 := ceil16 (qv 16 g.vH * (tr + tS)) + sd.c + sd.zd + p.decl.zr
      pts.zipIdx.map fun x => p.fixedPair c x.1.v x.1.v 0 1 (16 * k + x.2) tr tS k0) ++
    ((g.zones.filter fun z => d.sep.occupied.contains z.zone).map fun z =>
      let age := z.sensors.foldl (fun m k => max m (((g.sensor k).map (·.maxAge)).getD 0)) 0
      let tr := nsSec age + lat
      let k0 := ceil16 (qv 16 g.vH * (tr + tS)) + z.c + z.zd + p.decl.zr
      p.fixedPair c z.cap.a.v z.cap.b.v (qv 16 z.cap.r) 2 z.zone tr tS k0) ++
    (g.obstacles.zipIdx.map fun x =>
      p.fixedPair c x.1.a.v x.1.b.v (qv 16 x.1.r) 3 x.2 lat tS (p.decl.zr + g.obstClear : Nat))

/-- Results of phase S for an arm: target, LIM_KIND, LIM_IDX, pair target and DMIN (R123). -/
structure ArmRes where
  arm : Nat
  target : Nat
  kind : Nat
  idx : Nat
  pair : Nat
  dmin : W32

/-- R123: the smallest bound, and the object that limits. DESIGN CHOICE (log entry 112): LIM_IDX is 0 while the host
limits (LIM_KIND 5) or the arm is held (LIM_KIND 6, R146). -/
def judgeArm (a : Nat) (host : Nat) (pairs : List PairRes) (same : List Int) : ArmRes :=
  let pairMin := pairs.foldl (fun m p => min m p.bound) 32768
  let target := min pairMin host
  let best := (pairs.filter fun p => p.bound = target).foldl (fun (m : Option PairRes) p =>
    match m with
    | none => some p
    | some q => if p.kind < q.kind ∨ (p.kind = q.kind ∧ p.idx < q.idx) then some p else some q) none
  let ds := pairs.map (·.d) ++ same
  let dmin := match ds with | [] => (0x7FFFFFFF : W32) | x :: r => fit32 (r.foldl min x)
  if target = 32768 then { arm := a, target := target, kind := 0, idx := 0, pair := pairMin, dmin := dmin }
  else match best with
    | some p => { arm := a, target := target, kind := p.kind, idx := p.idx, pair := pairMin, dmin := dmin }
    | none => { arm := a, target := target, kind := 5, idx := 0, pair := pairMin, dmin := dmin }

/-- Pairs of arms in increasing order. -/
def armPairs (l : List ArmPose) : List (ArmPose × ArmPose) :=
  match l with
  | [] => []
  | p :: r => r.map (fun q => (p, q)) ++ armPairs r

/-- Phase S as a pipeline computes it: arm results, and the same-region pairs that come too close. -/
def Die.phaseSOutput (d : Die) : List ArmRes × List (Nat × Nat) :=
  let g := d.sep.geom
  let poses := ((List.range 16).filterMap g.arm).map d.armPose
  let lat := nsSec (5 * d.img.cell.tc)
  let cross := (armPairs poses).filter fun x => x.1.decl.region ≠ x.2.decl.region
  let same := (armPairs poses).filter fun x => x.1.decl.region = x.2.decl.region
  let crossRes := cross.flatMap fun (p, q) =>
    let tS : Rat := mkRat (max (g.region p.decl.region).tS (g.region q.decl.region).tS) 1000
    p.caps.flatMap fun c => q.caps.map fun e =>
      (p.decl.arm, q.decl.arm, armPair p q c e lat tS (p.decl.zr + q.decl.zr + g.armClear : Nat))
  let sameRes := same.flatMap fun (p, q) => p.caps.flatMap fun c => q.caps.map fun e =>
    (p.decl, q.decl, capDist c e)
  (poses.map fun p =>
    let a := p.decl.arm
    let pairs := d.fixedPairs p ++ crossRes.filterMap fun x =>
      if x.1 = a then some x.2.2.1 else if x.2.1 = a then some x.2.2.2 else none
    let ds := (sameRes.filter fun x => x.1.arm = a || x.2.1.arm = a).map (·.2.2)
    judgeArm a (min 32768 (d.sep.arm a).hostScale.toNat) pairs ds,
   ((sameRes.filter fun x => decide (x.2.2 < ((x.1.zr + x.2.1.zr : Nat) : Int))).map fun x => (x.1.arm, x.2.1.arm)).eraseDups)

/-- C_S of R135. -/
def GeomSec.costS (g : GeomSec) : Nat :=
  let caps (p : ArmDecl → Bool) : Nat := (g.arms.filter p).foldl (fun n a => n + a.caps.length) 0
  let ncap := caps fun _ => true
  let nj := g.arms.foldl (fun n a => n + a.links.length) 0
  let rec pairs : List ArmDecl → Nat
    | [] => 0
    | a :: r => r.foldl (fun n b => n + a.caps.length * b.caps.length) 0 + pairs r
  let nps := ncap * (16 * g.sensors.length + g.zones.length) + ncap * g.obstacles.length + pairs g.arms
  400 + 8 * nj + 4 * ncap + (80 * nps + 63) / 64 + 64

/-- A mismatch of some arms (R136): each makes a QUICK_STOP and is held at 0. -/
def Die.sepMismatch (l : List Nat) (d : Die) : Die :=
  if l.isEmpty then d
  else
    let d := (d.updSep fun s => { s.count 1 with mismatch := true, state := .stopped }).log .stop d.uidSep 0x50
    let d := l.foldl (fun d a => d.updSepArm a fun x => { x with held := true }) d
    d.stopArms 2 l

/-- Results of an arm as published (R123, R146); LIM_IDX of a held arm as in `judgeArm` (log entry 112). -/
def Die.publishArm (r : ArmRes) (d : Die) : Die :=
  d.updSepArm r.arm fun x =>
    if x.held then { x with target := 0, limKind := 6, limIdx := 0, pairTarget := 0, dmin := r.dmin }
    else { x with target := BitVec.ofNat 16 r.target, limKind := BitVec.ofNat 3 r.kind,
                  limIdx := BitVec.ofNat 8 r.idx, pairTarget := BitVec.ofNat 16 r.pair, dmin := r.dmin }

/-- The region targets: the smallest target among the arms of each region (R124). -/
def Die.regionTargets (d : Die) : Die :=
  (List.range 4).foldl (fun d w =>
    let arms := d.sep.geom.arms.filter fun a => a.region = w
    let t := arms.foldl (fun m a => min m (d.sep.arm a.arm).target.toNat) 32768
    d.updSepRegion w fun r => { r with target := BitVec.ofNat 16 (if arms.isEmpty then 0 else t) }) d

/-- SEP_CLEARANCE (R133). -/
def Die.sepClearance (l : List (Nat × Nat)) (d : Die) : Die :=
  if l.isEmpty then d
  else
    let d := (d.updSep fun s => { s.count 5 with clearance := true }).log .stop d.uidSep 0x52
    d.stopArms 2 (l.flatMap fun p => [p.1, p.2]).eraseDups

/-- PHASE_S_END (R123, R124, R133, R136, R137): `differ` are the arms whose X and Y outputs differ. -/
def Die.phaseSEnd (differ : BitVec 16) (d : Die) : Die :=
  if !d.sep.phaseS then d
  else
    let out := d.phaseSOutput
    let bad := (List.range 16).filter fun a => bit differ a && (d.sep.geom.arm a).isSome
    let d := d.updSep fun s => { s.count 0 with phaseS := false, phaseSCyc := BitVec.ofNat 32 s.geom.costS }
    let d := d.sepMismatch bad
    let d := (out.1.foldl (fun d r => d.publishArm r) d).regionTargets
    let limited := d.sep.geom.arms.any fun a => decide ((d.sepRegion a.region).target.toNat < 32768)
    let d := if limited then d.updSep (Sep.count 3) else d
    d.sepClearance out.2

/-! Phase R: rows (R130-R132) -/

/-- A row of R130 before it is written. -/
structure RowRes where
  row : Nat
  l : W32
  d0 : W32
  cols : List (Nat × W32)

/-- The row of a kept capsule pair at q0,k. `base` is k·NS, `pos` POSVAR by joint. -/
def makeRow (p q : ArmPose) (c e : PosedCap) (dMin : Int) (q0 : Nat → Rat) (base row : Nat)
    (pos : Nat → Option Nat) : RowRes :=
  let s := (closestEnds c.a c.b e.a e.b).1
  let ci := lerp c.a c.b s
  let cj := lerp e.a e.b (otherParam c.a c.b e.a e.b s)
  let diff := vsub cj ci
  let g := dot diff diff
  let nrm := ratSqrtDown 40 g
  let n : V3 := if nrm = 0 then (0, 0, 0) else vscale (1 / nrm) diff
  let d0 := capDist c e
  let part (sg : Rat) (a : ArmPose) (x : PosedCap) (pt : V3) : List (Nat × Int × Rat) :=
    (a.joints.take (x.link + 1)).filterMap fun j =>
      (pos j.joint).map fun v => (base + v, toQ 16 (sg * dot n (j.jac pt)), q0 j.joint)
  let gs := part (-1) p c ci ++ part 1 q e cj
  let gq := gs.foldl (fun a x => a + qv 16 x.2.1 * x.2.2) (0 : Rat)
  { row := row, l := fit32 (dMin - d0 + ceil16 gq), d0 := fit32 d0,
    cols := (gs.filter fun x => x.2.1 ≠ 0).map fun x => (x.1, fit32 x.2.1) }

/-- The `n` capsule pairs with the smallest distance, ties to the lower indices (R130). -/
def closestPairs (p q : ArmPose) : Nat → List (PosedCap × PosedCap × Int) → List (PosedCap × PosedCap × Int)
  | 0, _ => []
  | n + 1, l =>
    match l with
    | [] => []
    | x :: r =>
      let best := r.foldl (fun b y => if y.2.2 < b.2.2 then y else b) x
      best :: closestPairs p q n (l.filter fun y => !(y.1.idx = best.1.idx && y.2.1.idx = best.2.1.idx))

/-- The row set of a region (R130, R131). -/
def Die.regionRows (d : Die) (w : Nat) : List RowRes :=
  match (if (d.sepRegion w).noRows then none else (d.region w).plan) with
  | none => []
  | some plan =>
    let g := d.sep.geom
    let rg := g.region w
    let t := d.tmpl w
    let arms := (List.range 16).filterMap fun a => (g.arm a).filter fun x => x.region = w
    let npair := arms.length * (arms.length - 1) / 2
    let pos (j : Nat) : Option Nat := (rg.vars.find? (·.1 = j)).map (·.2.1)
    (List.range t.h).flatMap fun k =>
      let q0 (j : Nat) : Rat := match plan.joints.find? (·.1 = j) with
        | none => 0
        | some (_, pts) => qv 20 (((pts[min (k + 2) t.h]?).map (·.1)).getD 0)
      let poses := arms.map fun a =>
        let js := poseArm a q0
        { (d.armPose a) with joints := js, caps := poseCaps a js }
      (armPairs poses).zipIdx.flatMap fun x =>
        let (p, q) := x.1
        let all := p.caps.flatMap fun c => q.caps.map fun e => (c, e, capDist c e)
        (closestPairs p q rg.rowsPp all).zipIdx.map fun y =>
          makeRow p q y.1.1 y.1.2.1 (p.decl.zr + q.decl.zr + g.armClear : Nat) q0 (k * t.ns)
            (k * (npair * rg.rowsPp) + x.2 * rg.rowsPp + y.2) pos

/-- The 128-byte record of a row (R132). -/
def RowRes.bytes (r : RowRes) : List Byte :=
  let cs := r.cols.take 16
  leBytes 2 cs.length ++ leBytes 2 r.row ++ leBytes 4 r.l.toNat ++ leBytes 4 r.d0.toNat ++ leBytes 4 0
    ++ sliceBytes (cs.flatMap fun c => leBytes 2 c.1) 0 32
    ++ sliceBytes (cs.flatMap fun c => leBytes 4 c.2.toNat) 0 64 ++ List.replicate 16 0

/-- BAR2 offset of a row set (R132, R568). -/
def rowSetBase (w : Nat) (buf : Bool) : Nat := 0x02400000 + 0xC0000 + w * 0xA000 + if buf then 0x5000 else 0

/-- A row set is published (R132). -/
def Die.publishRows (w : Nat) (rows : List RowRes) (d : Die) : Die :=
  let r := d.sepRegion w
  let buf := r.valid && !r.buf
  let recs := rows.flatMap RowRes.bytes
  let seq := (fieldAt (d.sram.read 0 (rowSetBase w r.buf) 4) 0 4 + 1) % 2 ^ 32
  let period := ((d.region w).plan.map (·.period)).getD 0
  let head := leBytes 4 (if r.valid then seq else 1) ++ leBytes 4 d.sep.sampleCyc.toNat ++ leBytes 4 period.toNat
    ++ leBytes 2 rows.length ++ [0, 0] ++ leBytes 4 (crc32c recs).toNat ++ List.replicate 44 0
  let d := { d with sram := d.sram.write 0 (rowSetBase w buf) (head ++ recs) }
  d.updSepRegion w fun x => { x with buf := buf, valid := true, seq := BitVec.ofNat 16 (if r.valid then seq else 1) }

/-- C_R of R135. -/
def Die.costR (d : Die) (nrows : Nat) : Nat :=
  let npr := (List.range 4).foldl (fun n w =>
    let caps := (d.sep.geom.arms.filter fun a => a.region = w).map (·.caps.length)
    let rec pairs : List Nat → Nat
      | [] => 0
      | a :: r => r.foldl (fun n b => n + a * b) 0 + pairs r
    n + (d.tmpl w).h * pairs caps) 0
  200 + (80 * npr + 63) / 64 + 24 * nrows

/-- PHASE_R_END (R132, R136, R137): `differ` are the regions whose X and Y row sets differ. -/
def Die.phaseREnd (differ : BitVec 4) (d : Die) : Die :=
  if !d.sep.phaseR || d.sep.phaseS then d
  else
    let ws := (List.range 4).filter fun w => (d.region w).state ≠ .off
    let sets := ws.map fun w => (w, d.regionRows w)
    let n := sets.foldl (fun n x => n + x.2.length) 0
    let d := d.updSep fun s => { s with phaseR := false, phaseRCyc := BitVec.ofNat 32 (d.costR n) }
    let d := (sets.filter fun x => !bit differ x.1).foldl (fun d x => d.publishRows x.1 x.2) d
    let bad := ws.filter fun w => bit differ w
    d.sepMismatch ((bad.flatMap fun w => d.regionArms w).eraseDups)

/-- SEP_OVERRUN (R136): a pipeline has not finished; every arm stops. -/
def Die.sepOverrun (d : Die) : Die :=
  if !d.sep.phaseS && !d.sep.phaseR then d
  else
    let arms := d.usedArms
    let d := (d.updSep fun s => { s.count 2 with overrun := true, state := .stopped, phaseS := false, phaseR := false }
      ).log .stop d.uidSep 0x51
    let d := arms.foldl (fun d a => d.updSepArm a fun x =>
      { x with held := true, target := 0, limKind := 6, limIdx := 0, pairTarget := 0 }) d
    (d.regionTargets).stopArms 2 arms

/-- The pipelines whose phase S overruns are silent (R463, R464). -/
def Die.sepSilent (d : Die) : Die :=
  [0, 1].foldl (fun d i => if (d.unit 5 i).state = .active then d.markSilent 5 i else d) d

/-- SEP_OVERRUN: a phase has not ended by its limit (R136, R463). -/
def Die.sepLate (d : Die) : Die := if d.sep.phaseS then d.sepOverrun.sepSilent else d.sepOverrun

/-! Commands -/

/-- SEP_HOST_SCALE (R128). -/
def Die.hostScale (a : Nat) (v : W16) (d : Die) : Die :=
  let v : W16 := if 0x8000 < v.toNat then 0x8000 else v
  let was := d.sep.scaleConflict
  let d := (d.updSepArm a fun x => { x with hostScale := v })
  if (d.sep.arm a).pairTarget.toNat < v.toNat then
    (d.updSep fun s => { s.count 4 with scaleConflict := true }).logOnce was .info d.uidSep 0x55
  else d

/-- SEP_CTRL.CLEAR (R137): the arms that the monitor stopped are those it holds. -/
def Die.sepClear (d : Die) : Die :=
  let held := (List.range 16).filter fun a => (d.sep.arm a).held
  let atRest := held.all fun a => (d.armJoints a).all fun j => (d.jnt j).atRest
  if d.sep.state = .stopped && atRest then
    (held.foldl (fun d a => d.updSepArm a fun x => { x with held := false }) d.accept).updSep fun s => { s with state := .run }
  else d.refuse

end Sys2Proof.Machine
end

