-- ==== Sys2Proof/Machine/RegsCell.lean ====
section
/-! DEFINITION. Register maps of joints, small axes, encoder ports, engines, regions, the separation
monitor and the queues (chapters 03 to 09). A read answers the register's word; offsets that no table
assigns read 0 and ignore writes (R565). -/

namespace Sys2Proof.Machine

/-- A W1C bit after a write. -/
def w1c (b : Bool) (v : W32) (i : Nat) : Bool := b && !bit v i

/-- Bits [hi:lo] of a written word as a field. -/
def fld (w : Nat) (v : W32) (lo : Nat) : BitVec w := BitVec.ofNat w (v.toNat / 2 ^ lo)

/-- Counter register at offset `o` of a bank that starts at `base`. -/
def cntRead {n : Nat} (v : Vector W32 n) (base o : Nat) : Nat :=
  if base ≤ o && o < base + 4 * n then ((v[(o - base) / 4]?).getD 0).toNat else 0

/-! Joints (R213-R218) -/

/-- A write of a limit, force or supervisor register lies in the range of R213 (R218). -/
def jntRange (tc o : Nat) (v : W32) : Bool :=
  if o = 0x14 || o = 0x18 || o = 0x1C || o = 0x20 || o = 0x24 || o = 0x30 || o = 0x34 || o = 0x38 then
    decide (0 < v.toInt)
  else if o = 0x28 || o = 0x3C || o = 0x40 || o = 0x44 then decide (0 ≤ v.toInt)
  else if o = 0x48 then bits v 15 8 ≠ 0
  else if o = 0x5C then bits v 23 0 ≤ 16 * tc
  else true

/-- The RW registers of R213. -/
def JointRegs.put (o : Nat) (v : W32) (r : JointRegs) : JointRegs :=
  match o with
  | 0x10 => { r with pgTarget := v }
  | 0x14 => { r with pgVmax := v }
  | 0x18 => { r with pgAmax := v }
  | 0x1C => { r with pgDmax := v }
  | 0x20 => { r with pgJmax := v }
  | 0x24 => { r with qsDec := v }
  | 0x28 => { r with stillVel := v }
  | 0x2C => { r with forceSp := v }
  | 0x30 => { r with forceLim := v }
  | 0x34 => { r with forceVapp := v }
  | 0x38 => { r with forceRamp := v }
  | 0x3C => { r with forceStroke := v }
  | 0x40 => { r with plWarn := v }
  | 0x44 => { r with plFault := v }
  | 0x48 => { r with plEn := bit v 0, persist := fld 8 v 8 }
  | 0x4C => { r with plKacc := v }
  | 0x50 => { r with plKt := v }
  | 0x54 => { r with plBvisc := v }
  | 0x58 => { r with plFcoul := v }
  | 0x5C => { r with deltaMax := fld 24 v 0 }
  | _ => r

def JointRegs.get (o : Nat) (r : JointRegs) : Nat :=
  match o with
  | 0x10 => r.pgTarget.toNat
  | 0x14 => r.pgVmax.toNat
  | 0x18 => r.pgAmax.toNat
  | 0x1C => r.pgDmax.toNat
  | 0x20 => r.pgJmax.toNat
  | 0x24 => r.qsDec.toNat
  | 0x28 => r.stillVel.toNat
  | 0x2C => r.forceSp.toNat
  | 0x30 => r.forceLim.toNat
  | 0x34 => r.forceVapp.toNat
  | 0x38 => r.forceRamp.toNat
  | 0x3C => r.forceStroke.toNat
  | 0x40 => r.plWarn.toNat
  | 0x44 => r.plFault.toNat
  | 0x4C => r.plKacc.toNat
  | 0x50 => r.plKt.toNat
  | 0x54 => r.plBvisc.toNat
  | 0x58 => r.plFcoul.toNat
  | 0x5C => r.deltaMax.toNat
  | _ => 0

/-- JNT_TAU in ns: the plan time of the region (R192, R213). -/
def Die.jntTau (d : Die) (x : Joint) : Nat := (d.sepRegion x.region).tau / 65536 % 2 ^ 32

def Die.readJnt (d : Die) (j o : Nat) : Nat :=
  let x := d.jnt j
  match o with
  | 0x04 => x.status.toNat
  | 0x08 => x.reqMode.toNat + 4 * x.reqSource.toNat + 256 * x.reqBlend.toNat
  | 0x0C => flag x.cfg.classF 0 + 4 * x.cfg.fStart.toNat + 65536 * x.cfg.fOut.toNat
  | 0x48 => flag x.regs.plEn 0 + 256 * x.regs.persist.toNat + 65536 * x.persistCnt.toNat
  | 0x60 => x.pos.toNat
  | 0x64 => x.vel.toNat
  | 0x68 => x.u.toNat
  | 0x6C => x.resid.toNat
  | 0x70 => d.jntTau x
  | _ => x.regs.get o + cntRead x.cnt 0x80 o

/-- A write of JNT_MODE_REQ (R204, R216): the fields read back; REQ requests. -/
def Die.writeModeReq (j : Nat) (v : W32) (d : Die) : Die :=
  let put (d : Die) : Die :=
    d.updJnt j fun x => { x with reqMode := fld 2 v 0, reqSource := fld 2 v 2, reqBlend := fld 5 v 8 }
  if bit v 31 then
    let e := d.accept.modeReq j (fld 2 v 0) (fld 2 v 2) (bits v 12 8)
    if e.host.access = .ok then put e else e
  else if 16 < bits v 12 8 then d.refuse else put d

def Die.writeJnt (j o : Nat) (v : W32) (d : Die) : Die :=
  if o = 0 then d.jntCtrl j (fld 5 v 0)
  else if o = 4 then d.updJnt j fun x =>
    { x with plausWarn := w1c x.plausWarn v 15, handoverSat := w1c x.handoverSat v 16, tauSkew := w1c x.tauSkew v 17 }
  else if o = 8 then d.writeModeReq j v
  else
    let r := (d.jnt j).regs.put o v
    if !jntRange d.img.cell.tc o v || decide (r.plFault.toInt < r.plWarn.toInt) then d.refuseWarn (uidJoint j)
    else d.updJnt j fun x => { x with regs := r, spWritten := x.spWritten || o = 0x2C }

/-! Small axes (R246-R251) -/

def AxRegs.put (o : Nat) (v : W32) (r : AxRegs) : AxRegs :=
  match o with
  | 0x20 => { r with vstart := v }
  | 0x24 => { r with v1 := v }
  | 0x28 => { r with vmax := v }
  | 0x2C => { r with vstop := v }
  | 0x30 => { r with a1 := v }
  | 0x34 => { r with a2 := v }
  | 0x38 => { r with d1 := v }
  | 0x3C => { r with d2 := v }
  | 0x40 => { r with dstop := v }
  | 0x70 => { r with homeNeg := bit v 0, revOnLimit := bit v 1, hostStep := bit v 2 }
  | 0x74 => { r with homeVfast := v }
  | 0x78 => { r with homeVslow := v }
  | 0x7C => { r with homeBackoff := v }
  | 0x80 => { r with homeOffset := v }
  | 0x84 => { r with homeRange := v }
  | _ => r

def AxRegs.get (o : Nat) (r : AxRegs) : Nat :=
  match o with
  | 0x20 => r.vstart.toNat
  | 0x24 => r.v1.toNat
  | 0x28 => r.vmax.toNat
  | 0x2C => r.vstop.toNat
  | 0x30 => r.a1.toNat
  | 0x34 => r.a2.toNat
  | 0x38 => r.d1.toNat
  | 0x3C => r.d2.toNat
  | 0x40 => r.dstop.toNat
  | 0x70 => flag r.homeNeg 0 + flag r.revOnLimit 1 + flag r.hostStep 2
  | 0x74 => r.homeVfast.toNat
  | 0x78 => r.homeVslow.toNat
  | 0x7C => r.homeBackoff.toNat
  | 0x80 => r.homeOffset.toNat
  | 0x84 => r.homeRange.toNat
  | _ => 0

/-- A duty in Q1.14 (AX_DUTY). -/
def duty14 (r : Rat) : Nat := (BitVec.ofInt 16 (clampS 16 (toQ 14 r))).toNat

def Axis.read (x : Axis) (o : Nat) : Nat :=
  match o with
  | 0x04 => x.status.toNat
  | 0x08 => flag x.cfg.stepDir 0 + flag x.cfg.c60 1 + flag x.cfg.outPol 2 + flag x.cfg.decay 3 + flag x.cfg.stepDiv 4
      + flag x.cfg.bind 5 + 64 * x.cfg.arm.toNat + 65536 * x.cfg.owner.toNat
  | 0x0C => 1 + 4 * x.cfg.fStart.toNat + 65536 * x.cfg.fOut.toNat
  | 0x10 => x.targetReg.toNat
  | 0x14 => x.pos.toNat
  | 0x1C => x.vel.toNat
  | 0x44 => x.ampHold.toNat + 65536 * x.ampRun.toNat
  | 0x48 => x.ampAcc.toNat + 65536 * x.holdDelay.toNat
  | 0x4C => x.ke.toNat
  | 0x50 => x.pwmPhase.toNat
  | 0x54 => duty14 x.duty.1 + 65536 * duty14 x.duty.2
  | 0x58 => x.rk.toNat
  | 0x60 => x.cmpPos.toNat
  | 0x64 => flag x.bothDir 0 + flag x.cont 1 + flag x.pin 2 + flag x.evt 3 + 256 * x.cmpPw.toNat + flag x.armed 16
      + flag x.side 17 + flag x.behind 18 + flag x.fired 19
  | 0x68 => x.cmpTime.toNat
  | 0x88 => x.inPol.toNat + flag x.limEn 3 + 256 * x.debounce.toNat + 2 ^ 24 * x.chatN.toNat
  | 0x8C => x.inFilt.toNat + 8 * x.inRaw.toNat + flag x.fltAsserted 6
  | _ => x.regs.get o + cntRead x.cnt 0x90 o

/-- POL of the inputs written (R251); the next tick samples the pins by it (R237). -/
def Axis.putPol (pol : BitVec 3) (x : Axis) : Axis := { x with inPol := pol }

/-- The RW registers of an axis that hold a value only (R246, R250, R251). -/
def Axis.put (o : Nat) (v : W32) (x : Axis) : Axis :=
  match o with
  | 0x10 => { x with targetReg := v }
  | 0x44 => { x with ampHold := fld 16 v 0, ampRun := fld 16 v 16 }
  | 0x48 => { x with ampAcc := fld 16 v 0, holdDelay := fld 8 v 16 }
  | 0x4C => { x with ke := fld 16 v 0 }
  | 0x50 => { x with pwmPhase := fld 13 v 0 }
  | 0x64 => { x with bothDir := bit v 0, cont := bit v 1, pin := bit v 2, evt := bit v 3, cmpPw := fld 8 v 8,
                     behind := w1c x.behind v 18, fired := w1c x.fired v 19 }
  | 0x88 => { x.putPol (fld 3 v 0) with limEn := bit v 3, debounce := fld 12 v 8, chatN := fld 4 v 24 }
  | _ => { x with regs := x.regs.put o v }

/-- The ranges of R246 and R250; CONT needs BOTHDIR (R239). -/
def axRange (top : BitVec 13) (o : Nat) (v : W32) : Bool :=
  if o = 0x50 then bits v 12 0 ≤ top.toNat else if o = 0x64 then bits v 15 8 ≠ 0 && (bit v 0 || !bit v 1) else true

/-- R32: the write keeps what the loader checks on a used axis: the limits of R224, and the balls that LIM_EN
asks for (R628). -/
def Die.axWriteOk (d : Die) (a o : Nat) (v : W32) : Bool :=
  (d.axis a).state = .off ||
  (if 0x20 ≤ o && o ≤ 0x40 then
     let e := d.updAxis a (Axis.put o v)
     e.axLimitsOk a (e.axis a).regs.vmax
   else if o = 0x88 then !bit v 3 || (d.ballUsed (.saIn a 1) && d.ballUsed (.saIn a 2))
   else true)

def Die.writeAxis (a o : Nat) (v : W32) (d : Die) : Die :=
  match o with
  | 0x00 => d.axCtrl a (fld 8 v 0)
  | 0x04 => d.updAxis a fun x =>
      { x with limNegHit := w1c x.limNegHit v 14, limPosHit := w1c x.limPosHit v 15, chatter := w1c x.chatter v 16,
               bridgeFlt := w1c x.bridgeFlt v 17, rkClamp := w1c x.rkClamp v 19,
               chatterDone := if bit v 16 then 0 else x.chatterDone }
  | 0x18 => d.axPosSet a v
  | 0x60 => d.cmpArm a v
  | _ =>
    if axRange d.pwm.top o v then
      if d.axWriteOk a o v then d.updAxis a (Axis.put o v) else d.refuseWarn (d.uidAxis a)
    else if o = 0x50 then d.refuseWarn (d.uidAxis a) else d.refuse

/-- AX_CFG from the image (R249). -/
def Axis.putCfg (v : W32) (x : Axis) : Axis :=
  { x with cfg := { x.cfg with stepDir := bit v 0, c60 := bit v 1, outPol := bit v 2, decay := bit v 3, stepDiv := bit v 4,
                               bind := bit v 5, arm := fld 4 v 6, owner := fld 16 v 16 } }

/-! Encoder ports (R286-R290) -/

def EncState.code : EncState → Nat
  | .off => 0 | .sync => 1 | .run => 2 | .fault => 3

def Enc.status (x : Enc) : Nat :=
  x.state.code + flag x.dir 2 + flag x.still 3 + flag x.method 4 + flag x.quadErr 5 + flag x.mismatch 6
    + flag x.frameErr 7 + flag x.parityErr 8 + flag x.errBit 9 + flag x.stale 10 + flag x.emuLag 11 + flag x.ptGap 12
    + flag x.idxSeen 13 + 2 ^ 14 * x.cause.toNat

def Enc.read (x : Enc) (o : Nat) : Nat :=
  match o with
  | 0x04 => x.status
  | 0x08 => x.cfg.mode.toNat + 4 * x.cfg.pt.toNat + 16 * x.cfg.filt.toNat + flag x.cfg.idxGate 7 + flag x.cfg.idxFault 8
      + flag x.cfg.gray 9 + flag x.cfg.parity 10 + flag x.cfg.endChk 11 + 65536 * x.cfg.owner.toNat
  | 0x0C => x.cfg.len.toNat + 64 * x.cfg.mt.toNat + 4096 * x.cfg.nstat.toNat + 65536 * x.cfg.errMask.toNat + flag x.cfg.errPol 20
  | 0x10 => x.cfg.per.toNat + 65536 * x.cfg.dly.toNat + 2 ^ 24 * x.cfg.tm.toNat
  | 0x14 => x.cfg.sampleOfs.toNat + 65536 * x.cfg.lgap.toNat + 2 ^ 24 * x.cfg.errLimit.toNat
  | 0x18 => x.regs.lines.toNat + 2 ^ 24 * x.regs.tol.toNat
  | 0x1C => x.regs.tStop.toNat + 2 ^ 24 * x.regs.switchN.toNat
  | 0x20 => x.pos.toNat
  | 0x24 => x.posHi.toNat
  | 0x28 => x.speed.toNat
  | 0x2C => x.time.toNat
  | 0x30 => x.idxPos.toNat
  | 0x34 => x.idxDiff.toNat
  | 0x3C => x.cfg.emuLines.toNat + 2 ^ 24 * x.cfg.emuDiv.toNat
  | 0x40 => (BitVec.ofInt 32 x.emuC).toNat
  | _ => cntRead x.cnt 0x50 o

/-- The W1C bits of ENC_STATUS (R288). -/
def Enc.clearStatus (v : W32) (x : Enc) : Enc :=
  { x with quadErr := w1c x.quadErr v 5, mismatch := w1c x.mismatch v 6, frameErr := w1c x.frameErr v 7,
           parityErr := w1c x.parityErr v 8, errBit := w1c x.errBit v 9, stale := w1c x.stale v 10,
           emuLag := w1c x.emuLag v 11, ptGap := w1c x.ptGap v 12 }

def Die.writeEnc (k o : Nat) (v : W32) (d : Die) : Die :=
  match o with
  | 0x00 =>
    let d := if bit v 0 then d.encClrFault k else d
    if bit v 1 then d.encClrCnt k else d
  | 0x04 => d.updEnc k (Enc.clearStatus v)
  | 0x18 => d.updEnc k fun x => { x with regs := { x.regs with lines := fld 24 v 0, tol := fld 8 v 24 } }
  | 0x1C =>
    if bits v 19 0 < 100 || 1000000 < bits v 19 0 || bits v 31 24 < 2 then d.refuse
    else d.updEnc k fun x => { x with regs := { x.regs with tStop := fld 20 v 0, switchN := fld 8 v 24 } }
  | 0x38 => d.encCntSet k v
  | _ => d

/-- The RO registers of a port from the image (R286, R289, R290). -/
def EncCfg.put (o : Nat) (v : W32) (c : EncCfg) : EncCfg :=
  match o with
  | 0x08 => { c with mode := fld 2 v 0, pt := fld 2 v 2, filt := fld 3 v 4, idxGate := bit v 7, idxFault := bit v 8,
                     gray := bit v 9, parity := bit v 10, endChk := bit v 11, owner := fld 16 v 16 }
  | 0x0C => { c with len := fld 6 v 0, mt := fld 6 v 6, nstat := fld 3 v 12, errMask := fld 4 v 16, errPol := bit v 20 }
  | 0x10 => { c with per := fld 10 v 0, dly := fld 8 v 16, tm := fld 8 v 24 }
  | 0x14 => { c with sampleOfs := fld 14 v 0, lgap := fld 8 v 16, errLimit := fld 8 v 24 }
  | 0x3C => { c with emuLines := fld 24 v 0, emuDiv := fld 8 v 24 }
  | _ => c

/-! Engines (R324, R325) -/

def Die.readEng (d : Die) (e : Fin 80) (o : Nat) : Nat :=
  let g := d.engine e
  match o with
  | 0x04 => (d.unit 0 e).state.code + flag (g.running && g.replay) 3 + flag (d.engTrunc e) 4 + flag g.replaySkip 5
      + 128 * g.faultCause.toNat + 65536 * g.role.toNat
  | 0x08 => g.entry.toNat + 65536 * g.dl.toNat
  | 0x0C => g.wRun.toNat
  | 0x10 => g.rm0.toNat
  | 0x14 => g.rm1.toNat
  | 0x28 => g.size.toNat
  | 0x2C => flag g.stickyS 0 + flag g.stickyCrv 1
  | 0x30 => g.pc.toNat
  | 0x34 => g.faultPc.toNat
  | 0x38 => g.runCyc.toNat
  | 0x3C => g.runMax.toNat
  | _ => cntRead g.rng 0x18 o + cntRead g.cnt 0x40 o

def Die.writeEng (e : Fin 80) (o : Nat) (v : W32) (d : Die) : Die :=
  match o with
  | 0x00 => if bit v 0 then d.engClrCnt e else d
  | 0x04 => d.updEng e fun g => { g with replaySkip := w1c g.replaySkip v 5 }
  | 0x2C => d.updEng e fun g => { g with stickyS := w1c g.stickyS v 0, stickyCrv := w1c g.stickyCrv v 1 }
  | _ => d

/-! Regions (R106-R111) -/

def RegState.code : RegState → Nat
  | .off => 0 | .idle => 1 | .armed => 2 | .solving => 3 | .held => 4 | .tail => 5 | .host => 6

def Region.status (r : Region) : Nat :=
  r.state.code + flag r.cur 3 + flag r.valid0 4 + flag r.valid1 5 + flag r.nextBuf 6 + flag r.rhoConflict 7
    + 256 * r.commitErr.toNat + 4096 * r.missConsec.toNat

def Region.read (r : Region) (o : Nat) : Nat :=
  match o with
  | 0x00 => flag r.regs.hostReq 0
  | 0x04 => r.status
  | 0x08 => flag r.cmdSpec 1 + flag r.cmdRefactor 2 + flag r.cmdVbank 3 + 65536 * r.cmdPeriod.toNat
  | 0x0C => r.regs.specLead.toNat
  | 0x10 => r.regs.specVmax.toNat
  | 0x14 => r.regs.tolPos.toNat
  | 0x18 => r.regs.tolVel.toNat
  | 0x1C => flag r.regs.pin 0 + flag r.regs.pinSlot 1 + 16 * r.regs.rhoK.toNat
  | 0x20 => r.regs.minMs.toNat
  | 0x24 => r.factCyc.toNat
  | 0x28 => r.period.toNat
  | 0x2C => r.warmPeriod.toNat
  | 0x34 => r.sigLo.toNat
  | 0x38 => r.sigHi.toNat
  | _ =>
    if 0x100 ≤ o && o < 0x200 then
      let p := (r.pred[(o - 0x100) / 8]?).getD (0, 0)
      if o % 8 = 0 then p.1.toNat else p.2.toNat
    else cntRead r.cnt 0x40 o

/-- RGN_SPEC_LEAD to RGN_TAIL (R106, R111). -/
def RegionCfg.put (o : Nat) (v : W32) (r : RegionCfg) : RegionCfg :=
  match o with
  | 0x0C => { r with specLead := fld 20 v 0 }
  | 0x10 => { r with specVmax := fld 16 v 0 }
  | 0x14 => { r with tolPos := v }
  | 0x18 => { r with tolVel := v }
  | 0x1C => { r with pin := bit v 0, pinSlot := bit v 1, rhoK := fld 4 v 4 }
  | 0x20 => { r with minMs := fld 4 v 0 }
  | _ => r

/-- R106, R107: the ranges, and the relations to DEADLINE_NS and H of the template. -/
def rgnRange (deadlineNs h o : Nat) (v : W32) : Bool :=
  match o with
  | 0x0C => bits v 19 0 ≤ 200000 && bits v 19 0 + deadlineNs ≤ 1000000
  | 0x10 => 1 ≤ bits v 15 0 && bits v 15 0 < deadlineNs
  | 0x14 => decide (0 ≤ v.toInt)
  | 0x18 => decide (0 ≤ v.toInt)
  | 0x20 => bits v 3 0 ≤ h
  | _ => true

/-- The registers of a region (R106-R108). DESIGN CHOICE (log entry 109): a write of RGN_CTRL with RESUME and HOST_REQ
judges RESUME on the HOST_REQ held before the write, and then stores HOST_REQ. -/
def Die.writeRegion (w o : Nat) (v : W32) (d : Die) : Die :=
  let t := d.tmpl w
  match o with
  | 0x00 =>
    let e := if bit v 1 then d.resume w else d
    if bit v 1 && e.host.access ≠ .ok then e else e.hostReq w (bit v 0)
  | 0x04 => d.updRegion w fun r =>
      { r with rhoConflict := w1c r.rhoConflict v 7, commitErr := r.commitErr &&& ~~~(fld 3 v 8) }
  | 0x08 =>
    if bit v 0 then d.armSolve w (bit v 1) (bit v 2) (bit v 3) (fld 16 v 16)
    else d.updRegion w fun r =>
      { r with cmdSpec := bit v 1, cmdRefactor := bit v 2, cmdVbank := bit v 3, cmdPeriod := fld 16 v 16 }
  | 0x30 => d.hostCommit w (fld 16 v 0)
  | 0x34 => d.updRegion w fun r => { r with sigLo := v }
  | 0x38 => d.updRegion w fun r => { r with sigHi := v }
  | _ =>
    if 0x100 ≤ o && o < 0x200 then
      d.updRegion w fun r =>
        { r with pred := vmap r.pred fun k p =>
            if k = (o - 0x100) / 8 then (if o % 8 = 0 then (v, p.2) else (p.1, v)) else p }
    else if rgnRange t.deadlineNs t.h o v then d.updRegion w fun r => { r with regs := r.regs.put o v }
    else d.refuseWarn (d.uidRegion w)

/-! Separation monitor (R143-R147) -/

def SepState.code : SepState → Nat
  | .off => 0 | .run => 1 | .stopped => 2

def SensState.code : SensState → Nat
  | .unused => 0 | .absent => 1 | .fresh => 2

def Die.sepStatus (d : Die) : Nat :=
  d.sep.state.code + flag d.sep.mismatch 2 + flag d.sep.overrun 3 + flag d.sep.scaleConflict 4 + flag d.sep.clearance 5
    + ((List.range 16).filter fun k => (d.sep.sensor k).state = .absent).foldl (fun n k => n + 2 ^ (8 + k)) 0

def Die.readSep (d : Die) (o : Nat) : Nat :=
  let arm (a : Nat) : SepArm := (d.sep.arms[a]?).getD {}
  if o = 0x04 then d.sepStatus
  else if o = 0x08 then d.sep.phaseSCyc.toNat
  else if o = 0x0C then d.sep.phaseRCyc.toNat
  else if o = 0x10 then d.sep.sampleCyc.toNat
  else if 0x40 ≤ o && o < 0x80 then
    let x := arm ((o - 0x40) / 4)
    x.target.toNat + 65536 * x.limIdx.toNat + 2 ^ 24 * x.limKind.toNat
  else if 0x80 ≤ o && o < 0xC0 then (arm ((o - 0x80) / 4)).dmin.toNat
  else if 0xC0 ≤ o && o < 0x100 then (arm ((o - 0xC0) / 4)).hostScale.toNat
  else if 0x100 ≤ o && o < 0x110 then
    let r := d.sepRegion ((o - 0x100) / 4)
    r.applied.toNat + 65536 * r.target.toNat
  else if 0x110 ≤ o && o < 0x120 then
    let r := d.sepRegion ((o - 0x110) / 4)
    flag r.buf 0 + flag r.valid 1 + 65536 * r.seq.toNat
  else if o = 0x218 then d.sep.cntSensBad.toNat
  else if 0x400 ≤ o && o < 0x500 then
    let s := d.sep.sensor ((o - 0x400) / 16)
    match o % 16 with
    | 0 => s.state.code + flag s.healthy 2
    | 4 => s.lastSeq.toNat
    | 8 => s.cntAuth.toNat
    | 12 => s.cntOld.toNat
    | _ => 0
  else cntRead d.sep.cnt 0x200 o

def Die.writeSep (o : Nat) (v : W32) (d : Die) : Die :=
  if o = 0 then (if bit v 0 then d.sepClear else d)
  else if o = 4 then d.updSep fun s =>
    { s with mismatch := w1c s.mismatch v 2, overrun := w1c s.overrun v 3, scaleConflict := w1c s.scaleConflict v 4,
             clearance := w1c s.clearance v 5 }
  else if 0xC0 ≤ o && o < 0x100 then d.hostScale ((o - 0xC0) / 4) (fld 16 v 0)
  else if 0x800 ≤ o && o < 0x900 then
    let k := (o - 0x800) / 16
    let i := (o % 16) / 4
    if i = 3 then d.sensorKey k v
    else d.updSensor k fun s => { s with keyWords := s.keyWords.setIfInBounds i v }
  else d

/-! Queues (R173-R178) -/

def QClass.code : QClass → Nat
  | .rx => 0 | .sp => 1 | .pg => 2 | .hs => 3 | .tx => 4 | .pw => 5 | .ca => 6

def Die.readQrc (d : Die) (o : Nat) : Nat :=
  if o = 0 then flag d.qrc.freeze 0
  else if o = 4 then flag d.qrc.creditConflict 0 + flag d.qrc.orderErr 1 + 65536 * d.qrc.lastQ.toNat
  else if o = 8 then d.usedQueues.length
  else if 0x10000 ≤ o && o < 0x18000 then
    let q := d.queue ((o - 0x10000) / 32)
    if !q.used then 0
    else
      match o % 32 with
      | 0 => q.depth + 512 * (q.words - 1) + 2 ^ 14 * q.cls.code + 2 ^ 17 * q.lookout + 2 ^ 26 * q.hc
      | 4 => q.prod.toNat + 65536 * q.cons.toNat
      | 8 => q.cap.toNat
      | 12 => q.epoch.toNat + 256 * q.grant + 2 ^ 17 * q.fill + flag q.isOpen 26 + flag q.conflict 27
      | 16 => q.lastTgt.toNat + 65536 * q.lastCommit.toNat
      | 20 => q.cntStall.toNat + 65536 * q.cntSquash.toNat
      | 24 => q.cntUnderrun.toNat + 65536 * q.cntLate.toNat
      | _ => 0
  else 0

def Die.writeQrc (o : Nat) (v : W32) (d : Die) : Die :=
  if o = 0 then { d with qrc := { d.qrc with freeze := bit v 0 } }
  else if o = 4 then
    { d with qrc := { d.qrc with creditConflict := w1c d.qrc.creditConflict v 0, orderErr := w1c d.qrc.orderErr v 1 } }
  else if 0x10000 ≤ o && o < 0x18000 && (d.queue ((o - 0x10000) / 32)).used then
    let q := (o - 0x10000) / 32
    match o % 32 with
    | 8 => d.cmdCap q (fld 9 v 0)
    | 12 => d.updQueue q fun x => { x with conflict := w1c x.conflict v 27 }
    | 28 =>
      let d' := if bit v 0 then d.cmdSquash q else d
      if bit v 1 then (let a := d'.host.access; (d'.cmdClrCnt q).endAccess a) else d'
    | _ => d
  else d

end Sys2Proof.Machine
end

