-- ==== Sys2Proof/Machine/RegsIo.lean ====
section
/-! DEFINITION. Register maps of lanes, CAN controllers, the time unit and the time ports
(chapters 12 to 14). -/

namespace Sys2Proof.Machine

/-! Lanes (R396-R400) -/

def LaneState.code : LaneState → Nat
  | .off => 0 | .silent => 1 | .starting => 2 | .clash => 3 | .head => 4 | .backup => 5 | .stopped => 6 | .node => 7

def NodeState.code : NodeState → Nat
  | .listen => 0 | .check => 1 | .hold => 2 | .joined => 3

/-- A schedule entry as the 64-bit word of R379. -/
def SchedEntry.word (e : SchedEntry) : Nat :=
  e.offset + 2 ^ 16 * e.node + 2 ^ 21 * e.cls + 2 ^ 24 * e.pollLen + 2 ^ 34 * e.replyLen + 2 ^ 44 * e.deadline

/-- MB_LANE_CFG (R398). -/
def LaneCfg.word (c : LaneCfg) : Nat :=
  flag c.node 0 + 2 * c.rank.toNat + 8 * c.addr.toNat + 256 * (c.preN - 1) + 2048 * c.sched.length + 2 ^ 18 * c.beaconOfs

def Lane.read (x : Lane) (cyc : W32) (o : Nat) : Nat :=
  match o with
  | 0x00 => flag x.hostReq 0
  | 0x04 => x.state.code + 8 * x.nodeSt.code + flag x.host 5 + flag x.timeSkew 6 + flag x.deposed 7
      + flag x.schedMismatch 8 + flag x.tcMismatch 9 + flag x.hostBad 10 + 2048 * x.clashCnt.toNat
      + 2 ^ 14 * x.headRank.toNat
  | 0x08 => x.cfg.word
  | 0x0C => x.epoch.toNat
  | 0x10 => x.cfg.schedId.toNat
  | 0x14 => if x.state = .node then x.lastCyc.toNat else (cyc + x.laneOfs).toNat
  | 0x18 => x.laneOfs.toNat
  | 0x1C => x.absent.toNat / 2 * 2
  | 0x20 => x.alarm.toNat / 2 * 2
  | 0x300 => x.acOp.toNat + 4 * x.acNode.toNat + 256 * x.acSub.toNat + 65536 * x.acObj.toNat
  | 0x304 => x.acOfs.toNat + 65536 * x.acCount.toNat
  | 0x308 => flag x.acBusy 0 + flag x.acDone 1 + 4 * x.acResult.toNat + 32 * x.acRcount.toNat
  | 0x30C => x.cfg.hostBase.toNat
  | _ =>
    if 0x100 ≤ o && o < 0x300 then
      let w := ((x.cfg.sched[(o - 0x100) / 8]?).map SchedEntry.word).getD 0
      if o % 8 = 0 then w % 2 ^ 32 else w / 2 ^ 32
    else if 0x400 ≤ o && o < 0x600 then leNat (sliceBytes x.acData.toList (o - 0x400) 4)
    else cntRead x.cnt 0x40 o

/-- Bytes laid into a table of bytes. -/
def putBytes {n : Nat} (v : Vector Byte n) (a : Nat) (l : List Byte) : Vector Byte n :=
  vmap v fun i b => if a ≤ i && i < a + l.length then (l[i - a]?).getD b else b

def Die.writeLane (l o : Nat) (v : W32) (d : Die) : Die :=
  match o with
  | 0x00 =>
    let d := d.mbHostReq l (bit v 0)
    let d := if bit v 1 then d.mbRestart l else d
    if bit v 2 then d.mbClrCnt l else d
  | 0x04 => d.updLane l fun x =>
      { x with timeSkew := w1c x.timeSkew v 6, deposed := w1c x.deposed v 7, schedMismatch := w1c x.schedMismatch v 8,
               tcMismatch := w1c x.tcMismatch v 9, hostBad := w1c x.hostBad v 10 }
  | 0x20 => d.updLane l fun x =>
      { x with alarm := x.alarm &&& ~~~(fld 17 v 0) }
  | 0x300 =>
    let put (d : Die) : Die := d.updLane l fun x =>
      { x with acOp := fld 2 v 0, acNode := fld 5 v 2, acSub := fld 8 v 8, acObj := fld 16 v 16 }
    if bit v 7 then
      let e := (put d.accept).acycGo l
      if e.host.access = .ok then e else d.refuse
    else put d
  | 0x304 => if 504 < bits v 24 16 then d.refuse else d.updLane l fun x => { x with acOfs := fld 16 v 0, acCount := fld 9 v 16 }
  | 0x308 => d.updLane l fun x => { x with acDone := w1c x.acDone v 1 }
  | _ =>
    if 0x400 ≤ o && o < 0x600 then
      d.updLane l fun x => { x with acData := putBytes x.acData (o - 0x400) (leBytes 4 v.toNat) }
    else d

/-! CAN (R424-R427) -/

def CanSt.code : CanSt → Nat
  | .off => 0 | .init => 1 | .integrate => 2 | .active => 3 | .passive => 4 | .busoff => 5

def RefSt.code : RefSt → Nat
  | .off => 0 | .follow => 1 | .master => 2 | .stopped => 3

/-- The 80 bytes of a FIFO entry (R412). -/
def CanEntry.bytes (e : CanEntry) : List Byte :=
  leBytes 4 e.id.toNat ++ leBytes 4 e.fmt.toNat ++ leBytes 4 e.time.toNat ++ [0, 0, 0, 0] ++ sliceBytes e.data 0 64

/-- TXB_CTRL (R427). -/
def Can.txbCtrl (c : Can) (b : Fin 3) : Nat :=
  let t := c.buf b
  flag t.pending 2 + flag (decide (c.offer = .buf b)) 3 + 16 * t.result.toNat + flag t.done 7

def Can.refCfg (c : Can) : Nat :=
  flag c.cfg.refEn 0 + 2 * c.cfg.refRank.toNat + 16 * c.ref.code + 64 * c.cfg.refDly.toNat + 65536 * c.cfg.refPeriod.toNat

def Can.read (c : Can) (o : Nat) : Nat :=
  match o with
  | 0x00 => flag c.cfg.init 0 + flag c.cfg.txord 1 + flag c.rom 2 + flag c.mon 3 + flag c.cfg.pxd 4 + flag c.cfg.acceptAll 5
      + flag c.aloneSs 6 + flag c.direct 7
  | 0x04 => c.st.code + flag c.alone 3 + flag c.tdcRange 4 + flag c.refSkew 5 + flag c.directOn 6
  | 0x08 => c.cfg.nbt.toNat
  | 0x0C => c.cfg.dbt.toNat
  | 0x10 => c.cfg.tdc.toNat + 65536 * c.tdcv.toNat
  | 0x14 => c.tec % 512 + 512 * (c.rec' % 128) + flag (decide (127 < c.rec')) 16 + 2 ^ 17 * c.boCnt
  | 0x18 => c.refCfg
  | 0x1C => c.cfg.refId.toNat
  | 0x20 => c.refOfs.toNat
  | 0x24 => c.fifo.length + flag c.ovf 6
  | _ =>
    if 0x100 ≤ o && o < 0x220 then
      let b := Fin.ofNat 3 ((o - 0x100) / 0x60)
      let t := c.buf b
      match (o - 0x100) % 0x60 with
      | 0 => t.id.toNat
      | 4 => t.fmt.toNat
      | 8 => c.txbCtrl b
      | r => if 0x10 ≤ r && r < 0x50 then leNat (sliceBytes t.data (r - 0x10) 4) else 0
    else if 0x400 ≤ o && o < 0x500 then
      let f := (c.cfg.filters[(o - 0x400) / 8]?).getD {}
      if o % 8 = 0 then f.id.toNat else f.mask.toNat
    else if 0x800 ≤ o && o < 0x850 then
      match c.fifo with
      | [] => 0
      | e :: _ => leNat (sliceBytes e.bytes (o - 0x800) 4)
    else cntRead c.cnt 0x40 o

/-- The registers that the image sets, or direct mode (R421, R424, R425). -/
def CanCfg.put (o : Nat) (v : W32) (c : CanCfg) : CanCfg :=
  match o with
  | 0x00 => { c with init := bit v 0, txord := bit v 1, pxd := bit v 4, acceptAll := bit v 5 }
  | 0x08 => { c with nbt := fld 27 v 0 }
  | 0x0C => { c with dbt := fld 18 v 0 }
  | 0x10 => { c with tdc := fld 15 v 0 }
  | 0x18 => { c with refEn := bit v 0, refRank := fld 3 v 1, refDly := fld 10 v 6, refPeriod := fld 16 v 16 }
  | 0x1C => { c with refId := fld 30 v 0 }
  | _ =>
    if 0x400 ≤ o && o < 0x500 then
      { c with filters := vmap c.filters fun f x =>
          if f = (o - 0x400) / 8 then (if o % 8 = 0 then { x with id := v } else { x with mask := v &&& 0x1FFFFFFF }) else x }
    else c

/-- R405, R406, R424: the values of a direct-mode write or an image record are allowed. -/
def CanCfg.range (c : CanCfg) (o : Nat) (v : W32) : Bool :=
  match o with
  | 0x08 => canNbtOk (fld 27 v 0)
  | 0x0C => canDbtOk (fld 18 v 0) && (!bit c.tdc 0 || bits v 4 0 ≤ 1)
  | 0x18 => bits v 15 6 ≤ 1000 && bits v 31 16 ≠ 0
  | _ => true

/-- A direct-mode write keeps what the loader checks on CAN_TDC (R32, R406). -/
def CanCfg.directOk (c : CanCfg) (o : Nat) (v : W32) : Bool :=
  c.range o v && (o ≠ 0x10 || canTdcOk c.dbt (fld 15 v 0))

/-- CAN_CTRL (R425): INIT acts by R423, the modes by their rules, REF_RESTART last. -/
def Die.writeCanCtrl (n : Nat) (v : W32) (d : Die) : Die :=
  if bit v 0 && (d.can n).st = .busoff then d.refuse
  else
    let d := d.updCan n fun c =>
      { c with cfg := { c.cfg with txord := bit v 1, pxd := bit v 4, acceptAll := bit v 5 }, aloneSs := bit v 6 }
    let d := if bit v 0 = (d.can n).cfg.init then d else d.canInit n (bit v 0)
    let d := ((d.canRom n (bit v 2)).canMon n (bit v 3)).canDirect n (bit v 7)
    if bit v 8 then d.canRefRestart n else d

/-- A register of R421: RW in direct mode while INIT = 1, RO otherwise. -/
def Die.writeCanCfg (n o : Nat) (v : W32) (d : Die) : Die :=
  let c := d.can n
  if !c.directOn then d
  else if !c.cfg.init then d.refuse
  else if !c.cfg.directOk o v then d.refuseWarn (d.uid 7 n)
  else d.updCan n fun c => { c with cfg := c.cfg.put o v }

/-- A write of a transmit buffer (R409, R424, R427). -/
def Die.writeTxb (n : Nat) (b : Fin 3) (r : Nat) (v : W32) (d : Die) : Die :=
  let pending := ((d.can n).buf b).pending
  if r = 8 then
    let done (d : Die) : Die := d.updCan n (Can.updBuf b fun t => { t with done := w1c t.done v 7 })
    if bit v 0 then
      let e := (done d.accept).canTxReq n b (bit v 1)
      if e.host.access = .ok then e else d.refuse
    else if bit v 1 then (done d).canTxAbort n b else done d
  else if r = 0 then
    if pending then d.refuse else d.updCan n (Can.updBuf b fun t => { t with id := v &&& 0x7FFFFFFF })
  else if r = 4 then
    if pending then d.refuse else d.updCan n (Can.updBuf b fun t => { t with fmt := fld 7 v 0 })
  else if 0x10 ≤ r && r < 0x50 then
    if pending then d.refuse
    else d.updCan n (Can.updBuf b fun t => { t with data := sliceBytes (overlay t.data (r - 0x10) (leBytes 4 v.toNat)) 0 64 })
  else d

def Die.writeCan (n o : Nat) (v : W32) (d : Die) : Die :=
  if o = 0 then d.writeCanCtrl n v
  else if o = 4 then d.updCan n fun c => { c with tdcRange := w1c c.tdcRange v 4, refSkew := w1c c.refSkew v 5 }
  else if o = 0x24 then d.updCan n fun c => { c with ovf := w1c c.ovf v 6 }
  else if o = 0x28 then (if bit v 0 then d.canRxPop n else d)
  else if 0x100 ≤ o && o < 0x220 then d.writeTxb n (Fin.ofNat 3 ((o - 0x100) / 0x60)) ((o - 0x100) % 0x60) v
  else if o = 8 || o = 0xC || o = 0x10 || o = 0x18 || o = 0x1C || (0x400 ≤ o && o < 0x500) then d.writeCanCfg n o v
  else d

/-! Time (R452-R456) -/

def TimeUnit.status (t : TimeUnit) : Nat :=
  flag t.locked 0 + flag t.token 1 + flag t.jumpRefused 2 + flag t.rateClamp 3 + flag t.epochStale 4 + flag t.qual 5
    + flag t.dieSkew 6 + flag (t.remaining.tdiv (2 ^ 32) ≠ 0) 7 + 256 * t.wrap8.toNat

def Trigger.cfgWord (t : Trigger) : Nat := t.mode.toNat + flag t.pol 2 + 256 * t.pw.toNat + 2 ^ 20 * t.cdiv.toNat

def Die.readTime (d : Die) (o : Nat) : Nat :=
  let t := d.time
  if 0x1000 ≤ o && o < 0x1100 then
    let g := d.trigger (Fin.ofNat 8 ((o - 0x1000) / 32))
    match o % 32 with
    | 0x00 => g.cfgWord
    | 0x04 => g.cmp.toNat
    | 0x08 => g.period.toNat
    | 0x0C => flag g.armed 0 + flag g.late 1 + flag g.active 2
    | 0x10 => g.cntLate.toNat
    | 0x14 => g.cntSkip.toNat
    | _ => 0
  else if 0x2000 ≤ o && o < 0x2100 then
    let c := vget d.capt (Fin.ofNat 8 ((o - 0x2000) / 32))
    match o % 32 with
    | 0x00 => c.edge.toNat + 4 * c.filt.toNat
    | 0x04 => c.fifo.length + flag c.ovf 3 + (match c.fifo with | [] => 0 | p :: _ => flag p.2 4)
    | 0x08 => (match c.fifo with | [] => 0 | p :: _ => p.1.toNat)
    | _ => 0
  else
    match o with
    | 0x04 => t.status
    | 0x08 => t.ns.toNat
    | 0x0C => t.frac.toNat
    | 0x10 => t.wrapLatch.toNat
    | 0x14 => t.rate.toNat
    | 0x18 => flag t.corrQual 0
    | 0x20 => (BitVec.ofInt 32 (t.remaining.tdiv (2 ^ 32))).toNat
    | 0x24 => t.jumpTh.toNat
    | 0x28 => t.slewPpm.toNat
    | 0x2C => t.epochSecLo.toNat
    | 0x30 => t.epochSecHi.toNat
    | 0x34 => t.epochNs.toNat
    | 0x3C => t.cycAlign.toNat + 2 ^ 18 * t.cycSlew.toNat
    | 0x40 => t.cycPhase.toNat
    | 0x44 => t.dieSkewNs.toNat
    | _ => cntRead t.cnt 0x50 o

/-- The RW registers of the time block that hold a value only; a new slew rate meets the clamp of R435 (R453). -/
def Die.putTime (o : Nat) (v : W32) (d : Die) : Die :=
  let t := d.time
  match o with
  | 0x18 => { d with time := { t with corrQual := bit v 0 } }
  | 0x24 => { d with time := { t with jumpTh := fld 24 v 0 } }
  | 0x28 => if bits v 8 0 = 0 || 500 < bits v 8 0 then d.refuseWarn d.uidTime else ({ d with time := { t with slewPpm := fld 9 v 0 } }).judgeRate
  | 0x2C => { d with time := { t with epochSecLo := v } }
  | 0x30 => { d with time := { t with epochSecHi := fld 16 v 0 } }
  | 0x34 => if 10 ^ 9 ≤ bits v 29 0 then d.refuse else { d with time := { t with epochNs := fld 30 v 0 } }
  | _ => d

/-- TRIG_CFG as written: a trigger set to OFF is not active (R448, R455). -/
def Trigger.putCfg (v : W32) (t : Trigger) : Trigger :=
  { t with mode := fld 2 v 0, pol := bit v 2, pw := fld 12 v 8, cdiv := fld 8 v 20,
           armed := t.armed && (bits v 1 0 = 1 || bits v 1 0 = 2), active := t.active && bits v 1 0 ≠ 0 }

/-- A write of a trigger register. What R448 asks of a PERIODIC or CYCLE trigger holds after every write, so the write
that would break it is refused (log entry 124). -/
def Die.writeTrig (k : Fin 8) (r : Nat) (v : W32) (d : Die) : Die :=
  match r with
  | 0x00 =>
    let t := (d.trigger k).putCfg v
    if t.pw = 0 || t.cdiv = 0 || (t.mode = 2 && t.badPeriod t.period) || (t.mode = 3 && d.img.cell.tc ≤ t.cmp.toNat) then d.refuse
    else d.updTrig k (Trigger.putCfg v)
  | 0x04 => d.writeTrigCmp k v
  | 0x08 =>
    let t := d.trigger k
    if t.mode = 2 && t.badPeriod v then d.refuse else d.updTrig k fun t => { t with period := v }
  | 0x0C => d.updTrig k fun t => { t with late := w1c t.late v 1 }
  | _ => d

def Die.writeCapt (k : Fin 8) (r : Nat) (v : W32) (d : Die) : Die :=
  match r with
  | 0x00 => { d with capt := vupd d.capt k fun c => { c with edge := fld 2 v 0, filt := fld 3 v 2 } }
  | 0x04 => { d with capt := vupd d.capt k fun c => { c with ovf := w1c c.ovf v 3 } }
  | 0x0C => if bit v 0 then d.captPop k else d
  | _ => d

def Die.writeTime (o : Nat) (v : W32) (d : Die) : Die :=
  if 0x1000 ≤ o && o < 0x1100 then d.writeTrig (Fin.ofNat 8 ((o - 0x1000) / 32)) (o % 32) v
  else if 0x2000 ≤ o && o < 0x2100 then d.writeCapt (Fin.ofNat 8 ((o - 0x2000) / 32)) (o % 32) v
  else
    match o with
    | 0x00 =>
      let d := if bit v 0 then d.grantStep else d
      if bit v 1 then d.clrTimeCnt else d
    | 0x04 =>
      { d with time := { d.time with jumpRefused := w1c d.time.jumpRefused v 2, rateClamp := w1c d.time.rateClamp v 3,
                                     dieSkew := w1c d.time.dieSkew v 6 } }
    | 0x14 => d.writeRate v
    | 0x1C => d.writeCorr v
    | 0x38 => d.writeEpochTag (fld 8 v 0)
    | _ => d.putTime o v

/-! Time ports (R457) -/

/-- The 8 bytes of a stamp (R442). -/
def Stamp.bytes (s : Stamp) : List Byte :=
  leBytes 4 s.ns.toNat ++ [s.wrap8, BitVec.ofNat 8 (s.messageType.toNat + flag s.oneStep 4)] ++ leBytes 2 s.sequenceId.toNat

/-- Word `i` of the oldest stamp of a FIFO; 0 when empty. -/
def stampWord (l : List Stamp) (i : Nat) : Nat :=
  match l with
  | [] => 0
  | s :: _ => leNat (sliceBytes s.bytes (4 * i) 4)

def EthPort.read (e : EthPort) (o : Nat) : Nat :=
  match o with
  | 0x00 => e.mode.toNat + flag e.anEn 2
  | 0x04 => flag e.link 0 + flag e.tsOvf 1 + flag e.roleSrc 2
  | 0x08 => flag e.hostReq 0
  | 0x0C => e.txLat.toNat + 65536 * e.rxLat.toNat
  | 0x10 => stampWord e.rxFifo 0
  | 0x14 => stampWord e.rxFifo 1
  | 0x18 => stampWord e.txFifo 0
  | 0x1C => stampWord e.txFifo 1
  | _ => cntRead e.cnt 0x40 o

/-- The registers of a port from the image (R457). -/
def EthPort.put (o : Nat) (v : W32) (e : EthPort) : EthPort :=
  match o with
  | 0x00 => { e with mode := fld 2 v 0, anEn := bit v 2 }
  | 0x08 => { e with hostReq := bit v 0 }
  | 0x0C => { e with txLat := fld 10 v 0, rxLat := fld 10 v 16 }
  | _ => e

def Die.writeEth (p : Fin 2) (o : Nat) (v : W32) (d : Die) : Die :=
  match o with
  | 0x04 => d.updPort p fun e => { e with tsOvf := w1c e.tsOvf v 1 }
  | 0x08 => d.updPort p (EthPort.put 8 v)
  | 0x20 => d.tsPop p (bit v 0) (bit v 1)
  | _ => d

end Sys2Proof.Machine
end

