-- ==== Sys2Proof/Machine/RegMap.lean ====
section
/-! DEFINITION. The BAR0 map of R567: which register of which block an offset names. -/

namespace Sys2Proof.Machine

/-- Where a BAR0 offset lies: a block, the number of the unit in it, and the offset in the unit. -/
inductive RegAt where
  /-- SYS, boot, image, QSPI and DMA registers and the MSI-X table, by offset in the SYS block. -/
  | sys (o : Nat)
  | pwr (o : Nat)
  | time (o : Nat)
  | lane (l o : Nat)
  | can (n o : Nat)
  | eth (p o : Nat)
  | axis (a o : Nat)
  | pwm
  | enc (k o : Nat)
  | eng (e o : Nat)
  /-- Joint slot i = 2e + slot of a cluster. -/
  | joint (cl i o : Nat)
  | region (w o : Nat)
  | sep (o : Nat)
  | qrc (o : Nat)
  | red (o : Nat)
  | mon (o : Nat)
  | sec (o : Nat)
  | cellView (o : Nat)
  /-- A range that the map marks reserved. -/
  | reserved
  /-- An offset inside a block that no table assigns. -/
  | hole
  deriving DecidableEq, Repr

/-- The port of a register is one that the image names; a register of no port always is (R14). -/
def RegAt.portUsed (p : PinsSec) : RegAt → Bool
  | .lane l _ => p.lanes.contains l
  | .can n _ => p.cans.contains n
  | .eth q _ => p.eths.contains q
  | .enc k _ => p.encs.contains k
  | _ => true

/-- An offset of the AX and ENC block (R246, R286). -/
def regAx (o : Nat) : RegAt :=
  if o < 0x1000 then .axis (o / 0x100) (o % 0x100)
  else if o = 0x1000 then .pwm
  else if 0x8000 ≤ o && o < 0x9000 then .enc ((o - 0x8000) / 0x100) (o % 0x100)
  else .hole

/-- An offset of the cluster blocks: engines at 0x1000, joints at 0x8000 (R213, R324). -/
def regCluster (o : Nat) : RegAt :=
  let cl := o / 0x10000
  let r := o % 0x10000
  if 0x1000 ≤ r && r < 0x1500 then .eng (cl * 5 + (r - 0x1000) / 0x100) (r % 0x100)
  else if 0x8000 ≤ r && r < 0x8800 then .joint cl ((r - 0x8000) / 0x100) (r % 0x100)
  else .hole

/-- R567. -/
def decodeReg (off : Nat) : RegAt :=
  let o := off % 0x100000
  match off / 0x100000 with
  | 0 => .sys o
  | 1 => .pwr o
  | 2 => .time o
  | 3 => if o < 0x8000 then .lane (o / 0x1000) (o % 0x1000) else .hole
  | 4 => if o < 0x40000 then .can (o / 0x10000) (o % 0x10000) else .hole
  | 5 => if o < 0x20000 then .eth (o / 0x10000) (o % 0x10000) else .hole
  | 6 => regAx o
  | 8 => regCluster o
  | 32 => .sep o
  | 33 => .qrc o
  | 34 => .red o
  | 35 => .mon o
  | 36 => .sec o
  | b =>
    if 16 ≤ b && b < 20 then .region (b - 16) o
    else if 48 ≤ b && b < 64 then .cellView (off - 0x3000000)
    else .reserved

/-- The joint that the image puts in slot i = 2e + slot of a cluster. -/
def Die.jointAt (d : Die) (cl i : Nat) : Option Nat :=
  (List.range 128).find? fun j =>
    let x := d.jnt j
    x.used && x.cfg.cluster = cl && 2 * x.cfg.engine + x.cfg.slot = i

/-- The BAR0 offset of a joint's register. -/
def jointReg (cl e slot o : Nat) : Nat := 0x800000 + cl * 0x10000 + 0x8000 + (2 * e + slot) * 0x100 + o
def axisReg (a o : Nat) : Nat := 0x600000 + a * 0x100 + o
def encReg (k o : Nat) : Nat := 0x608000 + k * 0x100 + o
def canReg (n o : Nat) : Nat := 0x400000 + n * 0x10000 + o
def laneReg (l o : Nat) : Nat := 0x300000 + l * 0x1000 + o
def ethReg (p o : Nat) : Nat := 0x500000 + p * 0x10000 + o
def regionReg (w o : Nat) : Nat := 0x1000000 + w * 0x100000 + o
def engReg (e o : Nat) : Nat := 0x801000 + e / 5 * 0x10000 + e % 5 * 0x100 + o
def queueReg (q o : Nat) : Nat := 0x2110000 + q * 32 + o
def trigReg (k o : Nat) : Nat := 0x201000 + k * 32 + o
def captReg (k o : Nat) : Nat := 0x202000 + k * 32 + o
def timeReg (o : Nat) : Nat := 0x200000 + o
def sepReg (o : Nat) : Nat := 0x2000000 + o

/-- The power domain that holds a register (R541, R567). -/
def RegAt.domain : RegAt → Nat
  | .sys o =>
    if o < 0x1000 then 27 else if o < 0x2000 then 0 else if o < 0x4000 then 1 else if o < 0x8000 then 27 else 32
  | .pwr _ => 0
  | .time _ => 1
  | .lane _ _ => 28
  | .can _ _ => 29
  | .eth p _ => 30 + p
  | .axis _ _ => 33
  | .pwm => 33
  | .enc _ _ => 33
  | .eng e _ => 2 + e / 5
  | .joint cl _ _ => 2 + cl
  | .region w _ => 18 + w
  | .sep _ => 26
  | .qrc _ => 27
  | .red _ => 27
  | .mon o => if o < 0x1000 then 1 else if o < 0x2000 then 27 else 35
  | .sec _ => 1
  | _ => 0

end Sys2Proof.Machine
end

