-- ==== Sys2Proof/Machine/Place.lean ====
section
/-! DEFINITION. The sections of an image, and what their placement makes of a die (chapter 16). -/

namespace Sys2Proof.Machine

/-! Section types (R496) -/

def secCell : Nat := 1
def secPins : Nat := 2
def secPower : Nat := 3
def secQueue : Nat := 4
def secProg : Nat := 5
def secData : Nat := 6
def secTemplate : Nat := 7
def secPblk : Nat := 8
def secAblk : Nat := 9
def secPlan : Nat := 10
def secGeom : Nat := 11
def secLane : Nat := 12
def secRegsF : Nat := 13
def secRegsB : Nat := 14

/-- The content of the last section with a TYPE and INST. -/
def secOf (l : List ImgSec) (type inst : Nat) : Option (List Byte) :=
  (l.reverse.find? fun s => s.type = type && s.inst = inst).map (·.body)

/-- The register records of a section (R497): BAR0 offset and value. -/
def regRecords (b : List Byte) : List (Nat × W32) :=
  (List.range (b.length / 8)).map fun i => (fieldAt b (8 * i) 4, BitVec.ofNat 32 (fieldAt b (8 * i + 4) 4))

/-- The register records of all sections of a type, in table order. -/
def recordsOf (l : List ImgSec) (type : Nat) : List (Nat × W32) :=
  (l.filter fun s => s.type = type).flatMap fun s => regRecords s.body

/-- TEMPLATE: the record, which the last six words of the content follow (R496). -/
def tmplRecord (b : List Byte) : List Byte := b.take (b.length - 24)

/-- The image values of RGN_SPEC_LEAD to RGN_TAIL as offset and word. -/
def tmplWords (b : List Byte) : List (Nat × W32) :=
  (List.range 6).map fun i => (0x0C + 4 * i, BitVec.ofNat 32 (fieldAt b (b.length - 24 + 4 * i) 4))

/-- A LANE section: MB_LANE_CFG, then the schedule entries (R379, R398, R496). -/
def parseLane (b : List Byte) : LaneCfg :=
  let w := fieldAt b 0 4
  let n := w / 2048 % 128
  { node := w % 2 = 1, rank := BitVec.ofNat 2 (w / 2), addr := BitVec.ofNat 5 (w / 8), preN := w / 256 % 8 + 1,
    beaconOfs := w / 2 ^ 18 % 1024,
    sched := (List.range n).map fun i => SchedEntry.ofWord (fieldAt b (4 + 8 * i) 8),
    schedId := if n = 0 then 0 else crc32c (sliceBytes b 4 (8 * n)) }

/-- The program of a role: its PROG section and the DATA sections of its engine (R496). -/
def roleOf (l : List ImgSec) (r : Nat) : Option RoleProg :=
  ((secOf l secProg r).bind (Config.parseProg r)).map fun p =>
    { p with role := r, data := (l.filter fun s => s.type = secData && s.inst = r).map fun s => (s.addr, s.body) }

/-- An accepted quaternion at unit length, each component to nearest (R115). -/
def Quat.normalised (q : Quat) : Quat :=
  let n : Nat := (q.w * q.w + q.x * q.x + q.y * q.y + q.z * q.z).toNat
  let root : Rat := ratSqrtDown 80 (n : Rat)
  let f (c : Int) : Int := toQ 30 ((c : Rat) / root)
  { w := f q.w, x := f q.x, y := f q.y, z := f q.z }

/-- The region whose clusters CELL gives an arm's first joint (R18). -/
def CellSec.armRegion (c : CellSec) (a : Nat) : Nat := ((c.joints.find? (·.arm = a)).map (·.cluster / 4)).getD 0

/-- The joints of a role whose data a queue carries (R151, R310, R376). An RX queue of an encoder port carries that
of every joint of its engine: the image names none (R289, log entry 119). -/
def CellSec.queueJoints (c : CellSec) (q : QueueDecl) (r : Nat) : List JointDecl :=
  c.joints.filter fun j => j.cluster * 5 + j.engine = r &&
    (match q.cls with
     | .rx => bits q.prod 13 10 ≠ 6 || bits q.prod 9 0 = j.lane
     | .sp => bits q.prod 9 0 = j.cluster / 4
     | .pg => sameUnit q.prod (uidJoint j.joint)
     | .hs => q.feeds = some (uidJoint j.joint)
     | _ => false)

/-- The small axes of a role whose data a queue carries, likewise. -/
def CellSec.queueAxes (c : CellSec) (q : QueueDecl) (r : Nat) : List AxisDecl :=
  c.axes.filter fun a => a.cluster * 5 + a.engine = r &&
    (match q.cls, q.feeds with
     | .rx, _ => bits q.prod 13 10 ≠ 6
     | .hs, some u => sameUnit u (uid 0 9 a.axis)
     | _, _ => false)

/-- The binding of a port: the end of its queue as the queue's UIDs give it, the latest F_START of the class F joints
and axes whose data a consumer port's queue carries, and the entries of a group (R310, R311). -/
def PortDecl.bind (c : CellSec) (qs : List QueueDecl) (p : PortDecl) : PortBind :=
  let b : PortBind := { eng := p.eng, port := p.port, queue := p.queue, consumer := false, waitNs := p.waitNs,
                        tofs := p.tofs, fStart := none, entries := 1 }
  match qs.find? (·.num = p.queue) with
  | none => b
  | some q =>
    let js := c.queueJoints q p.eng
    { b with consumer := sameUnit q.cons (roleUid p.eng)
             fStart := (((js.filter (·.classF)).map (·.fStart)) ++ (c.queueAxes q p.eng).map (·.fStart)).max?
             entries := if q.cls = .sp || (q.cls = .rx && bits q.prod 13 10 = 6) then js.length else 1 }

/-- The geometry with its accepted quaternions normalised (R115), each arm in the region that CELL gives it. -/
def GeomSec.normalised (c : CellSec) (g : GeomSec) : GeomSec :=
  { g with arms := g.arms.map fun a =>
      { a with region := c.armRegion a.arm, baseRot := a.baseRot.normalised,
               links := a.links.map fun k => { k with rot := k.rot.normalised } } }

/-- A PINS section: ball records, then the functions of ports (R496, R627; log entry 8). -/
def parsePins (b : List Byte) : Option PinsSec :=
  (Config.parsePorts b).map fun p => { p with balls := ballRecords (Config.pinsRecords b) b }

/-- What an image says, section by section. -/
structure Parts where
  cell : CellSec
  pins : PinsSec
  power : List PowerDecl
  queues : List QueueDecl
  ports : List PortBind
  geom : GeomSec
  progs : List RoleProg
  /-- Records of REGS_F, then those of REGS_B. -/
  regs : List (Nat × W32)
  deriving DecidableEq, Repr

/-- The sections read; none where one that the image needs is absent or cannot be read. -/
def partsOf (l : List ImgSec) : Option Parts := do
  let cell ← (secOf l secCell 0xFFFF).bind Config.parseCell
  let pins ← (secOf l secPins 0xFFFF).bind parsePins
  let power ← (secOf l secPower 0xFFFF).bind Config.parsePower
  let queue ← (secOf l secQueue 0xFFFF).bind Config.parseQueue
  let geom ← (secOf l secGeom 0xFFFF).bind Config.parseGeom
  some { cell := cell, pins := pins, power := power, queues := queue.1, ports := queue.2.map (PortDecl.bind cell queue.1), geom := geom.normalised cell,
         progs := (List.range 80).filterMap (roleOf l),
         regs := recordsOf l secRegsF ++ recordsOf l secRegsB }

/-! Registers from records (R497) -/

/-- The fields of a register that the image sets: whether they are RO (REGS_F), and their mask. -/
def imgField : RegAt → Option (Bool × W32)
  | .sys o => if o = 0x2018 then some (true, 0x0FFFFFFF) else none
  | .time o =>
    if o = 0x24 then some (false, 0x00FFFFFF) else if o = 0x28 then some (false, 0x1FF)
    else if o = 0x3C then some (true, 0x01FFFFFF) else none
  | .lane _ o => if o = 0x30C then some (true, 0x0FFFFFFF) else none
  | .can _ o =>
    match o with
    | 0x00 => some (false, 0x33)
    | 0x08 => some (true, 0x07FFFFFF)
    | 0x0C => some (true, 0x3FFFF)
    | 0x10 => some (true, 0x7FFF)
    | 0x18 => some (true, 0xFFFFFFCF)
    | 0x1C => some (true, 0x3FFFFFFF)
    | _ =>
      if 0x400 ≤ o && o < 0x500 && o % 4 = 0 then some (true, if o % 8 = 0 then 0xFFFFFFFF else 0x1FFFFFFF) else none
  | .eth _ o =>
    match o with
    | 0x00 => some (true, 0x7)
    | 0x08 => some (false, 0x1)
    | 0x0C => some (true, 0x03FF03FF)
    | _ => none
  | .axis _ o =>
    match o with
    | 0x08 => some (true, 0xFFFF03FF)
    | 0x44 => some (false, 0xFFFFFFFF)
    | 0x48 => some (false, 0x00FFFFFF)
    | 0x4C => some (false, 0xFFFF)
    | 0x50 => some (false, 0x1FFF)
    | 0x70 => some (false, 0x7)
    | 0x88 => some (false, 0xF)
    | _ =>
      if o % 4 = 0 && ((0x20 ≤ o && o ≤ 0x40) || (0x74 ≤ o && o ≤ 0x84)) then some (false, 0xFFFFFFFF) else none
  | .pwm => some (true, 0x00FF1FFF)
  | .enc _ o =>
    match o with
    | 0x08 => some (true, 0xFFFF0FFF)
    | 0x0C => some (true, 0x1F7FFF)
    | 0x10 => some (true, 0xFFFF03FF)
    | 0x14 => some (true, 0xFFFF3FFF)
    | 0x18 => some (false, 0x00FFFFFF)
    | 0x3C => some (true, 0xFFFFFFFF)
    | _ => none
  | .joint _ _ o =>
    if o = 0x48 then some (false, 0xFF01)
    else if o = 0x5C then some (false, 0x00FFFFFF)
    else if o % 4 = 0 && ((0x14 ≤ o && o ≤ 0x28) || (0x30 ≤ o && o ≤ 0x58)) then some (false, 0xFFFFFFFF)
    else none
  | .mon o =>
    match o with
    | 0x04 => some (false, 0xFFFF)
    | 0x0C => some (false, 0xFFFFFFFF)
    | 0x14 => some (false, 0xFF)
    | _ => if 0x2010 ≤ o && o < 0x2020 && o % 4 = 0 then some (true, 0x07FFFFFF) else none
  | _ => none

/-- MON_AVS_CFG bounds, MON_PWR_CAP and MON_T_WARN (R610, R611). -/
def Mon.putImg (o : Nat) (v : W32) (m : Mon) : Mon :=
  match o with
  | 0x04 => { m with vSwMin := fld 8 v 0, vSwMax := fld 8 v 8 }
  | 0x0C => { m with pwrCap := fld 16 v 0, pwrCapOfs := fld 16 v 16 }
  | 0x14 => { m with tWarn := fld 8 v 0 }
  | _ => m

/-- SAFE_IN_CFG (R612); a used input starts in Load (R605). -/
def SafeIn.putCfg (v : W32) (x : SafeIn) : SafeIn :=
  { x with arms := fld 16 v 0, stop := fld 2 v 16, discMs := fld 8 v 18, en := bit v 26,
           state := if bit v 26 then .load else .clear }

/-- The register that a record names takes the record's value (R497, R507). -/
def Die.putImg (off : Nat) (v : W32) (d : Die) : Die :=
  match decodeReg off with
  | .sys _ => { d with img := { d.img with pushBase := fld 28 v 0 } }
  | .time o =>
    if o = 0x3C then { d with time := { d.time with cycAlign := fld 18 v 0, cycSlew := fld 7 v 18 } } else d.putTime o v
  | .lane l _ => d.updLane l fun x => { x with cfg := { x.cfg with hostBase := fld 28 v 0 } }
  | .can n o => d.updCan n fun c => { c with cfg := c.cfg.put o v, image := c.image.put o v }
  | .eth p o => d.updPort (Fin.ofNat 2 p) (EthPort.put o v)
  | .axis a o =>
    if o = 8 then d.updAxis a (Axis.putCfg v)
    else if o = 0x88 then d.updAxis a fun x => { x.putPol (fld 3 v 0) with limEn := bit v 3 }
    else d.updAxis a (Axis.put o v)
  | .pwm => { d with pwm := { d.pwm with top := fld 13 v 0, stepPw := fld 8 v 16 } }
  | .enc k o =>
    if o = 0x18 then d.updEnc k fun x => { x with regs := { x.regs with lines := fld 24 v 0 } }
    else d.updEnc k fun x => { x with cfg := x.cfg.put o v }
  | .joint cl i o =>
    match d.jointAt cl i with
    | none => d
    | some j => d.updJnt j fun x => { x with regs := x.regs.put o v }
  | .mon o =>
    if 0x2010 ≤ o && o < 0x2020 then d.updSafe (Fin.ofNat 4 ((o - 0x2010) / 4)) (SafeIn.putCfg v)
    else { d with mon := d.mon.putImg o v }
  | _ => d

/-- The unit of a register is one that the image uses; the image's fields of other units read 0 (R14, R498). -/
def regUsed (c : CellSec) (p : PinsSec) : RegAt → Bool
  | .lane l _ => p.lanes.contains l
  | .can n _ => p.cans.contains n
  | .eth q _ => p.eths.contains q
  | .axis a _ => c.axes.any (·.axis = a)
  | .enc k _ => p.encs.contains k
  | _ => true

/-- A register record takes effect (R497, R498). -/
def Die.takeRecord (d : Die) (x : Nat × W32) : Die :=
  if regUsed d.img.cell d.img.pins (decodeReg x.1) then d.putImg x.1 x.2 else d

/-! Placement (R498, R503) -/

/-- The service of a joint as CELL declares it, with its cluster's phase (R15). -/
def CellSec.jointCfg (c : CellSec) (x : JointDecl) : JointCfg :=
  { arm := x.arm, cluster := x.cluster, engine := x.engine, slot := x.slot, period := x.period,
    phase := ((c.families[x.cluster]?).map (·.2)).getD 0, classF := x.classF,
    fStart := BitVec.ofNat 14 (x.fStart / 16), fOut := BitVec.ofNat 14 (x.fOut / 16), outVel := x.outType = 1,
    lawBase := x.lawBase, library := x.library, qsTmaxMs := x.qsTmaxMs, lane := x.lane, node := x.node, jidx := x.jidx }

/-- The joints of the image; every one starts in HOLD with source HOLD (R185). -/
def CellSec.jointTable (c : CellSec) : Vector Joint 128 :=
  vmap (Vector.replicate 128 ({} : Joint)) fun j x =>
    match c.joints.find? (·.joint = j) with
    | none => x
    | some y => { x with used := true, cfg := c.jointCfg y, regs := { x.regs with deltaMax := BitVec.ofNat 24 (4 * c.tc) } }

/-- The small axes of the image, at rest; the others are OFF (R13, R14). -/
def CellSec.axisTable (c : CellSec) (per : Nat) : Vector Axis 16 :=
  vmap (Vector.replicate 16 ({} : Axis)) fun a x =>
    match c.axes.find? (·.axis = a) with
    | none => x
    | some y =>
      let cfg : AxCfg := { fStart := BitVec.ofNat 14 (y.fStart / 16), fOut := BitVec.ofNat 14 (y.fOut / 16),
                           library := y.library, thermBase := y.thermBase }
      { x with state := .rest, safe := false, lastTick := per, cfg := cfg }

/-- The queues of the image (R149). -/
def queueTable (l : List QueueDecl) : Vector Queue 1024 :=
  vmap (Vector.replicate 1024 ({} : Queue)) fun q x =>
    match l.find? (·.num = q) with
    | none => x
    | some y => y.queue

/-- An engine as the image in force has it: the header of the role of its own slot (R324). -/
def Engine.ofImage (l : List RoleProg) (e : Nat) : Engine :=
  match l.find? (·.role = e) with
  | some p => ({} : Engine).takeHeader 0xFFFF p
  | none => {}

/-- The structure of the image: what CELL, PINS, QUEUE, PROG and GEOM fix. -/
def Die.placeStructure (p : Parts) (d : Die) : Die :=
  { d with
    img := { d.img with cell := p.cell, ports := p.ports, pins := p.pins, progs := p.progs }
    joints := p.cell.jointTable
    axes := d.keepPins (p.cell.axisTable d.time.per)
    encs := Vector.replicate 16 {}
    cans := Vector.replicate 4 {}
    lanes := Vector.replicate 8 {}
    qrc := { queues := queueTable p.queues }
    eng := vmap (Vector.replicate 80 ({} : Engine)) fun e _ => { Engine.ofImage p.progs e with fresh := true }
    cairnSel := Vector.replicate 80 false
    cairnState := Vector.replicate 80 {}
    regions := Vector.replicate 4 {}
    sep := { geom := p.geom, sensors := vmap d.sep.sensors fun _ x => x.kept }
    safe := {}
    pwm := { start := d.time.per }
    eth := vmap d.eth fun _ x => { ({} : EthPort) with link := x.link }
    host := { d.host with nodeId := BitVec.ofNat 12 p.cell.nodeId }
    time := { d.time with jumpTh := 1000, slewPpm := 100, cycSlew := 4 }
    mon := { d.mon with duty := 16, pwrCap := 0, pwrCapOfs := 0, vSwMin := 0, vSwMax := 0, tWarn := tWarnDefault } }

/-- A region's sections in its store, with the rest of it 0, and its registers (R65, R80, R106). -/
def Die.placeRegion (l : List ImgSec) (w : Nat) (d : Die) : Die :=
  match secOf l secTemplate w with
  | none => d
  | some b =>
    let m := d.sram.erase (storeBase w) 0x400000
    let m := m.write 0 (storeBase w) (tmplRecord b)
    let m := m.write 0 (storeBase w + 0x4000) ((secOf l secPblk w).getD [])
    let m := m.write 0 (storeBase w + 0x224000) ((secOf l secAblk w).getD [])
    let regs := (tmplWords b).foldl (fun (r : RegionCfg) x => r.put x.1 x.2) {}
    let t := parseTmpl (tmplRecord b)
    { d with sram := m }.updRegion w fun _ =>
      { state := .idle, regs := regs, act := regs, cur := t.rhoInit = 1, factCyc := BitVec.ofNat 32 t.factCycles }

/-- The lanes that the image uses. -/
def Die.placeLanes (l : List ImgSec) (d : Die) : Die :=
  let now := d.time.ns
  { d with
    lanes := vmap d.lanes fun n x =>
      match secOf l secLane n with
      | none => x
      | some b =>
        let c := parseLane b
        Lane.place { c with hostBase := x.cfg.hostBase,
                            objs := ((d.img.pins.nodeObjs.find? (·.1 = n)).map (·.2)).getD [] } now }

/-- The CAN controllers that the image uses. -/
def Die.placeCans (d : Die) : Die :=
  { d with cans := vmap d.cans fun n x => if d.img.pins.cans.contains n then x.place x.cfg else x }

/-- The encoder ports that the image uses. -/
def Die.placeEncs (d : Die) : Die :=
  let now := d.time.ns
  { d with encs := vmap d.encs fun k x => if d.img.pins.encs.contains k then Enc.place x.cfg x.regs now (d.encRaw k) else x }

/-- Every port with the settings placed in it. -/
def Die.placePorts (l : List ImgSec) (d : Die) : Die :=
  let d := ((d.placeLanes l).placeCans).placeEncs
  { d with eth := vmap d.eth fun _ x => { x with host := x.hostReq } }

/-- Every section of an image placed in a die (R468, R503). -/
def Die.placeSecs (l : List ImgSec) (p : Parts) (d : Die) : Die :=
  let d := d.placeStructure p
  let d := p.regs.foldl Die.takeRecord d
  let d := { d with joints := vmap d.joints fun _ x => x.boundary }
  let d := (List.range 4).foldl (fun d w => d.placeRegion l w) d
  let d := p.progs.foldl (fun d g => d.loadPartitions (Fin.ofNat 80 g.role) g) d
  d.placePorts l

/-- Every unit of a domain that is ON enters RESET (R460, R503). -/
def Die.resetUnits (d : Die) : Die :=
  let units := [0, 1, 2, 3, 4, 5, 6, 7, 8, 9, 10, 13, 15].flatMap fun k => (List.range (kindCount k)).map fun i => (k, i)
  units.foldl (fun d u =>
    d.updUnit u.1 u.2 fun _ => { state := if d.awake (unitDom u.1 u.2) then .reset else .off }) d

/-- Every unit returns to OFF, and nothing of an image is in force (R503): the grant goes, and the die is a standby
once the other one has it (R474). -/
def Die.unitsOff (d : Die) : Die :=
  let d := { d with red := { d.red with units := vmap d.red.units fun _ _ => {}, takes := [], grant := false, tk := .standby,
                                        handingOver := none } }
  { d with
    joints := Vector.replicate 128 {}
    axes := d.keepPins (Vector.replicate 16 {})
    encs := Vector.replicate 16 {}
    lanes := Vector.replicate 8 {}
    cans := Vector.replicate 4 {}
    qrc := {}
    eng := Vector.replicate 80 {}
    regions := Vector.replicate 4 {}
    sep := { sensors := vmap d.sep.sensors fun _ x => { x with state := .unused, frame := none, healthy := false } }
    time := { d.time with cycRun := false }
    img := { d.img with cell := {}, ports := [], pins := {}, progs := [], secs := [] } }.gateSync

/-! The POWER section (R496, R544) -/

/-- The POWER section at the start of pass 2: requests and WOA of every domain it names; those to be ON
wake one after the other, FAB and KEEP first (R544). -/
def Die.placePower (l : List PowerDecl) (d : Die) : Die :=
  let d := l.foldl (fun d x => d.updDom x.dom fun m => { m with req := BitVec.ofNat 2 x.req, woa := x.woa }) d
  let d := (l.filter fun x => x.req ≠ 2).foldl (fun d x =>
    let a := d.host.access
    (d.domRequest x.dom x.req).endAccess a) d
  let up := ([domFab, domKeep] ++ (l.filter fun x => x.req = 2 && (d.clk.sel || !domNeedsPll x.dom)).map (·.dom)).eraseDups
  let todo := up.filter fun i => !d.awake i && (d.dom i).state ≠ .waking && (d.dom i).state ≠ .unavailable
  let busy := d.coreWaking
  let d := { d with pwr := { d.pwr with wakeQueue := d.pwr.wakeQueue ++ todo } }
  if busy then d else d.nextWake

/-- A domain that the POWER section puts ON is still waking. -/
def Die.powerPending (l : List PowerDecl) (d : Die) : Bool :=
  l.any fun x => x.req = 2 && ((d.dom x.dom).state = .waking || (d.dom x.dom).resuming || d.pwr.wakeQueue.contains x.dom)

/-- A domain reaches ON from OFF while an image is in force: the registers of its units take their image
values (R460), a region's store its sections, queues, ports and axes their declared state (log entry 70). -/
def Die.domToImage (i : Nat) (d : Die) : Die :=
  if d.img.isEmpty then d
  else
    let d := if i = domFab then
        (match partsOf d.img.secs with
         | some p => { d with qrc := { queues := queueTable p.queues } }
         | none => d)
      else if i = domAxio then { d with axes := d.keepPins (d.img.cell.axisTable d.time.per), pwm := { start := d.time.per } } else d
    let d := (recordsOf d.img.secs secRegsF ++ recordsOf d.img.secs secRegsB).foldl (fun d x =>
      if (decodeReg x.1).domain = i then d.takeRecord x else d) d
    if 18 ≤ i && i < 22 then d.placeRegion d.img.secs (i - 18)
    else if i = domMbus then d.placeLanes d.img.secs
    else if i = domCan then d.placeCans
    else if i = domAxio then d.placeEncs
    else if i < 18 then
      { d with joints := vmap d.joints fun _ x => if x.cfg.cluster + 2 = i then x.boundary else x
               eng := vmap d.eng fun e x => if e / 5 + 2 = i then Engine.ofImage d.img.progs e else x }
    else d

/-- The first domain that the section puts ON and that is UNAVAILABLE (R546). -/
def Die.powerFailed (l : List PowerDecl) (d : Die) : Option Nat :=
  (l.find? fun x => x.req = 2 && (d.dom x.dom).state = .unavailable).map (·.dom)

end Sys2Proof.Machine
end

