-- ==== Sys2Proof/Machine/Loader.lean ====
section
/-! DEFINITION. The checks of the image loader: pass 1 (R492-R502, R505). -/

namespace Sys2Proof.Machine

/-- Why a load ends: RESULT, and what IMG_ERR and IMG_ERR_POS name (R511, R514). -/
structure LoadFail where
  result : Nat
  rule : Nat
  uid : W16 := uidNone
  pos : Nat := 0
  sec : Nat := 0
  deriving DecidableEq, Repr

/-- The RESULT codes of R514 that the checks give. -/
def resFormat : Nat := 1
def resTable : Nat := 2
def resCrc : Nat := 3
def resRollback : Nat := 7
def resPresence : Nat := 8
def resContent : Nat := 9
def resBase : Nat := 10
def resClass : Nat := 11
def resRest : Nat := 12
def resSourceChanged : Nat := 13
def resTimeout : Nat := 14
def resAborted : Nat := 15
def resTakeover : Nat := 16

/-! Steps 1 to 5: the container -/

def imgKind (b : List Byte) : Nat := fieldAt b 6 1
def imgTotal (b : List Byte) : Nat := fieldAt b 8 4
def imgSigOfs (b : List Byte) : Nat := fieldAt b 0xC 4
def imgNsec (b : List Byte) : Nat := fieldAt b 0x10 2
def imgSvn (b : List Byte) : Nat := fieldAt b 7 1
def imgBase (b : List Byte) : List Byte := sliceBytes b 0x20 48

/-- The image digest (R500). -/
def imgDigest (b : List Byte) : List Byte := sha384 (b.take (imgSigOfs b))

/-- Step 1 of R502: the header of R493 and the length of the source. -/
def headerOk (b : List Byte) : Bool :=
  let total := imgTotal b
  b.take 4 = [0x54, 0x43, 0x49, 0x4D] && fieldAt b 4 2 = 1 && imgKind b < 2 && 1 ≤ imgNsec b && imgNsec b ≤ 256 &&
    total % 16 = 0 && total ≤ (if imgKind b = 0 then 16777216 else 2097152) && imgSigOfs b % 16 = 0 &&
    total = imgSigOfs b + 5344 && fieldAt b 0x12 2 = 0xC128 && fieldAt b 0x14 1 = 0xB1 && total ≤ b.length &&
    0x80 + 32 * imgNsec b ≤ imgSigOfs b

/-- Entry i of the section table (R494), with its content. -/
def imgSec (b : List Byte) (i : Nat) : ImgSec :=
  let a := 0x80 + 32 * i
  { idx := i, type := fieldAt b a 2, inst := fieldAt b (a + 2) 2, ofs := fieldAt b (a + 4) 4, addr := fieldAt b (a + 0x10) 4,
    body := sliceBytes b (fieldAt b (a + 4) 4) (fieldAt b (a + 8) 4) }

def imgSecs (b : List Byte) : List ImgSec := (List.range (imgNsec b)).map (imgSec b)

/-- CRC fields of the table. -/
def imgCrc (b : List Byte) (i : Nat) : W32 := BitVec.ofNat 32 (fieldAt b (0x80 + 32 * i + 0xC) 4)

def align16 (n : Nat) : Nat := (n + 15) / 16 * 16

/-- Bytes from `a` to below `z` are 0. -/
def zeroBytes (b : List Byte) (a z : Nat) : Bool := (sliceBytes b a (z - a)).all (· = 0)

/-- INST names an instance of the type: an engine (one with a role for PROG), a region or a lane, or none (R494, R496). -/
def instOk (type inst : Nat) : Bool :=
  if type = secProg then inst < 80 && inst % 5 < 4
  else if type = secData then inst < 80
  else if secTemplate ≤ type && type ≤ secPlan then inst < 4
  else if type = secLane then inst < 8
  else inst = 0xFFFF

/-- An entry is valid by R494 and R495, where the section before it ends at `prev`. -/
def entryOk (b : List Byte) (prev : Nat) (s : ImgSec) : Bool :=
  let len := fieldAt b (0x80 + 32 * s.idx + 8) 4
  s.ofs % 16 = 0 && align16 prev ≤ s.ofs && (s.idx ≠ 0 || s.ofs = align16 prev) && s.ofs + len ≤ imgSigOfs b &&
    1 ≤ s.type && s.type ≤ 14 && instOk s.type s.inst && (s.type = secData || s.addr = 0) && s.addr % 4 = 0 &&
    fieldAt b (0x80 + 32 * s.idx + 0x14) 2 = 1 && zeroBytes b (0x80 + 32 * s.idx + 0x16) (0x80 + 32 * s.idx + 32) &&
    zeroBytes b prev s.ofs && (len ≠ 0 || s.type = secRegsF || s.type = secRegsB)

/-- Step 2 of R502: the first entry that breaks R494 or R495. -/
def tableBad (b : List Byte) : Nat → List ImgSec → Option Nat
  | prev, [] => if zeroBytes b prev (imgSigOfs b) then none else some (imgNsec b - 1)
  | prev, s :: r =>
    let twice := (imgSecs b).any fun x => x.idx < s.idx && x.type = s.type && x.inst = s.inst
    if entryOk b prev s && !twice then tableBad b (s.ofs + s.body.length) r else some s.idx

/-- Step 3 of R502: the first section whose CRC differs. -/
def crcBad (b : List Byte) : Option Nat :=
  ((imgSecs b).find? fun s => crc32c s.body ≠ imgCrc b s.idx).map (·.idx)

/-- Steps 1 to 5 of R502. -/
def Die.checkContainer (b : List Byte) (d : Die) : Option LoadFail :=
  let at' (i res rule : Nat) : LoadFail := { result := res, rule := rule, pos := 0x80 + 32 * i, sec := i }
  if !headerOk b then some { result := resFormat, rule := 493 }
  else match tableBad b (0x80 + 32 * imgNsec b) (imgSecs b) with
    | some i => some (at' i resTable 495)
    | none =>
      match crcBad b with
      | some i => some (at' i resCrc 494)
      | none =>
        match d.sec.checkSig (imgDigest b) (sliceBytes b (imgSigOfs b) 5344) with
        | 0 => if imgSvn b < d.sec.fused then some { result := resRollback, rule := 500, pos := 7 } else none
        | n => some { result := 3 + n, rule := 500, pos := imgSigOfs b }

/-! Step 6: presence (R498) -/

def Parts.roleUsed (p : Parts) (r : Nat) : Bool :=
  p.cell.joints.any (fun j => j.cluster * 5 + j.engine = r) || p.cell.axes.any (fun a => a.cluster * 5 + a.engine = r) ||
    p.ports.any (fun q => q.eng = r)

def Parts.regionUsed (p : Parts) (w : Nat) : Bool := p.cell.joints.any fun j => j.cluster / 4 = w

/-- The units whose sections of a type a full image carries, one each. -/
def Parts.wants (p : Parts) (type : Nat) : List Nat :=
  if type = secProg then (List.range 80).filter p.roleUsed
  else if type = secLane then (List.range 8).filter fun l => p.pins.lanes.contains l
  else (List.range 4).filter p.regionUsed

/-- UID of the unit that a section's INST names. -/
def secUid (d : Die) (type inst : Nat) : W16 :=
  if type = secProg || type = secData then d.uid 0 inst
  else if type = secLane then d.uid 6 inst
  else if 7 ≤ type && type ≤ 9 then d.uid 2 inst
  else if type = secPlan then d.uid 3 inst
  else uidNone

/-- The registers whose image values a used unit needs (R498), by BAR0 offset. -/
def Parts.needed (p : Parts) : List Nat :=
  let words (l : List Nat) (f : Nat → Nat) : List Nat := l.map f
  p.cell.joints.flatMap (fun j => words [0x14, 0x18, 0x1C, 0x20, 0x24, 0x28, 0x30, 0x34, 0x38, 0x3C, 0x40, 0x44, 0x48, 0x4C,
    0x50, 0x54, 0x58] fun o => jointReg j.cluster j.engine j.slot o) ++
  p.cell.axes.flatMap (fun a => words [0x08, 0x20, 0x24, 0x28, 0x2C, 0x30, 0x34, 0x38, 0x3C, 0x40, 0x44, 0x48, 0x4C, 0x50,
    0x88] fun o => axisReg a.axis o) ++
  (if p.cell.axes.isEmpty then [] else [0x601000]) ++
  p.pins.encs.flatMap (fun k => words [0x08, 0x0C, 0x10, 0x14, 0x18, 0x3C] fun o => encReg k o) ++
  p.pins.lanes.map (fun l => laneReg l 0x30C) ++
  p.pins.cans.flatMap (fun n => words ([0x00, 0x08, 0x0C, 0x10, 0x18, 0x1C] ++ (List.range 64).map fun i => 0x400 + 4 * i)
    fun o => canReg n o) ++
  p.pins.eths.flatMap (fun q => words [0x00, 0x08, 0x0C] fun o => ethReg q o) ++
  [0x20003C, 0x2300004, 0x230000C, 0x2302010, 0x2302014, 0x2302018, 0x230201C]

/-- The section is one of a unit that the image does not use (R498). -/
def Parts.sectionExtra (p : Parts) (s : ImgSec) : Bool :=
  ([secProg, secTemplate, secPblk, secAblk, secPlan, secLane].contains s.type && !(p.wants s.type).contains s.inst) ||
    (s.type = secData && !(p.wants secProg).contains s.inst)

/-- Step 6 for a full image: single sections, one per used unit, none for another (R498). -/
def Die.presenceBad (l : List ImgSec) (d : Die) : Option LoadFail :=
  let count (type inst : Nat) : Nat := (l.filter fun s => s.type = type && s.inst = inst).length
  let fail (u : W16) : Option LoadFail := some { result := resPresence, rule := 498, uid := u }
  if [secCell, secPins, secPower, secQueue, secGeom].any (fun t => count t 0xFFFF ≠ 1) then fail uidNone
  else match partsOf l with
    | none => none -- a section that cannot be read is judged in step 7
    | some p =>
      let types := [secProg, secTemplate, secPblk, secAblk, secPlan, secLane]
      let missing := types.flatMap fun t => ((p.wants t).filter fun i => count t i ≠ 1).map fun i => secUid d t i
      match missing, l.filter p.sectionExtra with
      | u :: _, _ => fail u
      | [], s :: _ => some { result := resPresence, rule := 498, uid := secUid d s.type s.inst, pos := 0x80 + 32 * s.idx, sec := s.idx }
      | [], [] =>
        if p.needed.all fun o => p.regs.any fun r => r.1 = o then none else fail uidNone

/-- R20, R31, R498: an update carries a section of a unit that the image in force does not use. -/
def Parts.updateExtra (p : Parts) (d : Die) (own : List ImgSec) : Option LoadFail :=
  (own.find? p.sectionExtra).map fun s =>
    { result := resPresence, rule := 498, uid := secUid d s.type s.inst, pos := 0x80 + 32 * s.idx, sec := s.idx }

/-! Step 7: the content -/

/-- A rule and the UID it concerns, where the rule is broken. -/
abbrev Broken := List (Nat × W16)

def need (ok : Bool) (rule : Nat) (u : W16) : Broken := if ok then [] else [(rule, u)]

/-- The end of an entry on the lane, E_i of R381, in ns. -/
def schedEnd (preN : Nat) (e : SchedEntry) : Nat :=
  let dq := (preN + 14 + e.pollLen) * 40
  4 * e.offset + dq + if e.cls = 0 || e.cls = 2 then 4 * e.deadline + (22 + e.replyLen) * 40 else 0

/-- The ranges of R379. -/
def SchedEntry.ok (e : SchedEntry) : Bool :=
  e.offset ≤ 62499 && e.cls ≤ 3 && e.pollLen ≤ 512 && e.replyLen ≤ 512 &&
    (if e.cls = 0 || e.cls = 2 then 215 ≤ e.deadline && e.deadline ≤ 4095 else e.deadline = 0 && e.replyLen = 0) &&
    (if e.cls = 3 then e.node = 0 else if e.cls = 2 then e.node ≤ 16 else 1 ≤ e.node && e.node ≤ 16)

/-- R381: offsets rise, each entry starts 270 ns after what is before it, the last ends in time. -/
def occupancyOk (preN tc : Nat) : Nat → List SchedEntry → Bool
  | free, [] => free ≤ tc - 500
  | free, e :: r => free + 270 ≤ 4 * e.offset && occupancyOk preN tc (schedEnd preN e) r

/-- A LANE section (R379-R381, R398). -/
def Parts.laneBroken (p : Parts) (l : Nat) (u : W16) (b : List Byte) : Broken :=
  let c := parseLane b
  let w := fieldAt b 0 4
  let joints (n : Nat) : Nat := (p.cell.joints.filter fun j => j.lane = l && j.node = n).length
  let beaconEnd := 4 * c.beaconOfs + (c.preN + 30) * 40
  let nodeTx (n : Nat) : Bool := p.queues.all fun q =>
    q.cls ≠ .tx || q.cons.toNat % 1024 ≠ l || bits q.cons 13 10 ≠ 6 || 2 ≤ q.hc ||
      !(p.cell.joints.any fun j => j.lane = l && j.node = n && bits q.prod 9 0 = j.cluster * 5 + j.engine)
  need (b.length = 4 + 8 * c.sched.length && c.sched.length ≤ 64 && w / 2 ^ 28 = 0) 398 u ++
  need (2 ≤ c.preN && c.beaconOfs ≤ 250 && (!c.node || (1 ≤ c.addr.toNat && c.addr.toNat ≤ 16))) 398 u ++
  need (c.sched.all SchedEntry.ok && (List.range c.sched.length).all fun i => fieldAt b (4 + 8 * i + 7) 1 = 0) 379 u ++
  let commanded (e : SchedEntry) : Bool := joints e.node ≠ 0
  let pollOk (e : SchedEntry) : Bool := if commanded e then e.pollLen = 8 * joints e.node else e.pollLen % 20 = 0
  let replyOk (e : SchedEntry) : Bool := e.replyLen % 12 = 0 && 12 * joints e.node ≤ e.replyLen && (!commanded e || e.replyLen ≤ 96)
  need (c.node || c.sched.all fun e => 1 < e.cls || pollOk e) 380 u ++
  need (c.node || c.sched.all fun e => 0 < e.cls || replyOk e) 380 u ++
  need (c.sched.all fun e => e.cls ≠ 1 || nodeTx e.node) 380 u ++
  need (occupancyOk c.preN p.cell.tc beaconEnd c.sched) 381 u

/-- The end of the POLL of a joint's node in its lane's schedule, in ns; 0 where it has none (R189). -/
def pollEnd (l : List ImgSec) (j : JointDecl) : Nat :=
  match secOf l secLane j.lane with
  | none => 0
  | some b =>
    let c := parseLane b
    match c.sched.find? fun e => e.cls = 0 && e.node = j.node with
    | none => 0
    | some e => 4 * e.offset + (c.preN + 14 + e.pollLen) * 40

/-- A PINS section: the records of R627 in ball order, R628 and R643, and the signals a used unit needs. -/
def Parts.pinsBroken (p : Parts) (d : Die) (b : List Byte) : Broken :=
  let l := p.pins.balls
  let has (s : Sig) : Bool := p.pins.uses s
  need (4 * l.length ≤ b.length && (l.zip (l.drop 1)).all fun x => x.1.key < x.2.key) 627 uidNone ++
  (l.flatMap fun r => need (p.pins.recordOk r) 628 uidNone ++ need r.laneOk 643 uidNone) ++
  (p.pins.lanes.flatMap fun n => need ([Sig.mblTxd n, .mblDe n, .mblRxd n].all has) 628 (d.uid 6 n)) ++
  (p.pins.cans.flatMap fun n => need ([Sig.canTx n, .canRx n].all has) 628 (d.uid 7 n)) ++
  (p.cell.axes.flatMap fun x =>
    let a := x.axis
    let homing := p.regs.any fun r => [0x70, 0x74, 0x78, 0x7C, 0x80, 0x84].any fun o => r.1 = axisReg a o
    need ([Sig.saOut a 0, .saOut a 1, .saOut a 2, .saOut a 3, .saFlt a].all has && (!homing || has (.saIn a 0)) &&
      (!(d.axis a).limEn || (has (.saIn a 1) && has (.saIn a 2)))) 628 (d.uid 9 a)) ++
  (p.pins.encs.flatMap fun k =>
    let x := d.enc k
    need ((x.cfg.mode ≠ 1 || (has (.encIn k 0) && has (.encIn k 1) && (x.regs.lines = 0 || has (.encIn k 2)))) &&
      (x.cfg.mode ≠ 2 || (has (.encIn k 0) && has (.encClk k))) &&
      (x.cfg.mode ≠ 3 || (has (.encIn k 0) && has (.encIn k 1))) &&
      (x.cfg.pt = 0 || [Sig.encOut k 0, .encOut k 1, .encOut k 2].all has)) 628 (d.uidEnc k)) ++
  ((List.range 4).flatMap fun j =>
    let x := (d.safe.inputs[j]?).getD {}
    need (!x.en || (has (.safeIn j false) && has (.safeIn j true))) 628 uidSafety)

/-- A CELL section (R38, R187, R189, R202, R652). -/
def Parts.cellBroken (p : Parts) (l : List ImgSec) : Broken :=
  let tc := p.cell.tc
  let wRun (r : Nat) : Nat := ((p.progs.find? (·.role = r)).map (·.wRun.toNat)).getD 0
  need (tc = 31250 || tc = 62500 || tc = 125000 || tc = 250000) 38 uidNone ++
  (p.cell.joints.flatMap fun j =>
    let u := uidJoint j.joint
    need (j.fStart < tc && j.fOut < tc && j.fStart % 16 = 0 && j.fOut % 16 = 0) 189 u ++
    need (!j.classF || (pollEnd l j + 1000 ≤ j.fOut && j.fStart + wRun (j.cluster * 5 + j.engine) + 500 ≤ tc + j.fOut)) 189 u ++
    need (j.outType < 2) 652 u) ++
  (p.cell.axes.flatMap fun a =>
    need (a.fStart < tc && a.fOut < tc && a.fStart % 16 = 0 && a.fOut % 16 = 0 &&
      a.fStart + wRun (a.cluster * 5 + a.engine) + 500 ≤ tc + a.fOut) 189 (uid 0 9 a.axis))

/-- The words per entry that a queue's class asks for (R191, R232, R274, R376, R652). -/
def QueueDecl.wordsOk (q : QueueDecl) : Bool :=
  match q.cls with
  | .sp | .pg | .hs | .rx => q.words = 4
  | .pw => q.words = 1
  | .tx => q.words ≤ 2
  | .ca => true

/-- The rule that gives those words. -/
def QueueDecl.wordsRule (q : QueueDecl) : Nat :=
  match q.cls with
  | .sp | .pg | .hs => 191
  | .rx => if bits q.prod 13 10 = 6 then 376 else 274
  | .pw => 232
  | _ => 652

/-- The ring of a queue whose consumer is an engine lies in the 48 KiB that the cluster's SRAM has for rings (R292). -/
def QueueDecl.ringOk (q : QueueDecl) : Bool :=
  let lo := 0x02032000 + bits q.cons 9 0 / 5 * 0x40000
  bits q.cons 13 10 ≠ 0 || (decide (lo ≤ q.base) && decide (q.base + q.depth * (4 * (q.words + 1)) ≤ lo + 0xC000))

/-- A QUEUE section (R149, R191, R232, R274, R292, R310-R312, R376, R652). -/
def Parts.queueBroken (p : Parts) (d : Die) : Broken :=
  let qs := p.queues
  let same (a b : QueueDecl) : Bool := a.num ≠ b.num &&
    (if a.cls = .hs && b.cls = .hs then a.feeds = b.feeds
     else a.cls ≠ .hs && a.cls = b.cls && a.prod = b.prod && a.cons = b.cons)
  let ca (r : Nat) : List QueueDecl := qs.filter fun q => q.cls = .ca && bits q.prod 13 0 = r
  let caOk (r : Nat) : Bool := (ca r).length = 1 && (ca r).all fun q => bits q.cons 13 0 = 15 * 1024 + 1
  (qs.flatMap fun q =>
    let u := d.uidQueue q.num
    need (q.num < 1024 && 1 ≤ q.depth && q.depth ≤ 256 && 1 ≤ q.words && q.words ≤ 32 && 1 ≤ q.lookout && q.lookout ≤ 256 &&
      1 ≤ q.hc && q.hc ≤ 16 && q.hc ≤ q.lookout && !(qs.any (same q)) &&
      (qs.filter fun x => x.num = q.num).length = 1 && (q.cls ≠ .hs || q.feeds.isSome)) 149 u ++
    need q.wordsOk q.wordsRule u ++ need q.ringOk 292 u) ++
  ((List.range 80).filter fun r => p.roleUsed r || p.progs.any fun g => g.role = r).flatMap
    (fun r => need (caOk r) 149 (d.uid 0 r)) ++
  (p.ports.flatMap fun b =>
    let lookout := ((qs.find? (·.num = b.queue)).map (·.lookout)).getD 0
    need (b.port < 16 && (qs.any fun q => q.num = b.queue && (b.consumer || sameUnit q.prod (roleUid b.eng))) &&
      !(p.ports.any fun x => x.eng = b.eng && x.port = b.port && x.queue ≠ b.queue)) 310 (d.uid 0 b.eng) ++
    need (!b.consumer || b.waitNs + 1000 ≤ p.cell.tc) 311 (d.uid 0 b.eng) ++
    need (b.consumer || b.tofs ≤ lookout) 312 (d.uid 0 b.eng))

/-- Bytes of the cairn record of a declaration (R313). -/
def RoleProg.recordLen (p : RoleProg) : Nat :=
  let ones (w : W32) (hi lo : Nat) : Nat := ((List.range (hi + 1 - lo)).filter fun i => bit w (lo + i)).length
  4 * ones p.rm0 15 0 + 12 * ones p.rm0 19 16 + 4 * (ones p.rm0 31 20 + ones p.rm1 31 0) +
    p.rng.toList.foldl (fun n r => n + r.toNat / 65536) 0

/-- Body bounds of the loops of a program: index of the instruction, level, last index (R342). -/
def progLoops (ops : List (Nat × EngOp)) : List (Nat × Nat × Nat) :=
  ops.filterMap fun x => match x.2 with
    | .loop lvl last => some (x.1, lvl.val, last.toNat)
    | .loopi lvl _ last => some (x.1, lvl.val, last.toNat)
    | _ => none

/-- R316, R341, R342: what loop bodies may hold and how they nest. -/
def loopsOk (ops : List (Nat × EngOp)) : Bool :=
  let loops := progLoops ops
  let opAt (i : Nat) : Option EngOp := (ops.find? (·.1 = i)).map (·.2)
  loops.all fun x =>
    let (at', lvl, last) := x
    let lastOk := match opAt last with
      | some .cairn | some (.endRun _) | some (.waitq _) | some (.loop ..) | some (.loopi ..) | some (.branch ..) => false
      | _ => true
    let inside := ops.filter fun y => at' < y.1 && y.1 ≤ last
    at' < last && lastOk &&
      (inside.all fun y => match y.2 with | .cairn => false | .call _ => false | _ => true) &&
      (lvl = 0 || loops.all fun z => z.2.1 ≠ 0 || !(z.1 < at' && at' ≤ z.2.2) || last < z.2.2)

/-- A PROG section (R293, R297, R309, R313, R316, R327, R341, R342). -/
def Parts.progBroken (p : Parts) (d : Die) (g : RoleProg) : Broken :=
  let u := d.uid 0 g.role
  let tc := p.cell.tc
  let dl := g.dl.toNat * 16
  let n := g.code.length / 4
  let words := (List.range n).map fun i => (i, decodeEng (BitVec.ofNat 32 (fieldAt g.code (4 * i) 4)))
  let ops := words.filterMap fun x => x.2.map fun o => (x.1, o)
  let axes := (p.cell.axes.filter fun a => a.cluster * 5 + a.engine = g.role).length
  need (g.role % 5 ≠ 4 && g.code.length % 4 = 0 && n ≤ 4096 && g.entry.toNat < n) 293 u ++
  need (1000 ≤ dl && dl + 500 ≤ tc && g.wRun.toNat ≤ dl && 3 * g.wRun.toNat + 6000 ≤ tc) 297 u ++
  need (g.recordLen + 32 * axes ≤ 512 && g.rng.toList.all fun r => r.toNat % 4 = 0 && r.toNat / 65536 % 4 = 0) 313 u ++
  need (g.bufs.all fun b => b.2 ≤ 0x6000 && b.1 + b.2 ≤ 0x6000) 309 u ++
  need (words.all fun x => x.2.isSome) 327 u ++
  need (loopsOk ops) 316 u

/-- The padding elements of a block list are 0 (R52): `rows` and `cols` are the true dimensions. -/
def paddingOk (map : List Bool) (rows cols : Nat) (b : List Byte) : Bool :=
  ((map.zipIdx.filter (·.1)).map (·.2)).zipIdx.all fun x =>
    (List.range 1024).all fun e =>
      let i := 32 * (x.1 / 16) + e / 32
      let j := 32 * (x.1 % 16) + e % 32
      (i < rows && j < cols) || fieldAt b (4096 * x.2 + 4 * e) 4 = 0

/-- TEMPLATE, PBLK, ABLK and PLAN of a region (R52, R62, R64, R65, R106, R107, R131). -/
def Parts.regionBroken (p : Parts) (d : Die) (l : List ImgSec) (type w : Nat) (b : List Byte) : Broken :=
  let u := d.uid 2 w
  let t := parseTmpl (tmplRecord ((secOf l secTemplate w).getD []))
  if type = secTemplate then
    let used := 0x160 + t.npb + t.nab + t.nb * (t.nb + 1) / 2
    let arms := (((p.cell.joints.filter fun j => j.cluster / 4 = w).map (·.arm)).eraseDups).length
    need (used + 24 ≤ b.length && b.length ≤ 0x4000 + 24) 64 u ++
    need (tmplOk (tmplRecord b)) 64 u ++
    need ((tmplWords b).all fun x => rgnRange t.deadlineNs t.h x.1 x.2) 107 u ++
    need (t.h * (arms * (arms - 1) / 2 * (p.geom.region w).rowsPp) ≤ t.mv) 131 u
  else if type = secPblk then
    need (b.length = 4096 * t.npb && paddingOk t.pmap t.n t.n b) 64 u
  else if type = secAblk then
    need (b.length = 4096 * t.nab && paddingOk t.amap (t.m - t.mv) t.n b) 64 u
  else []

/-- The squared norm of a quaternion differs from 1 by at most 2^-16 (R115). -/
def Quat.unit (q : Quat) : Bool :=
  decide ((q.w * q.w + q.x * q.x + q.y * q.y + q.z * q.z - 2 ^ 60).natAbs ≤ 2 ^ 44)

/-- A coordinate, or a non-negative value, fits a 32-bit word of Q15.16 (R113). -/
def P3.fits (p : P3) : Bool := [p.x, p.y, p.z].all fun c => decide (-2 ^ 31 ≤ c) && decide (c < 2 ^ 31)
def wordFits (n : Nat) : Bool := n < 2 ^ 31
def Capsule.fits (c : Capsule) : Bool := c.a.fits && c.b.fits && wordFits c.r

/-- What a geometry costs with the templates beside it: variable rows, and the two phases (R131, R135). -/
def Parts.sepLoad (p : Parts) (d : Die) (l : List ImgSec) : Broken :=
  let g := p.geom
  let steps (w : Nat) : Nat := (parseTmpl (tmplRecord ((secOf l secTemplate w).getD []))).h
  let armCaps (w : Nat) : List Nat := (g.arms.filter fun a => a.region = w).map (·.caps.length)
  -- capsule pairs and arm pairs of a region
  let pairs (w : Nat) : Nat := ((armCaps w).foldl (fun (x : Nat × Nat) c => (x.1 + x.2 * c, x.2 + c)) (0, 0)).1
  let npair (w : Nat) : Nat := (armCaps w).length * ((armCaps w).length - 1) / 2
  let npr := (List.range 4).foldl (fun n w => n + steps w * pairs w) 0
  let nrows := (List.range 4).foldl (fun n w => n + steps w * npair w * (g.region w).rowsPp) 0
  ((List.range 4).flatMap fun w =>
    let t := parseTmpl (tmplRecord ((secOf l secTemplate w).getD []))
    need (t.h * npair w * (g.region w).rowsPp ≤ t.mv) 131 (d.uid 2 w)) ++
  need (g.costS ≤ 30000 && g.costS + (200 + (80 * npr + 63) / 64 + 24 * nrows) + 1000 ≤ 4 * p.cell.tc) 135 uidNone

/-- A GEOM section as written (R113-R115, R119, R124, R130, R140), with what it costs. -/
def Parts.geomBroken (p : Parts) (d : Die) (l : List ImgSec) (g : GeomSec) : Broken :=
  let caps := g.arms.foldl (fun n a => n + a.caps.length) 0
  let served := (p.geom.arms.map (·.region)).eraseDups
  need (caps ≤ 256 && g.arms.all (fun a => a.caps.length ≤ 16) && g.obstacles.length ≤ 64 && g.zones.length ≤ 32 &&
    g.zones.all (fun z => z.zone < 32) && g.sensors.length ≤ 16 && g.sensors.all (fun s => s.sensor < 16) &&
    g.arms.all (fun a => wordFits a.zr && a.baseTrans.fits && a.links.all (·.trans.fits) && a.caps.all (·.2.fits)) &&
    g.obstacles.all Capsule.fits && g.zones.all (fun z => z.cap.fits && wordFits z.c && wordFits z.zd) &&
    g.sensors.all (fun s => wordFits s.c && wordFits s.zd) && [g.vH, g.obstClear, g.armClear].all wordFits) 113 uidNone ++
  (g.zones.flatMap fun z => need (!z.sensors.isEmpty) 114 uidNone) ++
  (g.arms.flatMap fun a => need (a.baseRot.unit && a.links.all (·.rot.unit)) 115 (uidArm a.arm)) ++
  (served.flatMap fun w =>
    let r := g.region w
    need (r.tS ≤ 2000) 119 (d.uid 2 w) ++ need (1 ≤ r.tS && 1 ≤ r.tRise && r.tRise ≤ 10000) 124 (d.uid 2 w) ++
    need (1 ≤ r.rowsPp && r.rowsPp ≤ 4) 130 (d.uid 2 w)) ++
  (g.sensors.flatMap fun s => need (1000 ≤ s.maxAge && s.maxAge ≤ 100000000) 140 uidNone) ++
  p.sepLoad d l

/-- The ranges of the fields of MON_AVS_CFG that the image gives (R611). -/
def vSwOk (v : W32) : Bool := 10 ≤ bits v 7 0 && bits v 7 0 ≤ bits v 15 8 && bits v 15 8 ≤ 50

/-- The value of a record breaks a range stated for its register (R497). -/
def Die.recordRange (d : Die) (off : Nat) (v : W32) : Bool :=
  match decodeReg off with
  | .sys _ => bits v 27 0 + 0x40000 ≤ 0x680000
  | .time o =>
    if o = 0x28 then 1 ≤ bits v 8 0 && bits v 8 0 ≤ 500
    else if o = 0x3C then bits v 17 0 < d.img.cell.tc && 1 ≤ bits v 24 18 && bits v 24 18 ≤ 64
    else true
  | .lane _ _ => bits v 16 0 = 0 && bits v 27 0 + 0x20000 ≤ 0x680000
  | .can n o => (d.can n).cfg.range o v
  | .axis _ o => axRange d.pwm.top o v
  | .pwm => 1250 ≤ bits v 12 0 && bits v 12 0 ≤ 6250 && 25 ≤ bits v 23 16 && bits v 23 16 ≤ 250
  | .enc _ o =>
    if o = 0x3C then bits v 23 0 ≠ 0 && 10 ≤ bits v 31 24
    else if o = 0x14 then bits v 31 24 ≠ 0 && bits v 23 16 ≠ 0 else true
  | .joint _ _ o => jntRange d.img.cell.tc o v
  | .mon o =>
    if o = 0x04 then vSwOk v
    else if 0x2010 ≤ o then bits v 17 16 ≠ 0 && bits v 25 18 ≠ 0 else true
  | _ => true

/-- A REGS_F or REGS_B section (R497). -/
def Die.regsBroken (d : Die) (ro : Bool) (b : List Byte) : Broken :=
  let rs := regRecords b
  let rising := (rs.zip (rs.drop 1)).all fun x => x.1.1 < x.2.1
  need (b.length % 8 = 0 && rising && rs.all fun r =>
    r.1 % 4 = 0 &&
      (match imgField (decodeReg r.1) with
       | some (ro', mask) => ro' = ro && r.2 &&& ~~~mask = 0 && d.recordRange r.1 r.2
       | none => false)) 497 uidNone

/-- R254, R265, R267, R269, R286: an encoder port's settings. -/
def Enc.cfgOk (tc : Nat) (fStart : Option Nat) (x : Enc) : Bool × Bool × Bool :=
  let c := x.cfg
  let clock := (c.len.toNat + 2) * c.per.toNat * 4
  let lastBit := c.sampleOfs.toNat * 16 + (c.len.toNat * c.per.toNat + c.dly.toNat) * 4
  let serial := c.mode = 2 || c.mode = 3
  let parity := if c.parity then 1 else 0
  (c.pt ≠ 3 && (c.pt ≠ 1 || c.mode = 1) && (c.pt ≠ 2 || serial),
   !serial || (8 ≤ c.len.toNat && c.len.toNat ≤ 40 && c.nstat.toNat ≤ 4 && c.mt.toNat ≤ 32 &&
     c.mt.toNat + c.nstat.toNat + parity ≤ c.len.toNat && 1 ≤ c.posBits),
   c.mode ≠ 2 || (25 ≤ c.per.toNat && c.per.toNat ≤ 1000 && c.tm ≠ 0 &&
     c.sampleOfs.toNat * 16 + clock + c.dly.toNat * 4 ≤ tc && clock + c.tm.toNat * 1000 ≤ tc &&
     (match fStart with | none => true | some f => lastBit + 200 ≤ f)))

/-- The registers of units as a whole, after every record (R202, R224, R254, R267, R269, R406). -/
def Die.unitsBroken (d : Die) (p : Parts) : Broken :=
  (p.cell.joints.flatMap fun j =>
    need (decide ((d.jnt j.joint).regs.plWarn.toInt ≤ (d.jnt j.joint).regs.plFault.toInt)) 202 (uidJoint j.joint)) ++
  (p.cell.axes.flatMap fun a => need (d.axLimitsOk a.axis (d.axis a.axis).regs.vmax) 224 (d.uid 9 a.axis)) ++
  (p.pins.encs.flatMap fun k =>
    let x := d.enc k
    let f := (p.ports.find? fun b => b.consumer && b.fStart.isSome &&
      (p.queues.any fun q => q.num = b.queue && q.cls = .rx && bits q.prod 13 0 = 10 * 1024 + k)).bind (·.fStart)
    let r := x.cfgOk p.cell.tc f
    need r.1 254 (d.uidEnc k) ++ need r.2.1 267 (d.uidEnc k) ++ need r.2.2 269 (d.uidEnc k)) ++
  (p.pins.cans.flatMap fun n =>
    let c := (d.can n).cfg
    need (canNbtOk c.nbt && canDbtOk c.dbt) 405 (d.uid 7 n) ++ need (canTdcOk c.dbt c.tdc) 406 (d.uid 7 n))

/-- What a section breaks: its own format and the rules of the loader on it (R502 step 7). -/
def Die.secBroken (d : Die) (p : Parts) (l : List ImgSec) (s : ImgSec) : Broken :=
  let open' := match Config.brokenRule s.type s.inst s.body with | some x => [x] | none => []
  open' ++
  if s.type = secCell then p.cellBroken l
  else if s.type = secPins then p.pinsBroken d s.body
  else if s.type = secQueue then p.queueBroken d
  else if s.type = secProg then
    match p.progs.find? (·.role = s.inst) with
    | none => [(496, d.uid 0 s.inst)]
    | some g => p.progBroken d g
  else if s.type = secData then need (s.addr + s.body.length ≤ 0x6000) 293 (d.uid 0 s.inst)
  else if s.type = secGeom then
    match Config.parseGeom s.body with
    | none => [(496, uidNone)]
    | some g => p.geomBroken d l g
  else if s.type = secLane then p.laneBroken s.inst (d.uid 6 s.inst) s.body
  else if s.type = secRegsF then d.regsBroken true s.body
  else if s.type = secRegsB then d.regsBroken false s.body
  else if s.type = secTemplate || s.type = secPblk || s.type = secAblk then p.regionBroken d l s.type s.inst s.body
  else []

/-- Two reach envelopes intersect (R19). -/
def envelopesMeet (a b : Capsule) : Bool :=
  let (s, _) := closestEnds a.a.v a.b.v b.a.v b.b.v
  let r := qv 16 ((a.r + b.r : Nat) : Int)
  decide (sqDist a.a.v a.b.v b.a.v b.b.v s ≤ r * r)

/-- The rules of R31: R10, R12-R15, R18-R20 and R29. -/
def Parts.cellRules (p : Parts) (d : Die) : Broken :=
  let js := p.cell.joints
  let arms := (js.map (·.arm)).eraseDups
  let armJs (a : Nat) : List JointDecl := js.filter (·.arm = a)
  let region (a : Nat) : Nat := ((armJs a).head?.map (·.cluster / 4)).getD 0
  (arms.flatMap fun a => need (a < 16 && 1 ≤ (armJs a).length && (armJs a).length ≤ 8) 10 (uidArm a)) ++
  (js.flatMap fun j => need (j.joint < 128 && (js.filter fun x => x.joint = j.joint).length = 1) 10 (uidJoint j.joint)) ++
  (js.flatMap fun j => need (j.cluster < 16 && j.engine < 4 && j.slot < 2 &&
    (js.filter fun x => x.cluster = j.cluster && x.engine = j.engine && x.slot = j.slot).length = 1) 12 (uidJoint j.joint)) ++
  (p.cell.axes.flatMap fun a => need (a.axis < 16 && a.cluster < 16 && a.engine < 4 &&
    (p.cell.axes.filter fun x => x.axis = a.axis).length = 1 &&
    (p.cell.axes.filter fun x => x.cluster = a.cluster && x.engine = a.engine).length ≤ 4) 13 (d.uid 9 a.axis)) ++
  (p.pins.twice.map fun u => (14, u)) ++
  (js.flatMap fun j =>
    let b := ((p.cell.families[j.cluster]?).getD (0, 0)).1
    need (j.period ≤ 8 && (j.period = b || j.period = 2 * b || j.period = 4 * b || j.period = 8 * b)) 15 (uidJoint j.joint)) ++
  (((List.range 16).filter fun c => (List.range 5).any fun e => p.roleUsed (5 * c + e)).flatMap fun c =>
    let (b, ph) := (p.cell.families[c]?).getD (0, 0)
    need ((b = 1 || b = 2 || b = 4 || b = 8) && ph < b) 15 (d.uid 1 c)) ++
  ((List.range 4).flatMap fun w =>
    need ((arms.filter fun a => region a = w).length ≤ 4 && (js.filter fun j => j.cluster / 4 = w).length ≤ 32) 18 (d.uid 2 w)) ++
  (arms.flatMap fun a => need ((armJs a).all fun j => j.cluster / 4 = region a) 18 (uidArm a)) ++
  (p.geom.arms.flatMap fun a => p.geom.arms.flatMap fun b =>
    need (b.arm ≤ a.arm || p.cell.armRegion a.arm = p.cell.armRegion b.arm || !envelopesMeet a.envelope b.envelope) 19
      (uidArm b.arm)) ++
  need (p.cell.nodeId ≤ 4095) 29 uidPackage

/-- Step 7 of R502 over the sections of an image, or of an update as it would leave the image in force:
`own` are the sections the image carries. -/
def Die.contentBad (own l : List ImgSec) (d : Die) : Option LoadFail :=
  match partsOf l with
  | none =>
    some { result := resContent, rule := 496 }
  | some p =>
    let cand := d.placeSecs l p
    let bySec := own.findSome? fun s =>
      match cand.secBroken p l s with
      | [] => none
      | x :: _ => some { result := resContent, rule := x.1, uid := x.2, pos := s.ofs, sec := s.idx : LoadFail }
    match bySec with
    | some f => some f
    | none =>
      match cand.unitsBroken p ++ p.cellRules cand ++ p.sepLoad cand l with
      | [] => none
      | x :: _ => some { result := resContent, rule := x.1, uid := x.2 }

/-! Updates (R505) -/

/-- The sections of the image in force as an update would leave them: DATA and REGS_B add to those in
force, every other section replaces its like. -/
def mergeSecs (old own : List ImgSec) : List ImgSec :=
  (old.filter fun s => s.type = secData || s.type = secRegsB || !(own.any fun x => x.type = s.type && x.inst = s.inst)) ++ own

/-- Sections that only a full image may carry (R496). -/
def fullSec (type : Nat) : Bool :=
  type = secCell || type = secPins || type = secPower || type = secQueue || type = secRegsF

/-- R505: an update carries a FULL section, changes a LANE's identity, or a template's structure
without its blocks. -/
def Die.classBad (own : List ImgSec) (d : Die) : Option LoadFail :=
  (own.find? fun s =>
    fullSec s.type ||
      (s.type = secLane &&
        (match secOf d.img.secs secLane s.inst with
         | none => true
         | some b =>
           let x := parseLane b
           let y := parseLane s.body
           x.node ≠ y.node || x.rank ≠ y.rank || x.addr ≠ y.addr || x.preN ≠ y.preN)) ||
      (s.type = secTemplate &&
        (match secOf d.img.secs secTemplate s.inst with
         | none => true
         | some b => (parseTmpl (tmplRecord b)).sig ≠ (parseTmpl (tmplRecord s.body)).sig) &&
        !((own.any fun x => x.type = secPblk && x.inst = s.inst) && own.any fun x => x.type = secAblk && x.inst = s.inst))
    ).map fun s => { result := resClass, rule := 505, uid := secUid d s.type s.inst, pos := 0x80 + 32 * s.idx, sec := s.idx }

/-- Pass 1 of a load: none where the image passes every check (R502, R505). -/
def Die.pass1 (b : List Byte) (d : Die) : Option LoadFail :=
  match d.checkContainer b with
  | some f => some f
  | none =>
    let own := imgSecs b
    if imgKind b = 0 then
      match d.presenceBad own with
      | some f => some f
      | none => d.contentBad own own
    else if imgBase b ≠ d.img.id then some { result := resBase, rule := 501, pos := 0x20 }
    else
      let l := mergeSecs d.img.secs own
      match (d.classBad own).or ((partsOf l).bind fun p => p.updateExtra d own) with
      | some f => some f
      | none => d.contentBad own l

end Sys2Proof.Machine
end

