-- ==== Sys2Proof/Machine/Qspi.lean ====
section
/-! DEFINITION. The QSPI controller and its flash (R582-R585, R593-R595). -/

namespace Sys2Proof.Machine

/-- R585: the flash is not free for a command. The boot ROM reads it on a QSPI boot alone (R519, R522). -/
def Die.qspiBlocked (d : Die) : Bool :=
  d.qspi.busy || (d.boot.phase = .rom && !d.boot.src) ||
    ((d.img.state = .check || d.img.state = .place) && d.img.src = 0)

/-- The address sent: 3 bytes unless ADDR4 (R582, R594). -/
def Qspi.address (q : Qspi) : Nat := if q.addr4 then q.addr.toNat else q.addr.toNat % 2 ^ 24

/-- An operation ends with a RESULT; DONE raises vector 0, and waiting boot records are written
(R584, R585, R593). -/
def Die.qspiEnd (result : Nat) (d : Die) : Die :=
  let was := d.qspi.done
  let d := { d with qspi := { d.qspi with busy := false, done := true,
                                          result := BitVec.ofNat 2 result } }
  let waiting := d.boot.recWait
  let d := waiting.foldl (fun d b => d.flushBootRecord b)
    { d with boot := { d.boot with recWait := [] } }
  d.raise 0 was

/-- QSPI_CMD written with GO (R584, R585, R595): a READ or PROGRAM of 0 bytes ends at once with
EMPTY, a PROGRAM across a page with PAGE. -/
def Die.qspiGo (op : Nat) (len : BitVec 9) (d : Die) : Die :=
  if d.qspiBlocked || 256 < len.toNat || op = 0 || 5 < op then d.refuse
  else
    let q := { d.qspi with op := BitVec.ofNat 3 op, len := len, busy := true, runOp := BitVec.ofNat 3 op,
                           runAddr := d.qspi.address, runLen := len.toNat, since := d.real }
    let d := { d.accept with qspi := q }
    if (op = 2 || op = 3) && len = 0 then d.qspiEnd 1
    else if op = 3 && 256 < q.address % 256 + len.toNat then d.qspiEnd 3
    else d

/-- Programming clears bits and sets none: a NOR flash's AND of old and new (log entry 20). -/
def flashProgram (flash : Memory) (a : Nat) : List Byte → Memory
  | [] => flash
  | v :: r => flashProgram (flash.put 0xFF a (flash.get 0xFF a &&& v)) (a + 1) r

/-- QSPI_DATA with bytes laid from its start. -/
def putData (data : Vector Byte 256) (l : List Byte) : Vector Byte 256 :=
  vmap data fun i v => (l[i]?).getD v

/-- QSPI_OP_DONE (R584). Only PROGRAM and the erases can time out. -/
def Die.qspiOpDone (timeout : Bool) (jedec : BitVec 24) (d : Die) : Die :=
  if !d.qspi.busy then d
  else
    let q := d.qspi
    let a := q.runAddr
    let n := q.runLen
    match q.runOp.toNat with
    | 1 => ({ d with qspi := { q with jedec := jedec } }).qspiEnd 0
    | 2 => ({ d with qspi := { q with data := putData q.data (q.flash.read 0xFF a n) } }).qspiEnd 0
    | op =>
      if timeout then (d.log .warn (d.uidDom domKeep) 0x3D).qspiEnd 2
      else
        let f := if op = 3 then flashProgram q.flash a (q.data.toList.take n)
          else if op = 4 then q.flash.erase (a / 4096 * 4096) 4096
          else q.flash.erase (a / 65536 * 65536) 65536
        ({ d with qspi := { q with flash := f } }).qspiEnd 0

end Sys2Proof.Machine
end

