-- ==== Sys2Proof/Machine/Image.lean ====
section
/-! DEFINITION. Loading, staging and applying cell images (R503-R515). -/

namespace Sys2Proof.Machine

def Die.updImg (f : ImageUnit → ImageUnit) (d : Die) : Die := { d with img := f d.img }

/-- IMG_ID of no image: zeros. -/
def noId : List Byte := List.replicate 48 0

/-- A cell image copy of the flash (R519). -/
def Die.flashImage (copy : Bool) (d : Die) : List Byte :=
  match readDir d.qspi.flash with
  | none => []
  | some dir =>
    let ofs := if copy then dir.img.2 else dir.img.1
    d.qspi.flash.read 0xFF ofs (min (imgTotal (d.qspi.flash.read 0xFF ofs 128)) 16777216)

/-- The bytes that the pass in progress reads. -/
def Die.imgSource (d : Die) : List Byte := if d.img.src = 0 then d.flashImage d.img.copy else d.img.buf

/-- The whole source has been read: a push has given its TOTAL_LEN bytes (R508). -/
def Die.imgComplete (d : Die) : Bool :=
  d.img.src = 0 || (128 ≤ d.img.buf.length && (imgTotal d.img.buf ≤ d.img.buf.length || 16777216 < imgTotal d.img.buf))

/-- A joint is STOPPED or at rest in HOLD (R504, R506). -/
def Joint.still (x : Joint) : Bool := x.stopped || (x.atRest && x.source = 0)

/-- Every joint of some arms is STOPPED or at rest in HOLD. -/
def Die.armsStill (l : List Nat) (d : Die) : Bool := l.all fun a => (d.armJoints a).all fun j => (d.jnt j).still

/-- RESULT is written and DONE set (R513). -/
def ImageUnit.ended (result : Nat) (u : ImageUnit) : ImageUnit :=
  { u with result := BitVec.ofNat 8 result, done := true, pushReady := false, buf := [], pass2 := false }

/-- A load in CHECK ends without an image: the one in force stays (R509). -/
def ImageUnit.checkEnd (result : Nat) (u : ImageUnit) : ImageUnit :=
  { u.ended result with state := if u.secs.isEmpty then .empty else .running }

/-- IMG_ERR and IMG_ERR_POS (R511). -/
def ImageUnit.blame (f : LoadFail) (u : ImageUnit) : ImageUnit :=
  { u with errRule := BitVec.ofNat 16 f.rule, errUid := f.uid, errPos := BitVec.ofNat 24 f.pos, errSec := BitVec.ofNat 8 f.sec }

def ImageUnit.count (i : Fin 3) (u : ImageUnit) : ImageUnit := { u with cnt := vupd u.cnt i satInc }

/-- CHECK fails: RESULT, IMG_ERR and the WARN record IMG_REFUSED (R509, R514). -/
def Die.imgRefused (f : LoadFail) (d : Die) : Die :=
  (d.updImg fun u => ((u.blame f).checkEnd f.result).count 1).log .warn d.uidBoot 0x20

/-- LOAD (R504, R508-R510, R512); refused while the die runs from the IRC (R548). -/
def Die.imgLoad (src : BitVec 2) (copy : Bool) (d : Die) : Die :=
  let moving := d.img.state = .running && src = 0 && imgKind (d.flashImage copy) = 0 && !d.armsStill d.usedArms
  if !d.clk.sel || 1 < src.toNat || (src = 0 && d.qspi.busy) || (d.img.state ≠ .empty && d.img.state ≠ .running) || moving then d.refuse
  else d.accept.updImg fun u =>
    { u with state := .check, src := src, copy := copy, pass2 := false, buf := [], pushReady := src = 1, readyAt := d.real }

/-- IMG_PASS1_DONE on the die that loads: refused, staged, or on to pass 2 (R502, R504, R509). -/
def Die.pass1Done (d : Die) : Die :=
  if d.img.state ≠ .check || !d.imgComplete then d
  else
    let b := d.imgSource
    match d.pass1 b with
    | some f => d.imgRefused f
    | none =>
      if imgKind b ≠ 0 then
        d.updImg fun u => { u.ended 0 with state := .staged, staged := b, stagedId := imgDigest b }
      else if !d.img.secs.isEmpty && !d.armsStill d.usedArms then d.imgRefused { result := resRest, rule := 504 }
      else
        let power := (partsOf (imgSecs b)).elim [] (·.power)
        let d := d.updImg fun u =>
          { u with state := .place, pass2 := true, buf := [], pushReady := u.src = 1, readyAt := d.real, power := power,
                   digest1 := imgDigest b, crcs1 := (imgSecs b).map fun s => crc32c s.body }
        if d.time.cycRun then d else d.placePower power

/-- IMG_PASS1_DONE: a full image that passes stops every arm on both dies (R504). -/
def State.imgPass1Done (id : DieId) (s : State) : State :=
  let was := (s.die id).img.state
  let s := s.upd id Die.pass1Done
  if was = .check && (s.die id).img.state = .place then s.both fun d => d.stopArms 3 d.usedArms else s

/-- The boundary at which a load in service ends the image in force (R504): the grant goes with it. -/
def Die.endImage (d : Die) : Die :=
  let power := d.img.power
  d.unitsOff.placePower power

/-- Pass 2 fails: every unit is OFF and no image is in force (R503, R546). -/
def Die.placeFailed (f : LoadFail) (d : Die) : Die :=
  (d.unitsOff).updImg fun u => { (u.blame f).ended f.result with state := .empty }

/-- IMG_PASS2_DONE (R503, R509, R546). -/
def Die.pass2Done (d : Die) : Die :=
  if d.img.state ≠ .place || d.time.cycRun || !d.imgComplete || d.powerPending d.img.power then d
  else
    match d.powerFailed d.img.power with
    | some i => d.placeFailed { result := resContent, rule := 546, uid := d.uidDom i }
    | none =>
      let b := d.imgSource
      let l := imgSecs b
      match partsOf l with
      | none => (d.placeFailed { result := resSourceChanged, rule := 503 }).log .stop d.uidBoot 0x23
      | some p =>
        if imgDigest b ≠ d.img.digest1 || (l.map fun s => crc32c s.body) ≠ d.img.crcs1 then
          (d.placeFailed { result := resSourceChanged, rule := 503 }).log .stop d.uidBoot 0x23
        else
          let d := d.placeSecs l p
          let d := d.updImg fun u => (({ u.ended 0 with
            state := .running, id := imgDigest b, svn := BitVec.ofNat 7 (imgSvn b), secs := l, geomNext := none }).count 0)
          let d := { d.resetUnits with time := d.time.beginCycles p.cell.tc }
          (d.log .info d.uidBoot 0x21).sepStart

/-! Host push (R508) -/

/-- The chunk in the push buffer. -/
def Die.pushChunk (n : Nat) (d : Die) : List Byte := d.sram.read 0 d.img.pushBase.toNat n

/-- IMG_PUSH_LEN: the chunk is consumed, and PUSH_READY asks for the next one; before step 5 of R522 it is a
chunk of firmware. -/
def Die.imgPushLen (len : BitVec 19) (d : Die) : Die :=
  if !d.img.pushReady || len = 0 || 262144 < len.toNat then d.refuse
  else if d.boot.phase = .rom then
    let boot := { d.boot with fwBuf := d.boot.fwBuf ++ d.pushChunk len.toNat }
    let d := { d.accept with boot := boot }
    if boot.pushed then d.updImg fun u => { u with pushReady := false }
    else (d.updImg fun u => { u with readyAt := d.real }).msix 0
  else
    let d := d.accept.updImg fun u => { u with buf := u.buf ++ d.pushChunk len.toNat }
    if d.imgComplete then d.updImg fun u => { u with pushReady := false }
    else (d.updImg fun u => { u with readyAt := d.real }).msix 0

/-- PUSH_TIMEOUT: no chunk within 100 ms; a start that waits for firmware fails (R522). -/
def Die.pushTimeout (d : Die) : Die :=
  if !d.img.pushReady then d
  else if d.boot.phase = .rom then d.failStart failPushTimeout
  else if d.img.state = .check then d.imgRefused { result := resTimeout, rule := 508 }
  else if d.img.state = .place then d.placeFailed { result := resTimeout, rule := 508 }
  else d

/-- ABORT (R509, R510). -/
def Die.imgAbort (d : Die) : Die :=
  match d.img.state with
  | .check => d.accept.updImg (ImageUnit.checkEnd resAborted)
  | .staged => d.accept.updImg fun u => { u with state := .running, staged := [], stagedId := noId }
  | .place | .applying => d.refuse
  | _ => d.accept

def Die.imgClrCnt (d : Die) : Die := d.updImg fun u => { u with cnt := Vector.replicate 3 0 }

/-! Updates (R505-R507, R510) -/

/-- STAGED_UPDATE_RX: the other die's staged update arrives and is checked again (R506). -/
def Die.stagedRx (peer d : Die) : Die :=
  if !d.red.linkUp || peer.img.state ≠ .staged || d.img.state ≠ .running then d
  else
    match d.pass1 peer.img.staged with
    | some f => d.imgRefused f
    | none =>
      if imgKind peer.img.staged = 0 then d
      else d.updImg fun u => { u.ended 0 with state := .staged, staged := peer.img.staged, stagedId := imgDigest peer.img.staged }

/-- A die or engine takeover is in progress on the die (R510). -/
def Die.inTakeover (d : Die) : Bool := d.takingOver || d.red.handingOver.isSome || !d.red.takes.isEmpty

/-- APPLY (R506, R510): both dies hold for the boundary that starts cycle k. -/
def State.imgApply (id : DieId) (atCyc : Bool) (s : State) : State :=
  let d := s.die id
  let p := s.die id.peer
  if d.img.state ≠ .staged || p.img.state ≠ .staged || p.img.stagedId ≠ d.img.stagedId || !d.red.linkUp ||
      d.inTakeover || p.inTakeover then s.upd id Die.refuse
  else
    let k := if atCyc then d.img.applyCyc else d.time.cyc + 1
    (s.both (Die.updImg fun u => { u with state := .applying, applyK := k })).upd id fun d =>
      d.accept.updImg fun u => { u with atCyc := atCyc }

/-- The arms that a section names (R506). -/
def Die.secArms (d : Die) (s : ImgSec) : List Nat :=
  if s.type = secProg || s.type = secData then d.roleArms s.inst
  else if s.type = secGeom then d.usedArms
  else if s.type = secLane then
    (((List.range 128).filter fun j => (d.jnt j).used && (d.jnt j).cfg.lane = s.inst).map fun j => (d.jnt j).cfg.arm).eraseDups
  else if 7 ≤ s.type && s.type ≤ 10 then d.regionArms s.inst
  else []

/-- PROG and DATA of a role in the engine that holds it: no run in cycle k (R507). Where none holds it they wait in
the engine of its slot (R468). -/
def Die.applyRole (own : List ImgSec) (r : Nat) (d : Die) : Die :=
  let data := own.filter fun s => s.type = secData && s.inst = r
  let prog := own.any fun s => s.type = secProg && s.inst = r
  match d.holder r with
  | none =>
    if (!prog && data.isEmpty) || (d.engine (Fin.ofNat 80 r)).roleNum.isSome then d
    else (d.loadPartitions (Fin.ofNat 80 r) (d.roleProg r)).updEng (Fin.ofNat 80 r) fun g => g.takeHeader g.role (d.roleProg r)
  | some e =>
    if !prog && data.isEmpty then d
    else
      let d := if prog then
          let p := d.roleProg r
          ({ d with sram := (d.sram.erase (progBase e) 0x4000).write 0 (progBase e) p.code }).updEng e fun g =>
            { g.takeHeader g.role p with fresh := true }
        else d
      let d := { d with sram := data.foldl (fun (m : Memory) (s : ImgSec) => m.write 0 (dataBase e + s.addr) s.body) d.sram }
      d.updEng e fun g => { g with skipRun := true }

/-- TEMPLATE, PBLK and ABLK of a region (R507): a changed SIG makes both factor slots invalid, and the
region is in TAIL as after a miss. -/
def Die.applyRegion (own : List ImgSec) (w : Nat) (d : Die) : Die :=
  let t := secOf own secTemplate w
  let pb := secOf own secPblk w
  let ab := secOf own secAblk w
  if t.isNone && pb.isNone && ab.isNone then d
  else
    let old := (d.tmpl w).sig
    let m : Memory := match t with
      | some b => (d.sram.erase (storeBase w) 0x4000).write 0 (storeBase w) (tmplRecord b)
      | none => d.sram
    let m : Memory := match pb with
      | some b => (m.erase (storeBase w + 0x4000) 0x88000).write 0 (storeBase w + 0x4000) b
      | none => m
    let m : Memory := match ab with
      | some b => (m.erase (storeBase w + 0x224000) 0x140000).write 0 (storeBase w + 0x224000) b
      | none => m
    let d : Die := { d with sram := m }
    let d : Die := match t with
      | none => d
      | some b =>
        let changed := (parseTmpl (tmplRecord b)).sig ≠ old
        (d.updSepRegion w fun x => { x with noRows := true }).updRegion w fun r =>
          { r with regs := (tmplWords b).foldl (fun (c : RegionCfg) x => c.put x.1 x.2) r.regs,
                   valid0 := r.valid0 && !changed, valid1 := r.valid1 && !changed, warmWritten := false,
                   factCyc := BitVec.ofNat 32 (parseTmpl (tmplRecord b)).factCycles }
    if (d.region w).state = .off then d else d.enterTail w

/-- LANE (R382, R383, R507): the head starts a new session at the boundary. -/
def Die.applyLane (own : List ImgSec) (l : Nat) (d : Die) : Die :=
  match secOf own secLane l with
  | none => d
  | some b => d.updLane l fun x =>
      { x with cfg := { parseLane b with hostBase := x.cfg.hostBase, objs := x.cfg.objs }, waiting := none,
               session := none, full := false, epochFixed := false }

/-- The update takes effect on a die (R501, R507). -/
def Die.applyUpdate (d : Die) : Die :=
  let b := d.img.staged
  let own := imgSecs b
  let l := mergeSecs d.img.secs own
  let d := d.updImg fun u => (({ u.ended 0 with
    state := .running, id := imgDigest b, svn := BitVec.ofNat 7 (imgSvn b), secs := l, staged := [], stagedId := noId,
    progs := (List.range 80).filterMap (roleOf l), geomNext := (secOf own secGeom 0xFFFF).or u.geomNext }).count 2)
  let d := (recordsOf own secRegsB).foldl Die.takeRecord d
  let d := (List.range 80).foldl (fun d r => d.applyRole own r) d
  let d := (List.range 4).foldl (fun d w => d.applyRegion own w) d
  let d := (List.range 8).foldl (fun d n => d.applyLane own n) d
  d.log .info d.uidBoot 0x22

/-- An update that is not applied stays staged, with a RESULT (R506, R510). -/
def Die.stayStaged (result : Nat) (d : Die) : Die := d.updImg fun u => { u.ended result with state := .staged }

/-- IMG_APPLY_BOUNDARY: the boundary that starts cycle k, on both dies, before its CELL_CYCLE_START. -/
def State.imgApplyBoundary (s : State) : State :=
  let d := s.die (s.holder.getD .a)
  if s.a.img.state ≠ .applying || s.b.img.state ≠ .applying || d.time.cyc + 1 ≠ d.img.applyK then s
  else
    let arms := (((imgSecs d.img.staged).flatMap d.secArms)).eraseDups
    if d.armsStill arms then s.both Die.applyUpdate else s.both (Die.stayStaged resRest)

/-- A takeover that starts between APPLY and the boundary: the update stays staged on both dies (R510). -/
def State.applyMeetsTakeover (s : State) : State :=
  if s.a.inTakeover || s.b.inTakeover then
    s.both fun d => if d.img.state = .applying then d.stayStaged resTakeover else d
  else s

/-- The GEOM section of an update takes effect at a monitor period start (R140, R507). -/
def Die.takeGeometry (d : Die) : Die :=
  match d.img.geomNext.bind Config.parseGeom with
  | none => d
  | some g =>
    let d := d.updImg fun u => { u with geomNext := none }
    d.updSep fun s =>
      let s := { s with geom := g.normalised d.img.cell, regions := vmap s.regions fun _ r => { r with noRows := true } }
      if s.state = .off then s else s.matchSensors

end Sys2Proof.Machine
end

