-- ==== Sys2Proof/Machine/Monitor.lean ====
section
/-! DEFINITION. Monitors, the AVS loop, the power cap and the log's commands (chapter 20). -/

namespace Sys2Proof.Machine

/-- UID of the monitors and the log (R613). -/
def Die.uidMon (d : Die) : W16 := d.uid 15 6

/-- The grade maximum in °C (R1). -/
def gradeMax : Int := if Config.gradeE then 105 else 90

/-- A temperature reading of Q11.4 against a limit in °C. -/
def hotterThan (limit : Int) (t : W16) : Bool := decide (limit * 16 ≤ t.toInt)

/-- Nominal value of rails 1-4 in mV: VDD_SRAM, VDD_1V8, VDD_3V3, VIN_AON (R597, R632). -/
def railNominal (r : Nat) : Nat := if r = 1 then 800 else if r = 3 then 3300 else 1800

/-- The WARN condition of a rail (R597): VDD_CORE outside the set-point ±30 mV, the others outside
nominal ±5 %. -/
def Die.railWarn (d : Die) (r : Nat) (mv : Nat) : Bool :=
  if r = 0 then decide (mv + 30 < d.mon.avsV.toNat) || decide (d.mon.avsV.toNat + 30 < mv)
  else decide (mv * 100 < railNominal r * 95) || decide (railNominal r * 105 < mv * 100)

/-- A warning condition is entered or left: its flag, its record once per entry (R597, R610). -/
def Die.judgeTemp (d : Die) : Die :=
  let lim := d.mon.tWarn.toInt
  let enter := d.mon.temp.toList.any (hotterThan lim)
  let stay := d.mon.temp.toList.any fun t => decide (lim * 16 - 80 < t.toInt)
  let was := d.mon.inTempWarn
  let now := enter || (was && stay)
  let d := { d with mon := { d.mon with inTempWarn := now, tempWarn := d.mon.tempWarn || now } }
  let d := if now && !was then d.log .warn d.uidMon 0x01 else d
  let hot := d.mon.temp.toList.any (hotterThan (gradeMax + 10))
  let wasHot := d.mon.inTempFatal
  let d := { d with mon := { d.mon with inTempFatal := hot } }
  if hot && !wasHot then d.log .fatal d.uidMon 0x02 else d

/-- One rail judged. -/
def Die.judgeRail (d : Die) (r : Fin 5) : Die :=
  let w := d.railWarn r (vget d.mon.volt r).toNat
  let was := vget d.mon.inVoltWarn r
  let d := { d with mon := { d.mon with inVoltWarn := vset d.mon.inVoltWarn r w,
                                        voltWarn := d.mon.voltWarn || w } }
  if w && !was then d.log .warn d.uidMon 0x03 else d

/-- MONITOR_SAMPLE (R597): the readings are taken over and judged. -/
def Die.monitorSample (temp : Vector W16 8) (volt : Vector (BitVec 13) 5)
    (margin : Vector (BitVec 10) 16) (d : Die) : Die :=
  if !d.awake domKeep then d
  else
    let d := { d with mon := { d.mon with temp := temp, volt := volt, margin := margin, sampleAt := some d.real } }
    (List.finRange 5).foldl Die.judgeRail d.judgeTemp

/-- SUPPLY_FAULT (R597): the FATAL record of a rail. -/
def Die.supplyFault (d : Die) : Die := d.log .fatal d.uidMon 0x04

/-- Smallest timing margin (R598). -/
def Mon.minMargin (m : Mon) : Nat := m.margin.toList.foldl (fun a v => min a v.toNat) 1023

/-- A bound of MON_AVS_CFG in mV (R611). -/
def avsBound (v : Byte) : Int := 600 + 5 * v.toNat

/-- The lower end of the AVS clamp (R598). -/
def Mon.vLow (m : Mon) : Int := max 650 (avsBound m.vSwMin)

/-- One step of the voltage by the margin, before the clamp (R598). -/
def Mon.avsNext (m : Mon) : Int :=
  let v : Int := m.avsV.toNat
  if m.minMargin < m.marginTgt.toNat then v + 5
  else if m.marginTgt.toNat + 20 < m.minMargin then v - 5 else v

/-- AVS_STEP (R598, R600); a frame that fails makes it a missed step, with the set-point unchanged (R648). -/
def Die.avsStep (iCore : Option Nat) (d : Die) : Die :=
  if !d.clk.sel then d
  else match iCore with
  | none => { d with mon := { d.mon with avsAt := some d.real } }
  | some iCore =>
    let low := d.mon.minMargin < d.mon.marginMin.toNat
    let was := d.mon.inMarginFatal
    let d := { d with mon := { d.mon with inMarginFatal := low } }
    let d := if low && !was then d.log .fatal d.uidMon 0x05 else d
    let v := clampI d.mon.vLow 850 d.mon.avsNext
    let above := decide (avsBound d.mon.vSwMax < v)
    let had := d.mon.avsConflict
    let steps := if v = 850 ∧ d.mon.minMargin < d.mon.marginTgt.toNat then d.mon.ceilingSteps + 1 else 0
    let d := { d with mon := { d.mon with avsV := BitVec.ofInt 10 v, iCore := iCore,
                                          avsConflict := had || above, ceilingSteps := steps, avsAt := some d.real,
                                          ceilingDone := d.mon.ceilingDone && steps ≠ 0 } }
    let d := if above then d.logOnce had .info d.uidMon 0x06 else d
    d.emit (.avs v.toNat)

/-- AVS_CEILING (R598): at 850 mV with the margin below target for 1 ms, ten steps; once per entry (R597). -/
def Die.avsCeiling (d : Die) : Die :=
  if 10 ≤ d.mon.ceilingSteps && !d.mon.ceilingDone then
    ({ d with mon := { d.mon with ceilingDone := true } }).log .warn d.uidMon 0x08
  else d

/-- P_EST in 10 mW: v × I_CORE in µW / 10,000, plus PWR_CAP_OFS (R599, R610). -/
def Mon.powerEst (m : Mon) : Nat := m.avsV.toNat * m.iCore / 10000 + m.pwrCapOfs.toNat

/-- v equals the voltage floor: the lowest v at which the margin meets MARGIN_TGT. One step lower
would miss it, so the loop holds (R598, R600; log entry 24). -/
def Mon.atFloor (m : Mon) : Bool :=
  m.marginTgt.toNat ≤ m.minMargin && m.minMargin ≤ m.marginTgt.toNat + 20

/-- POWER_CAP_STEP (R599, R600). -/
def Die.powerCapStep (d : Die) : Die :=
  if !d.clk.sel then d
  else
    let p := d.mon.powerEst
    let cap := d.mon.pwrCap.toNat
    let duty := d.mon.duty.toNat
    let above := cap ≠ 0 ∧ cap < p
    let duty' := if cap = 0 then 16 else if cap < p then max 1 (duty - 1)
      else if p * 100 < cap * 95 then min 16 (duty + 1) else duty
    let held := if above then true else if cap = 0 ∨ p * 100 < cap * 95 then false else d.mon.capOver
    let d := { d with mon := { d.mon with pEst := BitVec.ofNat 16 (min p 65535), duty := BitVec.ofNat 5 duty',
                                          capOver := held, capAt := some d.real } }
    let d := if above then d.throttleSolves else d.startWaiting
    if above ∧ d.mon.atFloor then
      let had := d.mon.powerCapConflict
      ({ d with mon := { d.mon with powerCapConflict := true } }).logOnce had .warn d.uidMon 0x07
    else d

/-! The log's commands -/

/-- POP removes the oldest record (R610). -/
def Die.errPop (d : Die) : Die := { d with err := { d.err with ring := d.err.ring.drop 1 } }

/-- CLR_FIRST clears ERR_FIRST, and with it the FATAL that denies motion (R606, R610). -/
def Die.errClrFirst (d : Die) : Die :=
  { d with err := { d.err with first := 0, fatalOwn := false } }

/-- CLR_CNT (R610). -/
def Die.errClrCnt (d : Die) : Die := { d with err := { d.err with cntLost := 0 } }

/-- A cause of `FOGHORN_N` remains (R607): an input in DISC, unequal safe-output copies, or
ERR_FIRST FATAL. -/
def Die.fogCause (d : Die) : Bool :=
  d.safe.inputs.toList.any (fun i => i.state = .disc) || d.safe.mismatch ||
    bits d.err.first 63 61 = 4

/-- FOG_CLR (R607). -/
def Die.fogClr (d : Die) : Die :=
  if d.fogCause then d.refuse else { d.accept with err := { d.err with foghorn := false } }

/-- The origin of a software record, by its writer (R601, R604). -/
def Source.origin : Source → Origin
  | .keeper => .keeper
  | .planner => .planner
  | _ => .host

/-- The write of the upper word of ERR_SW_REC commits a software record (R604). A software STOP is
logged only: it enters the log and ERR_FIRST and stops nothing. -/
def Die.swRecord (src : Source) (hi : W32) (d : Die) : Die :=
  let sev := bits hi 31 29
  let u : W16 := BitVec.ofNat 16 (bits hi 23 8)
  let code : Byte := BitVec.ofNat 8 (bits hi 7 0)
  if code.toNat < 0xF0 || 4 ≤ sev || !validUid u then d.refuse
  else
    let s : Sev := if sev = 0 then .info else if sev = 1 then .warn else if sev = 2 then .degrade else .stop
    d.accept.record { sev := s, origin := src.origin, uid := u, code := code, cyc := d.time.cyc }

end Sys2Proof.Machine
end

