-- ==== Sys2Proof/Machine/RegsSys.lean ====
section
/-! DEFINITION. Register maps of the SYS, PWR, RED, MON, ERR, SAFE and SEC blocks (chapters 15 to 20),
and the reads and writes of every register of a die (R565, R567). -/

namespace Sys2Proof.Machine

/-- A further field of one register write: a refusal of an earlier field stays. -/
def Die.also (c : Bool) (f : Die → Die) (d : Die) : Die :=
  if !c then d
  else
    let was := d.host.access
    let d := f d
    if was = .ok then d else d.endAccess was

/-! SYS: identity, cell view and SMBus status (R590-R592) -/

/-- The keeper's firmware runs: function 0 is served (R564, R591). -/
def Die.fwRun (d : Die) : Bool := d.boot.phase = .firmware || d.boot.phase = .complete

def Die.sysId (d : Die) : Nat := 0xC128 + 0xB1 * 65536 + flag (decide (d.id = .b)) 24 + flag Config.gradeE 25

def Die.readIdent (d : Die) (o : Nat) : Nat :=
  let h := d.host
  match o with
  | 0x00 => d.sysId
  | 0x04 => flag h.nodeDup 0 + flag d.fwRun 1 + flag (decide (d.boot.phase = .minimal)) 2
  | 0x08 => h.nodeId.toNat
  | 0x20 => h.holdUs.toNat
  | 0x24 => flag (!h.held.isEmpty) 0 + flag h.noLink 1 + flag h.timeout 2 + flag h.unmapped 3 + flag h.badAccess 4
  | 0x28 => h.cvLog.toNat
  | 0x2C => h.smbStatus.toNat + 256 * h.smbAddr.toNat
  | _ => cntRead h.cnt 0x40 o

def Die.writeIdent (o : Nat) (v : W32) (d : Die) : Die :=
  let h := d.host
  match o with
  | 0x04 => { d with host := { h with nodeDup := w1c h.nodeDup v 0 } }
  | 0x20 => if 1000 < bits v 9 0 then d.refuse else { d with host := { h with holdUs := fld 10 v 0 } }
  | 0x24 =>
    { d with host := { h with noLink := w1c h.noLink v 1, timeout := w1c h.timeout v 2, unmapped := w1c h.unmapped v 3,
                              badAccess := w1c h.badAccess v 4 } }
  | _ => d

/-! SYS: boot (R527-R529) -/

def Die.readBoot (d : Die) (o : Nat) : Nat :=
  match o with
  | 0x00 => d.bootCause.toNat
  | 0x04 => d.boot.tries.toNat
  | 0x0C => d.boot.flashPage.toNat
  | 0x10 => if d.boot.phase = .firmware then 20000000 - (d.real - d.boot.wdAt) / 250 else 0
  | _ => 0

def Die.writeBoot (src : Source) (o : Nat) (v : W32) (d : Die) : Die :=
  match o with
  | 0x08 =>
    let d := d.also (bit v 0) (Die.bootOk src)
    let d := d.also (bit v 1) (Die.bootFail src (fld 8 v 8))
    d.also (bit v 2) Die.bootRetry
  | 0x0C => { d with boot := { d.boot with flashPage := fld 12 v 0 } }
  | _ => d

/-! SYS: image (R511-R513) -/

def ImgState.code : ImgState → Nat
  | .empty => 0 | .running => 1 | .check => 2 | .place => 3 | .staged => 4 | .applying => 5

def ImageUnit.read (u : ImageUnit) (o : Nat) : Nat :=
  match o with
  | 0x00 => u.src.toNat + flag u.atCyc 4
  | 0x04 => u.state.code + flag u.pass2 3 + flag u.pushReady 4 + flag u.done 5 + 256 * u.result.toNat
  | 0x08 => u.errRule.toNat + 65536 * u.errUid.toNat
  | 0x0C => u.errPos.toNat + 2 ^ 24 * u.errSec.toNat
  | 0x10 => u.applyCyc.toNat
  | 0x18 => u.pushBase.toNat
  | 0x1C => u.svn.toNat
  | _ =>
    if 0x20 ≤ o && o < 0x50 then fieldAt u.id (o - 0x20) 4
    else if 0x50 ≤ o && o < 0x80 then fieldAt u.stagedId (o - 0x50) 4
    else cntRead u.cnt 0x80 o

/-- IMG_CTRL (R512); LOAD from flash reads the copy of the firmware copy's index (R522). -/
def State.writeImgCtrl (id : DieId) (v : W32) (s : State) : State :=
  let s := s.upd id fun d => d.updImg fun u => { u with atCyc := if bit v 3 then u.atCyc else bit v 4 }
  let s := if bit v 2 then s.upd id fun d => d.imgLoad (fld 2 v 0) d.boot.fwCopy
    else s.upd id fun d => d.updImg fun u => { u with src := if u.state = .check || u.state = .place then u.src else fld 2 v 0 }
  let was := (s.die id).host.access
  let s := if bit v 3 then s.imgApply id (bit v 4) else s
  let s := if was = .ok then s else s.upd id (Die.endAccess was)
  s.upd id fun d => (d.also (bit v 5) Die.imgAbort).also (bit v 6) Die.imgClrCnt

def Die.writeImg (o : Nat) (v : W32) (d : Die) : Die :=
  match o with
  | 0x04 => d.updImg fun u => { u with done := w1c u.done v 5 }
  | 0x10 => d.updImg fun u => { u with applyCyc := v }
  | 0x14 => d.imgPushLen (fld 19 v 0)
  | _ => d

/-! SYS: QSPI (R593-R595) and DMA (R588, R589) -/

def Qspi.read (q : Qspi) (o : Nat) : Nat :=
  match o with
  | 0x00 => q.div.toNat + 16 * q.ioMode.toNat + flag q.addr4 6 + 256 * q.dummy.toNat
  | 0x04 => q.op.toNat + 16 * q.len.toNat
  | 0x08 => q.addr.toNat
  | 0x0C => flag q.busy 0 + flag q.done 1 + 4 * q.result.toNat + 256 * q.jedec.toNat
  | _ => if 0x100 ≤ o && o < 0x200 then leNat (sliceBytes q.data.toList (o - 0x100) 4) else 0

def Die.writeQspi (o : Nat) (v : W32) (d : Die) : Die :=
  let q := d.qspi
  match o with
  | 0x00 =>
    if bits v 5 4 = 3 then d.refuse
    else { d with qspi := { q with div := fld 4 v 0, ioMode := fld 2 v 4, addr4 := bit v 6, dummy := fld 4 v 8 } }
  | 0x04 =>
    if 256 < bits v 12 4 then d.refuse
    else if bit v 3 then d.qspiGo (bits v 2 0) (fld 9 v 4)
    else { d with qspi := { q with op := fld 3 v 0, len := fld 9 v 4 } }
  | 0x08 => { d with qspi := { q with addr := v } }
  | 0x0C => { d with qspi := { q with done := w1c q.done v 1 } }
  | _ =>
    if 0x100 ≤ o && o < 0x200 then { d with qspi := { q with data := putBytes q.data (o - 0x100) (leBytes 4 v.toNat) } } else d

def Die.dmaCh (d : Die) (c : Fin 4) : Dma := vget d.dma c

def Die.updDma (c : Fin 4) (f : Dma → Dma) (d : Die) : Die := { d with dma := vupd d.dma c f }

/-- A transfer ends (R587): DONE raises vector 0. -/
def Die.dmaEnd (c : Fin 4) (status doneLen : Nat) (d : Die) : Die :=
  (d.updDma c fun x => { x with busy := false, aborting := false, done := true, status := BitVec.ofNat 3 status,
                                doneLen := BitVec.ofNat 25 doneLen }).raise 0 (d.dmaCh c).done

/-- GO (R587, R609): a transfer between two host addresses, or on a running channel, is refused. -/
def Die.dmaGo (c : Fin 4) (srcHost dstHost : Bool) (d : Die) : Die :=
  if (d.dmaCh c).busy || (srcHost && dstHost) then d.refuse
  else
    let d := d.accept.updDma c fun x => { x with srcHost := srcHost, dstHost := dstHost }
    if (d.dmaCh c).len = 0 then d.dmaEnd c 1 0
    else d.updDma c fun x => { x with busy := true, aborting := false, moved := 0, fromHost := srcHost, toHost := dstHost }

/-- ABORT (R587): the channel stops after the access in flight. -/
def Die.dmaAbort (c : Fin 4) (d : Die) : Die := d.accept.updDma c fun x => { x with aborting := x.busy }

def Dma.read (x : Dma) (o : Nat) : Nat :=
  match o with
  | 0x00 => x.srcLo.toNat
  | 0x04 => x.srcHi.toNat
  | 0x08 => x.dstLo.toNat
  | 0x0C => x.dstHi.toNat
  | 0x10 => x.len.toNat
  | 0x14 => flag x.srcHost 2 + flag x.dstHost 3
  | 0x18 => flag x.busy 0 + flag x.done 1 + 4 * x.status.toNat
  | 0x1C => x.doneLen.toNat
  | _ => 0

/-- DMA_SRC, DMA_DST and DMA_LEN. -/
def Dma.put (o : Nat) (v : W32) (x : Dma) : Dma :=
  match o with
  | 0x00 => { x with srcLo := v }
  | 0x04 => { x with srcHi := v }
  | 0x08 => { x with dstLo := v }
  | 0x0C => { x with dstHi := v }
  | _ => { x with len := fld 25 v 0 }

def Die.writeDma (c : Fin 4) (o : Nat) (v : W32) (d : Die) : Die :=
  if o ≤ 0x10 then
    if (d.dmaCh c).busy || (o = 0x10 && 16777216 < bits v 24 0) then d.refuse else d.updDma c (Dma.put o v)
  else if o = 0x14 then
    let d := if bit v 0 then d.dmaGo c (bit v 2) (bit v 3)
      else d.updDma c fun x => { x with srcHost := bit v 2, dstHost := bit v 3 }
    d.also (bit v 1) (Die.dmaAbort c)
  else if o = 0x18 then d.updDma c fun x => { x with done := w1c x.done v 1 }
  else d

/-! SYS: MSI-X tables (R573, R574) -/

def MsixEntry.read (e : MsixEntry) (o : Nat) : Nat :=
  match o with
  | 0 => e.addr.toNat % 2 ^ 32
  | 4 => e.addr.toNat / 2 ^ 32
  | 8 => e.data.toNat
  | _ => e.ctrl.toNat

def MsixEntry.put (o : Nat) (v : W32) (e : MsixEntry) : MsixEntry :=
  match o with
  | 0 => { e with addr := BitVec.ofNat 64 (e.addr.toNat / 2 ^ 32 * 2 ^ 32 + v.toNat) }
  | 4 => { e with addr := BitVec.ofNat 64 (v.toNat * 2 ^ 32 + e.addr.toNat % 2 ^ 32) }
  | 8 => { e with data := v }
  | _ => { e with ctrl := v &&& 1 }

/-- The table of function 0; an entry unmasked with its pending bit set sends its message. -/
def Die.writeMsix (o : Nat) (v : W32) (d : Die) : Die :=
  let k := o / 16
  let d := { d with host := { d.host with msix := vmap d.host.msix fun i e => if i = k then e.put (o % 16) v else e } }
  if o % 16 = 12 && !bit v 0 && bit d.host.pba k then
    ({ d with host := { d.host with pba := d.host.pba &&& ~~~BitVec.ofNat 64 (2 ^ k) } }).msixCell k
  else d

/-- The table of function 1. -/
def Die.writeMsix1 (o : Nat) (v : W32) (d : Die) : Die :=
  let k := o / 16
  let d := { d with host := { d.host with msix1 := vmap d.host.msix1 fun i e => if i = k then e.put (o % 16) v else e } }
  if o % 16 = 12 && !bit v 0 && bit d.host.pba1 k then
    ({ d with host := { d.host with pba1 := d.host.pba1 &&& ~~~BitVec.ofNat 4 (2 ^ k) } }).msixRec k
  else d

def Die.readSys (d : Die) (o : Nat) : Nat :=
  if o < 0x1000 then d.readIdent o
  else if o < 0x2000 then d.readBoot (o - 0x1000)
  else if o < 0x3000 then d.img.read (o - 0x2000)
  else if o < 0x4000 then d.qspi.read (o - 0x3000)
  else if o < 0x4100 then (d.dmaCh (Fin.ofNat 4 ((o - 0x4000) / 0x40))).read (o % 0x40)
  else if 0x8000 ≤ o && o < 0x8400 then ((d.host.msix[(o - 0x8000) / 16]?).getD {}).read (o % 16)
  else if o = 0x9000 then d.host.pba.toNat % 2 ^ 32
  else if o = 0x9004 then d.host.pba.toNat / 2 ^ 32
  else 0

def Die.writeSys (src : Source) (o : Nat) (v : W32) (d : Die) : Die :=
  if o < 0x1000 then d.writeIdent o v
  else if o < 0x2000 then d.writeBoot src (o - 0x1000) v
  else if o < 0x3000 then d.writeImg (o - 0x2000) v
  else if o < 0x4000 then d.writeQspi (o - 0x3000) v
  else if o < 0x4100 then d.writeDma (Fin.ofNat 4 ((o - 0x4000) / 0x40)) (o % 0x40) v
  else if 0x8000 ≤ o && o < 0x8400 then d.writeMsix (o - 0x8000) v
  else d

/-! PWR and CLK (R556-R562) -/

def DomState.code : DomState → Nat
  | .off => 0 | .waking => 1 | .on => 2 | .ret => 3 | .unavailable => 4

def Die.readPwr (d : Die) (o : Nat) : Nat :=
  match o with
  | 0x00 => flag d.pwr.lpReq 0
  | 0x04 => flag d.pwr.lp 0 + flag d.pwr.aonBor 1 + 4 * d.pwr.holdCause.toNat
  | 0x08 => d.pwr.iLoad.toNat
  | 0x10 => d.pwr.logAddr.toNat
  | 0x14 => d.pwr.logDom.toNat + 256 * d.pwr.logInit.toNat + flag d.pwr.logValid 31
  | 0x1000 => flag d.clk.pllEn 0 + flag d.clk.selReq 1
  | 0x1004 => flag d.clk.lock 0 + flag d.clk.sel 1 + flag d.clk.pllFail 2 + flag d.clk.refLoss 3 + 16 * d.clk.attempts.toNat
  | _ =>
    if 0x100 ≤ o && o < 0x220 then
      let m := d.dom ((o - 0x100) / 8)
      if o % 8 = 0 then m.req.toNat + flag m.woa 2 else m.state.code + flag m.lost 3 + 16 * m.attempts.toNat
    else cntRead d.pwr.cnt 0x40 o

/-- PWR_DOM_CTRL (R559): REQ acts by R543 and R544; a refused write changes nothing. -/
def Die.writeDomCtrl (i : Nat) (v : W32) (d : Die) : Die :=
  let d := d.domRequest i (bits v 1 0)
  if d.host.access = .ok then d.updDom i fun m => { m with woa := bit v 2 } else d

/-- PLL_EN (R549, R561). -/
def Die.writePllEn (on : Bool) (d : Die) : Die := if on then d.accept.pllStart else d.accept.pllStop

def Die.writePwr (o : Nat) (v : W32) (d : Die) : Die :=
  match o with
  | 0x00 =>
    let d := if bit v 0 then d.lpRequest else { d with pwr := { d.pwr with lpReq := false } }
    (d.also (bit v 1) Die.clrAsleepLog).also (bit v 2) Die.clrPwrCnt
  | 0x04 => { d with pwr := { d.pwr with aonBor := w1c d.pwr.aonBor v 1 } }
  | 0x1000 =>
    let d := d.writePllEn (bit v 0)
    d.also (bit v 1 ≠ d.clk.selReq) (Die.writeSel (bit v 1))
  | _ =>
    if 0x100 ≤ o && o < 0x220 then
      let i := (o - 0x100) / 8
      if o % 8 = 0 then d.writeDomCtrl i v else d.updDom i fun m => { m with lost := w1c m.lost v 3 }
    else d

/-! RED (R488-R490) -/

def TkState.code : TkState → Nat
  | .standby => 0 | .armed => 1 | .shadow => 2 | .duty => 3 | .unfit => 4 | .waitoff => 5

/-- RED_UNIT_STAT of the unit of RED_UNIT_SEL, on its own die. -/
def UnitRec.word (u : UnitRec) : Nat :=
  u.state.code + flag u.silent 3 + 16 * u.faultCnt.toNat + 65536 * u.role.toNat

def State.selUnit (s : State) (u : W16) : UnitRec :=
  if !validUid u then {}
  else if bits u 15 14 = 2 then (if bits u 13 10 = 15 then (s.pkg.units[bits u 9 0]?).getD {} else {})
  else (s.die (if bits u 15 14 = 0 then .a else .b)).unit (bits u 13 10) (bits u 9 0)

def Die.readRed (d peer : Die) (o : Nat) : Nat :=
  let r := d.red
  match o with
  | 0x00 => flag r.confirmReq 1
  | 0x04 => flag r.grant 0 + flag (!peer.red.gateOpen) 1 + flag r.linkUp 2 + flag r.degraded 3 + 16 * r.cause.toNat
      + 128 * r.tk.code + 1024 * r.noSpare.toNat
  | 0x08 => r.sel.toNat
  | 0x18 => r.hbLast.toNat
  | 0x1C => r.tkCyc.toNat
  | 0x20 => r.dieHealth.toNat
  | 0x24 => r.dieFail.toNat
  | _ =>
    if 0x100 ≤ o && o < 0x180 then
      let c := (o - 0x100) / 8
      let h := (r.spares[c]?).getD {}
      if o % 8 = 0 then h.passCyc.toNat else (d.unit 0 (5 * c + 4)).state.code + 256 * h.fails.toNat
    else cntRead r.cnt 0x40 o

def unitAction (n : Nat) : Option UnitAction :=
  match n with
  | 1 => some .enable | 2 => some .drain | 3 => some .test | 4 => some .recover | 5 => some .quarantine
  | 6 => some .release | _ => none

def State.also (id : DieId) (c : Bool) (f : State → State) (s : State) : State :=
  if !c then s
  else
    let was := (s.die id).host.access
    let s := f s
    if was = .ok then s else s.upd id (Die.endAccess was)

/-- A register of RED written. GRANT_REQ acts for the keeper alone (R474; log entry 120). -/
def State.writeRed (id : DieId) (src : Source) (o : Nat) (v : W32) (s : State) : State :=
  match o with
  | 0x00 =>
    let s := s.also id (bit v 0 && src = .keeper) fun s => s.grantReq id
    let s := s.upd id (Die.hostConfirm (bit v 1))
    let s := s.also id (bit v 2) fun s => s.upd id Die.handover
    let s := s.also id (bit v 3) (State.restartPeer id)
    s.also id (bit v 4) fun s => s.upd id Die.redClrCnt
  | 0x08 => s.upd id fun d => { d with red := { d.red with sel := fld 16 v 0 } }
  | 0x0C =>
    match unitAction (bits v 2 0) with
    | none => s.upd id Die.refuse
    | some a => s.redUnitCmd id a
  | 0x14 => if bit v 0 then s.upd id Die.redConfirm else s
  | _ => s

/-! MON, ERR and SAFE (R610-R612) -/

def Die.readMon (pk : Package) (d : Die) (o : Nat) : Nat :=
  let m := d.mon
  let e := d.err
  if 0x20 ≤ o && o < 0x40 then ((m.temp[(o - 0x20) / 4]?).getD 0).toNat
  else if 0x40 ≤ o && o < 0x54 then ((m.volt[(o - 0x40) / 4]?).getD 0).toNat
  else if 0x60 ≤ o && o < 0xA0 then ((m.margin[(o - 0x60) / 4]?).getD 0).toNat
  else if 0x2010 ≤ o && o < 0x2020 then
    let x := d.safeIn (Fin.ofNat 4 ((o - 0x2010) / 4))
    x.arms.toNat + 65536 * x.stop.toNat + 2 ^ 18 * x.discMs.toNat + flag x.en 26
  else
    let head := match e.ring with | [] => 0 | r :: _ => r.toWord.toNat
    match o with
    | 0x00 => flag m.avsConflict 0 + flag m.powerCapConflict 1 + flag m.tempWarn 2 + flag m.voltWarn 3
    | 0x04 => m.vSwMin.toNat + 256 * m.vSwMax.toNat + 65536 * m.marginTgt.toNat + 2 ^ 24 * m.marginMin.toNat
    | 0x08 => m.avsV.toNat
    | 0x0C => m.pwrCap.toNat + 65536 * m.pwrCapOfs.toNat
    | 0x10 => m.pEst.toNat + 65536 * m.duty.toNat
    | 0x14 => m.tWarn.toNat
    | 0x1004 => e.irqSev.toNat
    | 0x1008 => e.ring.length
    | 0x100C => e.cntLost.toNat
    | 0x1010 => head % 2 ^ 32
    | 0x1014 => head / 2 ^ 32
    | 0x1018 => e.first.toNat % 2 ^ 32
    | 0x101C => e.first.toNat / 2 ^ 32
    | 0x2004 => d.safe.inputs.toList.zipIdx.foldl (fun (n : Nat) (p : SafeIn × Nat) =>
        n + 8 ^ p.2 * p.1.state.code) (65536 * d.safe.pins.toNat)
    | 0x2008 => flag pk.safeA 0 + flag pk.safeB 1 + flag e.foghorn 2
    | _ => 0

/-- The ranges of R611. -/
def avsCfgOk (v : W32) : Bool :=
  vSwOk v && 10 ≤ bits v 23 16 && bits v 23 16 ≤ 200 && 1 ≤ bits v 31 24 && bits v 31 24 < bits v 23 16

/-- ERR_CTRL: POP, CLR_FIRST, CLR_CNT, then FOG_CLR (R607). -/
def Die.writeErrCtrl (v : W32) (d : Die) : Die :=
  let d := if bit v 0 then d.errPop else d
  let d := if bit v 1 then d.errClrFirst else d
  let d := if bit v 3 then d.errClrCnt else d
  if bit v 2 then d.fogClr else d

def Die.writeMon (src : Source) (o : Nat) (v : W32) (d : Die) : Die :=
  let m := d.mon
  match o with
  | 0x00 =>
    { d with mon := { m with avsConflict := w1c m.avsConflict v 0, powerCapConflict := w1c m.powerCapConflict v 1,
                             tempWarn := w1c m.tempWarn v 2, voltWarn := w1c m.voltWarn v 3 } }
  | 0x04 =>
    if avsCfgOk v then
      { d with mon := { m with vSwMin := fld 8 v 0, vSwMax := fld 8 v 8, marginTgt := fld 8 v 16, marginMin := fld 8 v 24 } }
    else if vSwOk v then d.refuse else d.refuseWarn d.uidMon
  | 0x0C => { d with mon := m.putImg o v }
  | 0x14 => { d with mon := m.putImg o v }
  | 0x1000 => d.writeErrCtrl v
  | 0x1004 => { d with err := { d.err with irqSev := fld 3 v 0 } }
  | 0x1018 => { d with err := { d.err with first := BitVec.ofNat 64 (d.err.first.toNat / 2 ^ 32 * 2 ^ 32 + v.toNat) } }
  | 0x101C => { d with err := { d.err with first := BitVec.ofNat 64 (v.toNat * 2 ^ 32 + d.err.first.toNat % 2 ^ 32) } }
  | 0x1020 => { d with err := { d.err with swLow := v } }
  | 0x1024 => d.swRecord src v
  | 0x2000 => d.safeAck (fld 4 v 0)
  | _ => d

/-! SEC (R538, R539) -/

def SecState.code : SecState → Nat
  | .idle => 0 | .attest => 1 | .token => 2 | .burn => 3 | .claim => 4

/-- SEC_SLOT_STAT. -/
def Security.slotStat (s : Security) : Nat :=
  (List.range 4).foldl (fun n k =>
    n + flag (s.programmed k) k + flag ((s.revoked[k]?).getD false) (4 + k) + flag (s.programmed (4 + k)) (8 + k)
      + flag ((s.revoked[4 + k]?).getD false) (12 + k)) 0

def Security.status (s : Security) (minimal : Bool) : Nat :=
  s.state.code + flag s.done 3 + 16 * s.result.toNat + flag s.nonInv 8 + flag s.inv 9 + flag s.lmsExhausted 10 + flag minimal 11

def Die.readSec (d : Die) (o : Nat) : Nat :=
  let s := d.sec
  if o = 0x04 then s.status d.boot.minimal
  else if o = 0x08 then s.fused
  else if o = 0x0C then s.slotStat
  else if o = 0x10 then s.claimed + 65536 * (s.leaves.getD 1024)
  else if o = 0x14 then s.svnTarget.toNat
  else if 0x20 ≤ o && o < 0x30 then fieldAt s.challenge (o - 0x20) 4
  else if 0x30 ≤ o && o < 0x40 then fieldAt (Config.deviceId d.id.num) (o - 0x30) 4
  else if 0x40 ≤ o && o < 0x70 then fieldAt s.fwId (o - 0x40) 4
  else if 0x80 ≤ o && o < 0xA0 then leNat (sliceBytes s.nonce.toList (o - 0x80) 4)
  else if 0x100 ≤ o && o < 0x280 then fieldAt ((s.keyHash[(o - 0x100) / 48]?).getD []) ((o - 0x100) % 48) 4
  else if 0x400 ≤ o && o < 0x460 then fieldAt (ecdsaId d.id.num) (o - 0x400) 4
  else if 0x460 ≤ o && o < 0x49C then fieldAt (Config.lmsId d.id.num) (o - 0x460) 4
  else if 0x4000 ≤ o && o < 0x6000 then fieldAt s.attBuf (o - 0x4000) 4
  else cntRead s.cnt 0xC0 o

def Die.writeSec (o : Nat) (v : W32) (d : Die) : Die :=
  let s := d.sec
  if o = 0 then
    let d := d.also (bit v 0) Die.attReq
    let d := d.also (bit v 1) Die.tokenGo
    let d := d.also (bit v 2) Die.svnCommit
    let d := d.also (bit v 3) Die.dbgLock
    d.also (bit v 4) Die.secClrCnt
  else if o = 4 then { d with sec := { s with done := w1c s.done v 3 } }
  else if o = 0x14 then { d with sec := { s with svnTarget := fld 7 v 0 } }
  else if 0x80 ≤ o && o < 0xA0 then { d with sec := { s with nonce := putBytes s.nonce (o - 0x80) (leBytes 4 v.toNat) } }
  else if 0x1000 ≤ o && o < 0x3000 then
    { d with sec := { s with tokenBuf := s.tokenBuf.write 0 (o - 0x1000) (leBytes 4 v.toNat) } }
  else d

/-! Every register (R567) -/

/-- The word that a register reads. -/
def State.readAt (s : State) (id : DieId) (r : RegAt) : Nat :=
  let d := s.die id
  match r with
  | .sys o => d.readSys o
  | .pwr o => d.readPwr o
  | .time o => d.readTime o
  | .lane l o => (d.lane l).read d.time.cyc o
  | .can n o => (d.can n).read o
  | .eth p o => (d.port (Fin.ofNat 2 p)).read o
  | .axis a o => (d.axis a).read o
  | .pwm => d.pwm.top.toNat + 65536 * d.pwm.stepPw.toNat
  | .enc k o => (d.enc k).read o
  | .eng e o => d.readEng (Fin.ofNat 80 e) o
  | .joint cl i o => (match d.jointAt cl i with | none => 0 | some j => d.readJnt j o)
  | .region w o => (d.region w).read o
  | .sep o => d.readSep o
  | .qrc o => d.readQrc o
  | .red o => if o = 0x10 then (s.selUnit d.red.sel).word else d.readRed (s.die id.peer) o
  | .mon o => d.readMon s.pkg o
  | .sec o => d.readSec o
  | .cellView _ | .reserved | .hole => 0

/-- A register read: a read of TIME_NS latches TIME_NS_WRAP (R439). -/
def State.readReg (id : DieId) (off : Nat) (s : State) : Nat × State :=
  (s.readAt id (decodeReg off), if off = timeReg 8 then s.upd id Die.readTimeNs else s)

/-- A register of one die written. A port that the image does not name stays in its reset state (R14): the
access is carried out without an effect (DESIGN CHOICE, log entry 113). -/
def Die.writeAt (src : Source) (r : RegAt) (v : W32) (d : Die) : Die :=
  if !r.portUsed d.img.pins then d else
  match r with
  | .sys o => d.writeSys src o v
  | .pwr o => d.writePwr o v
  | .time o => d.writeTime o v
  | .lane l o => d.writeLane l o v
  | .can n o => d.writeCan n o v
  | .eth p o => d.writeEth (Fin.ofNat 2 p) o v
  | .axis a o => d.writeAxis a o v
  | .enc k o => d.writeEnc k o v
  | .eng e o => d.writeEng (Fin.ofNat 80 e) o v
  | .joint cl i o => (match d.jointAt cl i with | none => d | some j => d.writeJnt j o v)
  | .region w o => d.writeRegion w o v
  | .sep o => d.writeSep o v
  | .qrc o => d.writeQrc o v
  | .mon o => d.writeMon src o v
  | .sec o => d.writeSec o v
  | .pwm | .red _ | .cellView _ | .reserved | .hole => d

/-- A command of a port acts on both dies at the same strobe: it goes over the die-to-die link (R256). -/
def State.encForward (id : DieId) (k : Nat) (f : Die → Die) (s : State) : State :=
  let d := s.die id
  let p := s.die id.peer
  if d.red.linkUp && p.awake 33 then
    (s.upd id (Die.encHold k f p)).upd id.peer fun p => { Die.encHold k f d p with host := p.host }
  else s.upd id f

/-- A register written: the access starts as carried out. -/
def State.writeReg (id : DieId) (src : Source) (off : Nat) (v : W32) (s : State) : State :=
  let s := s.upd id Die.accept
  match decodeReg off with
  | .sys 0x2000 => s.writeImgCtrl id v
  | .red o => s.writeRed id src o v
  | .enc k o => if o = 0x00 || o = 0x38 then s.encForward id k (Die.writeAt src (.enc k o) v) else s.upd id (Die.writeAt src (.enc k o) v)
  | r => s.upd id (Die.writeAt src r v)

end Sys2Proof.Machine
end

