-- ==== Sys2Proof/Machine/Access.lean ====
section
/-! DEFINITION. Accesses from the host and inside a die: BAR0, BAR2, the cell view, SMBus, DMA and
accesses to sleeping domains (R552-R553, R564-R587, R625). -/

namespace Sys2Proof.Machine

/-- Whose access R552 takes it for. -/
def Source.initiator : Source → Initiator
  | .keeper => .core
  | .planner => .core
  | .smbus => .smbus
  | _ => .pcie

/-- The endpoint is in service (R541, R564, R625). -/
def Die.pcieUp (d : Die) : Bool := d.awake domPcie && d.awake domFab && !d.host.perst

/-- An access of the source comes in at all. -/
def Die.reaches (src : Source) (d : Die) : Bool :=
  match src with
  | .pcie | .pcieRecovery => d.pcieUp
  | .keeper => d.awake domKeep && d.boot.phase ≠ .reset && d.boot.phase ≠ .starting
  | .planner => d.fwRun
  | .smbus => d.boot.phase ≠ .reset && !d.pwr.lp

/-- An access that came over the endpoint shows that its link is up. -/
def Die.sawLink (src : Source) (d : Die) : Die :=
  match src with
  | .pcie | .pcieRecovery => { d with host := { d.host with linkUp := true } }
  | _ => d

/-- R565, R570: an access to a reserved range or an unmapped cell view offset. -/
def Die.badAccess (off : Nat) (write unmapped : Bool) (d : Die) : Die :=
  let h := d.host
  let was := if unmapped then h.unmapped else h.badAccess
  let h' := { h with badAccess := h.badAccess || !unmapped, unmapped := h.unmapped || unmapped,
                     cvLog := BitVec.ofNat 32 off, cnt := vupd h.cnt 4 satInc }
  ((({ d with host := h' }).raise 58 was).logOnce was .warn (d.uidDom domPcie) 0x3A).endAccess
    (if write then .dropped else .completerAbort)

/-- An access outside the served time of its function (R564). -/
def Die.notServed (write : Bool) (d : Die) : Die := d.endAccess (if write then .dropped else .completerAbort)

/-! Sleeping domains (R552, R553) -/

/-- An access would wake the domain: RET with WOA, and the clock it needs runs. -/
def Die.wakeable (i : Nat) (d : Die) : Bool :=
  !d.awake i && (d.dom i).state = .ret && (d.dom i).woa && (d.clk.sel || !domNeedsPll i)

/-- WAKE_ON_ACCESS (R553, R555): the access stalls, and the first one wakes the domain. -/
def Die.stall (i : Nat) (a : Stalled) (d : Die) : Die :=
  let d := { d with pwr := { d.pwr with cnt := vupd d.pwr.cnt 1 satInc } }
  let d := d.updDom i fun m => { m with stalled := m.stalled ++ [{ a with since := d.real }] }
  (if (d.dom i).resuming then d else d.exitLp.wakeChain i).endAccess .held

/-! One BAR0 word (R565) -/

/-- A word of BAR0 on a die: the word read, and the state after. `data`: the word written. -/
def State.word (id : DieId) (src : Source) (off : Nat) (data : Option W32) (s : State) : Nat × State :=
  let d := s.die id
  let r := if off % 4 = 0 then decodeReg off else .hole
  let write := data.isSome
  if r = .reserved then (0, s.upd id (Die.badAccess off write false))
  else if d.awake r.domain then
    match data with
    | none => let x := s.readReg id off; (if off % 4 = 0 then x.1 else 0, x.2.upd id Die.accept)
    | some v => (0, if off % 4 = 0 then s.writeReg id src off v else s.upd id Die.accept)
  else if d.wakeable r.domain then
    (0, s.upd id (Die.stall r.domain
      { initiator := src.initiator, src := src, bar2 := false, addr := BitVec.ofNat 32 off, len := 4,
        data := data.map fun v => (leBytes 4 v.toNat).map some }))
  else (0, s.upd id (Die.asleepAccess r.domain src.initiator (BitVec.ofNat 32 off) write))

/-- A word access with what it returns: a read that ends well returns its bytes. -/
def State.wordReply (id : DieId) (src : Source) (off : Nat) (data : Option W32) (s : State) : State :=
  let x := s.word id src off data
  if data.isNone && (x.2.die id).host.access = .ok then x.2.upd id (Die.emit (.read (leBytes 4 x.1))) else x.2

/-! The cell view (R570-R572) -/

/-- R570: the holder's BAR0 offset of a cell view offset. -/
def cellMap (o : Nat) : Option Nat :=
  if o < 0x900000 then (if 0x8000 ≤ o && o < 0xA000 then none else some o)
  else if o < 0x940000 then some (0x1000000 + (o - 0x900000) / 0x10000 * 0x100000 + o % 0x10000)
  else if 0xA00000 ≤ o && o < 0xE00000 then some (0x2000000 + (o - 0xA00000))
  else none

/-- A cell view access ends for want of a route: NOLINK or TIMEOUT. -/
def Die.cvFail (a : CvAccess) (timeout : Bool) (d : Die) : Die :=
  let h := d.host
  let was := if timeout then h.timeout else h.noLink
  let h' := if timeout then
      { h with timeout := true, cvLog := BitVec.ofNat 32 (0x3000000 + a.off), cnt := vupd h.cnt 3 satInc }
    else { h with noLink := true }
  ((({ d with host := h' }).raise 58 was).log .warn (d.uidDom domPcie) (if timeout then 0x38 else 0x39)).endAccess
    (if a.data.isSome then .dropped else .completerAbort)

/-- An access carried out on the holder for the endpoint of die `id`. -/
def State.cvLocal (id holder : DieId) (a : CvAccess) (s : State) : State :=
  match cellMap a.off with
  | none => s.upd id (Die.badAccess (0x3000000 + a.off) a.data.isSome true)
  | some off =>
    let x := s.word holder .pcie off a.data
    let acc := (x.2.die holder).host.access
    let s := x.2.upd id (Die.endAccess acc)
    if a.data.isNone && acc = .ok then s.upd id (Die.emit (.read (leBytes 4 x.1))) else s

def Die.updHost (f : HostIf → HostIf) (d : Die) : Die := { d with host := f d.host }

/-- R571: the routes. `acked`: a forwarded access is acknowledged by the holder before the grant moves. -/
def State.cvRoute (id : DieId) (a : CvAccess) (acked : Bool) (s : State) : State :=
  match s.holder with
  | none => s.upd id fun d => (d.updHost fun h => { h with held := h.held ++ [{ a with since := d.real }] }).endAccess .held
  | some h =>
    if h = id then s.cvLocal id id a
    else if (s.die id).red.linkUp then
      let s := s.upd id (Die.updHost fun h => { h with cnt := vupd h.cnt 0 satInc })
      if acked then s.cvLocal id h a
      else s.upd id fun d => (d.updHost fun h => { h with unacked := h.unacked ++ [a] }).endAccess .held
    else s.upd id (Die.cvFail a false)

/-- CELL_VIEW_RELEASE: a grant line asserts; the oldest held access is routed. -/
def State.cvRelease (id : DieId) (acked : Bool) (s : State) : State :=
  match (s.die id).host.held with
  | [] => s
  | a :: r =>
    if s.holder.isNone then s
    else (s.upd id (Die.updHost fun h => { h with held := r })).cvRoute id a acked

/-- Every held access is routed, oldest first. -/
def State.cvReleaseAll (id : DieId) : Nat → State → State
  | 0, s => s
  | n + 1, s => (s.cvRelease id true).cvReleaseAll id n

/-- CELL_VIEW_ACCESS (R570, R571): later accesses keep behind the held ones (R572). -/
def State.cvAccess (id : DieId) (a : CvAccess) (acked : Bool) (s : State) : State :=
  let d := s.die id
  if !d.pcieUp then s
  else
    let s := s.upd id (Die.sawLink .pcie)
    if !d.fwRun then s.upd id (Die.notServed a.data.isSome)
    else if (cellMap a.off).isNone then s.upd id (Die.badAccess (0x3000000 + a.off) a.data.isSome true)
    else
      let s := if s.holder.isSome then s.cvReleaseAll id d.host.held.length else s
      let s := if s.holder.isNone then s.upd id (Die.updHost fun h => { h with cnt := vupd h.cnt 1 satInc }) else s
      s.cvRoute id a acked

/-- CELL_VIEW_TIMEOUT: the oldest held access has been held for HOLD_US. -/
def State.cvTimeout (id : DieId) (s : State) : State :=
  match (s.die id).host.held with
  | [] => s
  | a :: r => s.upd id fun d => (d.updHost fun h => { h with held := r }).cvFail a true

/-- R572: the grant has moved; what the old holder has not acknowledged is reissued in order. -/
def State.cvResend (id : DieId) (s : State) : State :=
  let l := (s.die id).host.unacked
  let s := s.upd id (Die.updHost fun h => { h with unacked := [], cnt := vupd h.cnt 2 (satAdd l.length) })
  l.foldl (fun s a =>
    match s.holder with
    | some h => if h = id || (s.die id).red.linkUp then s.cvLocal id h a else s.upd id (Die.cvFail a false)
    | none => s.cvRoute id a true) s

/-! BAR2 (R566, R568) -/

/-- The domain that holds a BAR2 offset; none: reserved (R568). -/
def bar2Dom (o : Nat) : Option Nat :=
  if o < 0x680000 then some domFab
  else if 0x1000000 ≤ o && o < 0x2000000 then some (18 + (o - 0x1000000) / 0x400000)
  else if 0x2000000 ≤ o && o < 0x2400000 then some (2 + (o - 0x2000000) / 0x40000)
  else if 0x2400000 ≤ o && o < 0x2500000 then some domSep
  else if 0x2500000 ≤ o && o < 0x2580000 then some domKeep
  else none

/-- Program partitions and keeper SRAM: written only while the INV scope is open (R566). -/
def bar2Locked (o : Nat) : Bool :=
  (0x2000000 ≤ o && o < 0x2400000 && o % 0x40000 < 0x14000) || (0x2500000 ≤ o && o < 0x2580000)

/-- The running solve of a region reads the byte (R66): the record, P, fixed A, q, l and u with their
exponents, and its variable-row bank. -/
def Die.solveReads (o : Nat) (d : Die) : Bool :=
  0x1000000 ≤ o && o < 0x2000000 &&
    (let w := (o - 0x1000000) / 0x400000
     let a := o % 0x400000
     match (d.region w).run with
     | none => false
     | some r =>
       r.started && !r.ended &&
         (a < 0x8C000 || (0x224000 ≤ a && a < 0x364000) || (0x3E4000 ≤ a && a < 0x3E7000) ||
           (0x3F1000 ≤ a && a < 0x3F1003) ||
           (if r.vbank then 0x3A4000 ≤ a && a < 0x3E4000 else 0x364000 ≤ a && a < 0x3A4000)))

/-- The place in its matrix of an element of P or fixed A: row and column, and the dimensions below which an
element is no padding (R52, R65). -/
def Tmpl.matElem (t : Tmpl) (a : Nat) : Option (Nat × Nat × Nat × Nat) :=
  let place (map : List Bool) (rows o : Nat) : Option (Nat × Nat × Nat × Nat) :=
    (((map.zipIdx.filter (·.1)).map (·.2))[o / 4096]?).map fun k =>
      (32 * (k / 16) + o % 4096 / 128, 32 * (k % 16) + o % 128 / 4, rows, t.n)
  if 0x4000 ≤ a && a < 0x8C000 then place t.pmap t.n (a - 0x4000)
  else if 0x224000 ≤ a && a < 0x364000 then place t.amap (t.m - t.mv) (a - 0x224000)
  else none

/-- Written bytes break a rule that the loader checks of a region's store (R32): the record's structure,
maps and formats change only with an image (R66), its other fields keep their ranges (R62, R64), and a
padding element stays 0 (R52). -/
def Die.storeRule (cells : List (Nat × Byte)) (d : Die) : Bool :=
  (List.range 4).any fun w =>
    let own := (cells.filter fun c => storeBase w ≤ c.1 && c.1 < storeBase w + 0x400000).map fun c => (c.1 - storeBase w, c.2)
    (d.region w).state ≠ .off && !own.isEmpty &&
      (let t := d.tmpl w
       let old := d.sram.read 0 (storeBase w) 0x3B0
       let new := old.zipIdx.map fun x => ((own.find? (·.1 = x.2)).map (·.2)).getD x.1
       (own.any fun c => tmplFixed c.1 && (old[c.1]?).getD 0 ≠ c.2) || (new ≠ old && !tmplOk new) ||
         (own.any fun c => c.2 ≠ 0 && (match t.matElem c.1 with | some (i, j, m, n) => m ≤ i || n ≤ j | none => false)))

/-- The ECC word at `w` is written again. -/
def Die.healWord (w : Nat) (d : Die) : Die :=
  { d with eccBad := d.eccBad.filter (· ≠ w), eccSoft := d.eccSoft.filter (· ≠ w) }

/-- A write into the 64-bit word at `w` (R32, R66, R552, R566): a partial one reads the word first. -/
def Die.bar2Put (src : Source) (w : Nat) (cells : List (Nat × Byte)) (d : Die) : Die :=
  match bar2Dom w with
  | none => d.badAccess w true false
  | some i =>
    if !d.awake i then d.asleepAccess i src.initiator (BitVec.ofNat 32 w) true
    else if (bar2Locked w && !d.sec.inv && !(src = .keeper && i = domKeep)) || (cells.length < 8 && d.eccBad.contains w) then
      d.badAccess w true false
    else if cells.any (fun c => d.solveReads c.1) || d.storeRule cells then
      d.refuseWarn (d.uidRegion ((w - 0x1000000) / 0x400000))
    else (cells.foldl Die.pokeSram d).healWord w

/-- The bytes of a write by the 64-bit word they lie in, in ascending order. -/
def byWords (cells : List (Nat × Byte)) : List (Nat × List (Nat × Byte)) :=
  ((cells.map fun c => c.1 / 8 * 8).eraseDups).map fun w => (w, cells.filter fun c => c.1 / 8 * 8 = w)

/-- The enabled bytes of a write from `a` on. -/
def enabled (a : Nat) (l : List (Option Byte)) : List (Nat × Byte) :=
  l.zipIdx.filterMap fun p => p.1.map fun b => (a + p.2, b)

/-- The 64-bit words that an access of `n` bytes touches. -/
def wordsOf (a n : Nat) : List Nat := if n = 0 then [] else (List.range ((a + n - 1) / 8 - a / 8 + 1)).map fun k => (a / 8 + k) * 8

/-- A BAR2 read: the first word that cannot be read decides (R552, R566). -/
def Die.bar2Read (src : Source) (a n : Nat) (d : Die) : Die :=
  let bad := (wordsOf a n).find? fun w =>
    match bar2Dom w with | none => true | some i => !d.awake i
  match bad with
  | some w =>
    (match bar2Dom w with
     | none => d.badAccess w false false
     | some i => d.asleepAccess i src.initiator (BitVec.ofNat 32 w) false)
  | none =>
    let e := d.accept.emit (.read (d.sramBytes a n))
    match (wordsOf a n).find? fun w => d.eccBad.contains w with
    | some w => (e.badAccess w false false).endAccess .poisoned
    | none => e

/-- A BAR2 access of the layout of function 0. -/
def Die.bar2Do (src : Source) (a n : Nat) (data : Option (List (Option Byte))) (d : Die) : Die :=
  match data with
  | none => d.bar2Read src a n
  | some l => (byWords (enabled a l)).foldl (fun d p => d.bar2Put src p.1 p.2) d.accept

/-- The length of an access. -/
def accessLen (n : Nat) (data : Option (List (Option Byte))) : Nat := (data.map List.length).getD n

/-- A BAR2 access, stalled where it wakes a domain (R553, R566). -/
def Die.bar2 (src : Source) (a n : Nat) (data : Option (List (Option Byte))) (d : Die) : Die :=
  match (wordsOf a (accessLen n data)).filterMap (fun w => (bar2Dom w).filter fun i => d.wakeable i) with
  | i :: _ =>
    d.stall i { initiator := src.initiator, src := src, bar2 := true, addr := BitVec.ofNat 32 a, len := n, data := data }
  | [] => d.bar2Do src a n data

/-- The flash window of minimal mode (R526, R584): a write programs the bytes written. -/
def Die.flashWindow (o n : Nat) (data : Option (List (Option Byte))) (d : Die) : Die :=
  let a := d.boot.flashPage.toNat * 65536 + o
  match data with
  | none => d.accept.emit (.read (d.qspi.flash.read 0xFF a n))
  | some l =>
    (enabled a l).foldl (fun (d : Die) c => { d with qspi := { d.qspi with flash := flashProgram d.qspi.flash c.1 [c.2] } }) d.accept

/-- BAR2 of function 1 (R569). -/
def Die.bar2Recovery (o n : Nat) (data : Option (List (Option Byte))) (d : Die) : Die :=
  if o + accessLen n data ≤ 0x10000 then
    if d.boot.phase = .minimal then d.flashWindow o n data else d.notServed data.isSome
  else if 0x40000 ≤ o && o + accessLen n data ≤ 0x80000 then d.bar2 .pcieRecovery (d.img.pushBase.toNat + (o - 0x40000)) n data
  else d.badAccess o data.isSome false

/-- BAR2_ACCESS. -/
def Die.bar2Access (src : Source) (o n : Nat) (data : Option (List (Option Byte))) (d : Die) : Die :=
  if !d.reaches src || src = .smbus then d
  else
    let d := d.sawLink src
    if src = .pcieRecovery then d.bar2Recovery o n data
    else if src = .pcie && !d.fwRun then d.notServed data.isSome
    else d.bar2 src o n data

/-! REGISTER_WRITE (R565, R569) -/

/-- The windows of function 1 in BAR0. -/
def recoveryMap (o : Nat) : Option Nat :=
  if o < 0x8000 then some o
  else if 0x10000 ≤ o && o < 0x20000 then some (0x100000 + (o - 0x10000))
  else if 0x20000 ≤ o && o < 0x30000 then some (0x2300000 + (o - 0x20000))
  else if 0x80000 ≤ o && o < 0x90000 then some (0x2400000 + (o - 0x80000))
  else none

/-- A write of one BAR0 word; with a byte enable clear it is dropped. -/
def State.registerWrite (id : DieId) (src : Source) (o : Nat) (v : W32) (be : BitVec 4) (s : State) : State :=
  if !(s.die id).reaches src then s
  else
    let s := s.upd id (Die.sawLink src)
    if src = .pcie && !(s.die id).fwRun then s.upd id (Die.notServed true)
    else if be ≠ 0xF then s.upd id (Die.endAccess .dropped)
    else if src = .pcieRecovery then
      match recoveryMap o with
      | some off => (s.word id src off (some v)).2
      | none =>
        if 0xF0000 ≤ o && o < 0xF0040 then s.upd id fun d => d.accept.writeMsix1 (o - 0xF0000) v
        else if 0xF8000 ≤ o && o < 0xF8008 then s.upd id Die.accept
        else s.upd id (Die.badAccess o true false)
    else
      match decodeReg o with
      | .cellView c =>
        if src = .pcie then s.cvAccess id { off := c, data := some v } true else s.upd id (Die.badAccess o true false)
      | _ => (s.word id src o (some v)).2

/-! SMBus (R578-R581) -/

/-- A READ or WRITE ends with a status (R580). -/
def Die.smbEnd (status : Nat) (d : Die) : Die :=
  let d := d.updHost fun h => { h with smbStatus := BitVec.ofNat 3 status }
  if status = 0 then d else (d.updHost fun h => { h with cnt := vupd h.cnt 5 satInc }).log .info (d.uidDom 0) 0x3C

/-- The ranges that the SMBus target does not reach. -/
def smbBadAddr (off : Nat) : Bool :=
  match decodeReg off with
  | .sys o => 0x8000 ≤ o && o < 0xA000
  | .cellView _ => true
  | _ => false

/-- The status of a word access. -/
def Access.smb : Access → Nat
  | .ok => 0
  | .domainAsleep => 1
  | .completerAbort => 3
  | .dropped => 3
  | _ => 2

/-- One word of a command: its value and status. -/
def State.smbWord (id : DieId) (off : Nat) (data : Option W32) (s : State) : Nat × Nat × State :=
  if smbBadAddr off then (0, 3, s)
  else
    let x := s.word id .smbus off data
    let st := (x.2.die id).host.access.smb
    (if st = 0 then x.1 else 0, st, x.2)

/-- The words of a READ: bytes, first failure. -/
def State.smbReadWords (id : DieId) : Nat → Nat → State → List Byte × Nat × State
  | _, 0, s => ([], 0, s)
  | off, n + 1, s =>
    let x := s.smbWord id off none
    let y := x.2.2.smbReadWords id (off + 4) n
    (leBytes 4 x.1 ++ y.1, if x.2.1 = 0 then y.2.1 else x.2.1, y.2.2)

/-- The words of a WRITE, up to the first that fails. -/
def State.smbWriteWords (id : DieId) : Nat → List W32 → State → Nat × State
  | _, [], s => (0, s)
  | off, v :: r, s =>
    let x := s.smbWord id off (some v)
    if x.2.1 = 0 then x.2.2.smbWriteWords id (off + 4) r else (x.2.1, x.2.2)

/-- The 32-bit words of a byte list. -/
def wordsLe : List Byte → List W32
  | a :: b :: c :: d :: r => BitVec.ofNat 32 (leNat [a, b, c, d]) :: wordsLe r
  | _ => []

/-- A READ or WRITE command carried out. -/
def State.smbDo (id : DieId) (off n : Nat) (data : Option (List Byte)) (s : State) : State :=
  match data with
  | none =>
    let x := s.smbReadWords id off (n / 4)
    (x.2.2.upd id (Die.emit (.smbus (BitVec.ofNat 8 n :: x.1)))).upd id (Die.smbEnd x.2.1)
  | some l =>
    let x := s.smbWriteWords id off (wordsLe l)
    x.2.upd id (Die.smbEnd x.1)

/-- The first domain that the command would wake (R553, R578). -/
def Die.smbWakes (d : Die) (off n : Nat) : Option Nat :=
  ((List.range (n / 4)).map fun k => (decodeReg (off + 4 * k)).domain).find? fun i => d.wakeable i

/-- A READ or WRITE as sent: PEC, then the lengths, then the words (R579, R580). -/
def State.smbCommand (id : DieId) (off n : Nat) (lenOk pecOk : Bool) (data : Option (List Byte)) (s : State) : State :=
  let d := s.die id
  if d.boot.phase = .reset && d.pwr.holdCause ≠ 0 then
    if data.isNone && off = 0x100004 && lenOk && n = 4 && pecOk then
      s.upd id fun d => (d.emit (.smbus (4 :: leBytes 4 (d.readPwr 4)))).updHost fun h => { h with smbStatus := 0 }
    else s.upd id (Die.updHost fun h => { h with smbStatus := 6 })
  else if !d.reaches .smbus then s
  else if !pecOk then s.upd id (Die.smbEnd 4)
  else if !lenOk then s.upd id (Die.smbEnd 5)
  else
    match d.smbWakes off n with
    | some i =>
      s.upd id (Die.stall i { initiator := .smbus, src := .smbus, bar2 := false, addr := BitVec.ofNat 32 off, len := n,
                              data := data.map fun l => l.map some })
    | none => s.smbDo id off n data

/-- SMB_READ: count 5; N is 4 to 32 and a multiple of 4. -/
def State.smbRead (id : DieId) (count off n : Nat) (pecOk : Bool) (s : State) : State :=
  s.smbCommand id off n (count = 5 && n % 4 = 0 && 4 ≤ n && n ≤ 32) pecOk none

/-- SMB_WRITE: count 4 + N; N is 4 to 28 and a multiple of 4. -/
def State.smbWrite (id : DieId) (count off : Nat) (data : List Byte) (pecOk : Bool) (s : State) : State :=
  let n := data.length
  s.smbCommand id off n (count = 4 + n && n % 4 = 0 && 4 ≤ n && n ≤ 28) pecOk (some data)

/-- The target answers: not held in reset without a hold responder, not asleep in LP mode. -/
def Die.smbAnswers (d : Die) : Bool := (d.boot.phase = .reset && d.pwr.holdCause ≠ 0) || d.reaches .smbus

/-- SMB_STATUS. -/
def Die.smbStatus (d : Die) : Die :=
  if d.smbAnswers then d.emit (.smbus [BitVec.ofNat 8 d.host.smbStatus.toNat]) else d

/-- SMB_IDENT: SYS_ID and SYS_BOOT_CAUSE; a die that holds itself in reset answers HELD. -/
def Die.smbIdent (d : Die) : Die :=
  if d.reaches .smbus then d.emit (.smbus (8 :: leBytes 4 d.sysId ++ leBytes 4 d.bootCause.toNat))
  else if d.smbAnswers then d.updHost fun h => { h with smbStatus := 6 }
  else d

/-- SMB_SCL_TIMEOUT: the transaction is abandoned, with what it has stalled (R578). -/
def Die.smbSclTimeout (d : Die) : Die :=
  { d with pwr := { d.pwr with doms := vmap d.pwr.doms fun _ m =>
    { m with stalled := m.stalled.filter fun a => a.src ≠ .smbus } } }

/-! DMA (R586, R587) -/

def Dma.src (x : Dma) : Nat := x.srcHi.toNat * 2 ^ 32 + x.srcLo.toNat
def Dma.dst (x : Dma) : Nat := x.dstHi.toNat * 2 ^ 32 + x.dstLo.toNat

/-- Why a transfer cannot go past a byte. -/
inductive DmaStop where
  | none
  | status (n : Nat)
  | wakes (dom addr : Nat) (write : Bool)
  | asleep (dom addr : Nat) (write : Bool)
  deriving DecidableEq, Repr

/-- A device access of the engine at a byte; `whole`: the transfer writes all of its 64-bit word. -/
def Die.dmaCheck (a : Nat) (write whole : Bool) (d : Die) : DmaStop :=
  match bar2Dom a with
  | none => .status 3
  | some i =>
    if !d.awake i then (if d.wakeable i then .wakes i a write else .asleep i a write)
    else if write && ((bar2Locked a && !d.sec.inv) || d.solveReads a) then .status 3
    else if d.eccBad.contains (a / 8 * 8) && !(write && whole) then .status 3
    else .none

/-- The channel's next byte: what stops it. -/
def Die.dmaNext (x : Dma) (host : List Byte) (m m0 : Nat) (d : Die) : DmaStop :=
  let s := if x.fromHost then (if m - m0 < host.length then .none else .status 4) else d.dmaCheck (x.src + m) false false
  match s with
  | .none =>
    if x.toHost then .none
    else
      let w := (x.dst + m) / 8 * 8
      d.dmaCheck (x.dst + m) true (x.dst ≤ w && w + 8 ≤ x.dst + x.len.toNat)
  | s => s

/-- Bytes move in increasing address order until the count ends or one is stopped. `out` gathers what
goes to host space. -/
def Die.dmaMove (x : Dma) (host : List Byte) (m0 : Nat) : Nat → Nat → List Byte → Die → Nat × List Byte × DmaStop × Die
  | 0, m, out, d => (m, out, .none, d)
  | n + 1, m, out, d =>
    match d.dmaNext x host m m0 with
    | .none =>
      let b := if x.fromHost then (host[m - m0]?).getD 0 else d.sram.get 0 (x.src + m)
      if x.toHost then d.dmaMove x host m0 n (m + 1) (out ++ [b])
      else if d.storeRule [(x.dst + m, b)] then (m, out, .status 3, d)
      else
        let a := x.dst + m
        let d := { d with sram := d.sram.put 0 a b }
        (if a % 8 = 7 then d.healWord (a / 8 * 8) else d).dmaMove x host m0 n (m + 1) out
    | s => (m, out, s, d)

/-- A transfer stops at an access that fails: its WARN record (R587, R596). -/
def Die.dmaFail (c : Fin 4) (status moved : Nat) (d : Die) : Die :=
  (d.log .warn (d.uidDom domFab) 0x3F).dmaEnd c status moved

/-- A stalled access of the channel waits for its domain. -/
def Die.dmaStalled (c : Fin 4) (d : Die) : Bool :=
  d.pwr.doms.toList.any fun m => m.stalled.any fun a => a.initiator = .dma && a.chan = c

/-- DMA_DONE: the transfer runs on to its end, to a failed access or to an abort. `host`: the bytes that
host space returned; `stopAt`: the bytes that the channel had moved when an abort took effect. -/
def Die.dmaDone (c : Fin 4) (host : List Byte) (stopAt : Nat) (d : Die) : Die :=
  let x := d.dmaCh c
  if !x.busy || d.dmaStalled c then d
  else
    let m0 := x.moved
    let n := (if x.aborting then min stopAt x.len.toNat else x.len.toNat) - m0
    let r := d.dmaMove x host m0 n m0 [] 
    let d := if r.2.1.isEmpty then r.2.2.2 else r.2.2.2.emit (.hostWrite (x.dst + m0) r.2.1)
    match r.2.2.1 with
    | .none => d.dmaEnd c (if x.aborting && r.1 < x.len.toNat then 5 else 0) r.1
    | .status st => d.dmaFail c st r.1
    | .asleep i a w => ((d.asleepAccess i .dma (BitVec.ofNat 32 a) w).endAccess d.host.access).dmaFail c 2 r.1
    | .wakes i a w =>
      let d := d.updDma c fun x => { x with moved := r.1 }
      (d.stall i { initiator := .dma, src := .pcie, bar2 := true, addr := BitVec.ofNat 32 a, len := 1,
                   data := if w then some [] else none, chan := c }).endAccess d.host.access

/-! The end of a stall (R553) -/

/-- A stalled access is carried out. -/
def State.resumeAccess (id : DieId) (a : Stalled) (s : State) : State :=
  let off := a.addr.toNat
  if a.initiator = .dma then s
  else if a.src = .smbus then s.smbDo id off a.len (a.data.map fun l => l.filterMap (fun b => b))
  else if a.bar2 then s.upd id (Die.bar2Do a.src off a.len a.data)
  else s.wordReply id a.src off (a.data.map fun l => BitVec.ofNat 32 (leNat (l.filterMap fun b => b)))

/-- What comes back with a domain that reaches ON: the endpoint's link, the monitor (R137). -/
def Die.backOn (i : Nat) (d : Die) : Die :=
  let d := if i = domPcie then d.updHost fun h => { h with linkUp := !h.perst } else d
  if i = domSep then d.sepStart else d

/-- DOM_RESUME_DONE: the domain is ON, and what waited for it is carried out. -/
def State.domResumeDone (id : DieId) (i : Nat) (s : State) : State :=
  let l := ((s.die id).dom i).stalled
  let s := s.upd id (Die.domResume i)
  if (s.die id).awake i then
    let s := s.upd id fun d => (d.updDom i fun m => { m with stalled := [] }).backOn i
    l.foldl (fun s a => s.resumeAccess id a) s
  else s

/-- WOA_TIMEOUT (R553): the access that has waited 50 µs ends by R552; the wake goes on. -/
def Die.woaTimeout (i : Nat) (d : Die) : Die :=
  match (d.dom i).stalled with
  | [] => d
  | a :: r =>
    if d.awake i then d
    else
      let d := d.updDom i fun m => { m with stalled := r }
      let d := { d with pwr := { d.pwr with cnt := vupd d.pwr.cnt 2 satInc } }
      let d := (d.log .warn (d.uidDom i) 0x16).asleepAccess i a.initiator a.addr a.data.isSome
      if a.initiator = .dma then d.dmaFail a.chan 2 (d.dmaCh a.chan).moved
      else if a.src = .smbus then
        (match a.data with
         | none => d.emit (.smbus (BitVec.ofNat 8 a.len :: List.replicate a.len 0))
         | some _ => d).smbEnd 1
      else d

/-- WAKE_ON_ACCESS: an access that meets a sleeping domain; one in RET with WOA wakes. -/
def State.wakeOnAccess (id : DieId) (a : Stalled) (s : State) : State :=
  let off := a.addr.toNat
  if a.initiator = .dma then s
  else if a.src = .smbus then
    s.smbCommand id off (accessLen a.len a.data) true true (a.data.map fun l => l.filterMap (fun b => b))
  else if a.bar2 then s.upd id (Die.bar2Access a.src off a.len a.data)
  else if !(s.die id).reaches a.src then s
  else s.wordReply id a.src off (a.data.map fun l => BitVec.ofNat 32 (leNat (l.filterMap fun b => b)))

/-- DOMAIN_ASLEEP_ACCESS (R552, R555): an access to a sleeping domain that is no wake-on-access. -/
def Die.domainAsleep (i : Nat) (who : Initiator) (addr : W32) (write : Bool) (d : Die) : Die :=
  if d.awake i || d.wakeable i then d else d.asleepAccess i who addr write

/-! The endpoint (R564, R596, R625) -/

/-- What a reset of function 0 loses: its MSI-X table, pending bits and the accesses it holds. -/
def Die.resetFn0 (d : Die) : Die :=
  d.updHost fun h => { h with msix := Vector.replicate 64 {}, pba := 0, held := [], unacked := [] }

/-- Both functions are reset. -/
def Die.resetEndpoint (d : Die) : Die := d.resetFn0.updHost fun h => { h with msix1 := Vector.replicate 4 {}, pba1 := 0 }

/-- The data link layer leaves DL_Active (R596). -/
def Die.linkDown (d : Die) : Die :=
  if d.host.linkUp then
    let d := d.resetEndpoint.updHost fun h => { h with linkUp := false }
    if d.awake domPcie then d.log .warn (d.uidDom domPcie) 0x3B else d
  else d

/-- PERST_ASSERT: the endpoint is held in reset; nothing outside PCIE changes but the link's record. -/
def Die.perstAssert (d : Die) : Die := (d.linkDown.resetEndpoint).updHost fun h => { h with perst := true }

/-- PERST_RELEASE: the endpoint trains where its domain is ON. -/
def Die.perstRelease (d : Die) : Die := d.updHost fun h => { h with perst := false, linkUp := h.linkUp || d.awake domPcie }

/-- FUNCTION_LEVEL_RESET of function 0. -/
def Die.functionLevelReset (d : Die) : Die := if d.pcieUp then d.resetFn0 else d

/-! Received Ethernet frames (R430) -/

/-- The UDP checksum of a datagram with its pseudo header; 0 in the field: none (R430). -/
def udpOk (ip udp : List Byte) : Bool :=
  fieldAt udp 6 2 = 0 ||
    fold16 (sum16 (sliceBytes ip 12 8) + 17 + udp.length + sum16 udp) = 65535

/-- A UDP datagram in an IPv4 packet that is not fragmented: destination port, payload, and whether its checksum
holds. -/
def udpOf (ip : List Byte) : Option (Nat × List Byte × Bool) :=
  let frag := fieldAt ip 6 1 % 64 * 256 + fieldAt ip 7 1
  let ihl := fieldAt ip 0 1 % 16
  if fieldAt ip 0 1 / 16 = 4 && 5 ≤ ihl && frag = 0 && fieldAt ip 9 1 = 17 then
    let udp := ip.drop (4 * ihl)
    let len := fieldAt udp 4 1 * 256 + fieldAt udp 5 1
    if 8 ≤ len && len ≤ udp.length then
      some (fieldAt udp 2 1 * 256 + fieldAt udp 3 1, (udp.take len).drop 8, udpOk ip (udp.take len))
    else none
  else none

/-- The answer to an ARP request for the port's address; none for another packet. -/
def Die.arpReply (p : Fin 2) (arp : List Byte) (d : Die) : Option (List Byte) :=
  let mac := sliceBytes ((d.img.pins.macs[2 * d.id.num + p.val]?).getD []) 0 6
  let ip := sliceBytes ((d.img.pins.ips[2 * d.id.num + p.val]?).getD []) 0 4
  if arp.take 8 = [0, 1, 8, 0, 6, 4, 0, 1] && sliceBytes arp 24 4 = ip && p.val < 2 &&
      2 * d.id.num + p.val < d.img.pins.ips.length then
    some (sliceBytes arp 8 6 ++ mac ++ [8, 6] ++ [0, 1, 8, 0, 6, 4, 0, 2] ++ mac ++ ip ++ sliceBytes arp 8 10)
  else none

/-- A sensor payload in a layer 2 frame, without the bytes that fill the frame up to its least length. -/
def sensorBytes (p : List Byte) : List Byte :=
  let n := 32 + 12 * fieldAt p 2 1
  if p.length = 46 && n < 46 then p.take n else p

/-- A frame is delivered: counted, then `f`. -/
def Die.delivered (p : Fin 2) (f : Die → Die) (d : Die) : Die := f (d.countPort p 0)

/-- ETH_FRAME_RX: the first row of R430 that matches. -/
def Die.ethFrameRx (p : Fin 2) (frame : List Byte) (fcsOk : Bool) (d : Die) : Die :=
  if !d.portOn p then d
  else if !fcsOk then d.countPort p 2
  else if 1518 < frame.length then d.countPort p 1
  else
    let src := sliceBytes frame 6 6
    let tagged := sliceBytes frame 12 2 = [0x81, 0x00]
    let body := frame.drop (if tagged then 16 else 12)
    let pl := body.drop 2
    let sensor (b : List Byte) (d : Die) : Die := if d.awake domSep then d.sensorFrame b else d
    match body.take 2 with
    | [0x88, 0xF7] => d.delivered p (Die.ptpRx p pl)
    | [0x88, 0xB5] =>
      if fieldAt pl 0 1 = 0x81 then d.delivered p (Die.announceRx src pl) else d.delivered p (sensor (sensorBytes pl))
    | [0x08, 0x00] =>
      (match udpOf pl with
       | some (port, data, ok) =>
         if !ok then d.countPort p 1
         else if (port = 319 || port = 320) && fieldAt pl 0 1 % 16 = 5 then d.delivered p (Die.ptpRx p data)
         else if port = d.img.pins.sepUdpPort then d.delivered p (sensor data)
         else d.countPort p 1
       | none => d.countPort p 1)
    | [0x08, 0x06] =>
      (match d.arpReply p pl with
       | some r => d.delivered p fun d => (d.emit (.eth p r)).countPort p 3
       | none => d.countPort p 1)
    | _ => d.countPort p 1

end Sys2Proof.Machine
end

