-- ==== Sys2Proof/Machine/Cycle.lean ====
section
/-! DEFINITION. CELL_CYCLE_START: what a cell cycle boundary does on a die (R446 and what 95 names
with it), and how an event lets the clock run on to its time. -/

namespace Sys2Proof.Machine

/-- A die drives the shared balls: its gate is open (R473). -/
def State.driven (s : State) : Bool := s.a.red.gateOpen || s.b.red.gateOpen

/-- The clocks of both dies run on by `n` ticks (R434). -/
def State.elapse (n : Nat) (s : State) : State :=
  { s.both (Die.pass n) with pkg := { s.pkg with undriven := if s.driven then 0 else s.pkg.undriven + n } }

/-- Ticks until TIME_NS of a die reaches `due`, for an event that lies before the next cycle start;
an event beyond it has not come yet, and 0 ticks pass (log entry 40). -/
def Die.ticksToDue (d : Die) (due : Option W32) : Nat :=
  match due with
  | none => 0
  | some t =>
    if d.clkPer && (!d.time.cycRun || decide (0 ≤ diff32 d.time.nominal t)) then d.time.ticksTo t else 0

/-- The clock runs on to the time of an event on die `id`. -/
def State.reach (id : DieId) (due : Die → Option W32) (s : State) : State :=
  s.elapse ((s.die id).ticksToDue (due (s.die id)))

/-- The die runs its cell: as holder of the grant, or armed for a takeover (R477, R480). -/
def Die.driving (d : Die) : Bool := d.red.grant || d.takingOver

/-- The cycle starts of a standby are those of the duty die (R447). -/
def Die.led (d peer : Die) : Bool :=
  !d.driving && d.red.linkUp && peer.red.grant && peer.time.cycRun && peer.clkPer

/-- A cycle of the duty die has started that the standby has yet to start (R447). -/
def Die.follows (d peer : Die) : Bool := d.led peer && (d.time.cycFirst || peer.time.cyc ≠ d.time.cyc)

/-- The runs of the cycle that ends: library programs make theirs on what they have (R190, R203), the joints
of other programs are followed; a program that has not ended is an OVERRUN (R297). -/
def Die.endRuns (d : Die) : Die :=
  let d := (List.range 80).foldl (fun d r => d.closeLibrary r) d
  let d := (List.range 128).foldl (fun d j => d.followJoint j) d
  (List.finRange 80).foldl (fun d (e : Fin 80) => if d.engRuns e then d.engFault e causeOverrun else d) d

/-- Engine runs start (R296): every ACTIVE engine with a role, but one whose role is replaced in this
cycle (R507). -/
def Die.startRuns (d : Die) : Die :=
  (List.finRange 80).foldl (fun d (e : Fin 80) =>
    if (d.engine e).skipRun then d.updEng e fun g => { g with skipRun := false }
    else if (d.unit 0 e).state = .active && (d.engine e).roleNum.isSome then d.startRun e d.time.cyc false
    else d) d

/-- What the producers write at a boundary: every region's interpolator, and the generators. -/
def Die.refill (d : Die) : Die :=
  let d := (List.range 4).foldl (fun d w => d.fillRegion w) d
  (List.range 128).foldl (fun d j => if (d.jnt j).used then d.refillPg j else d) d

/-- The queues that step 2 of R164 squashes: those of regions whose scale changes or whose plan is
published at this boundary, with the generators' queues of a changed scale (R127, R195, R79). -/
def Die.boundarySquashes (d : Die) (published : List Nat) : List Nat :=
  (List.range 4).flatMap (fun w =>
      if d.scaleChanged w || published.contains w then (d.regionSpQueues w).map (·.1) else [])
    ++ (List.range 128).filterMap (fun j =>
      let x := d.jnt j
      if x.used && d.scaleChanged x.region then d.pgQueue j else none)

/-- With the monitor OFF every region target is 0 (R129). -/
def Die.holdTargets (d : Die) : Die :=
  if d.sep.state = .off || !d.awake domSep then
    { d with sep := { d.sep with
        arms := vmap d.sep.arms fun _ a => { a with target := 0 }
        regions := vmap d.sep.regions fun _ r => { r with target := 0 } } }
  else d

/-- The work of a boundary on the die that runs the cell, with cycle `d.time.cyc` just begun. -/
def Die.boundaryWork (d : Die) : Die :=
  let d := d.holdTargets
  let d := (List.range 128).foldl (fun d j => if (d.jnt j).used then d.handoverBoundary j else d) d
  let d := (List.range 4).foldl (fun d w => d.scaleBoundary w) d
  let d := (List.range 128).foldl (fun d j => if (d.jnt j).used then d.advancePath j else d) d
  let pubs := (List.range 4).filter fun w => (d.region w).toPublish.isSome
  let d := pubs.foldl (fun d w => d.publish w) d
  let d := d.boundaryQueues (d.boundarySquashes pubs) Die.refill
  { d with red := { d.red with tk := if d.red.tk = .armed then .shadow else d.red.tk } }

/-- What only the holder of the grant does: planning and monitor periods (R39), the heartbeat (R475),
the node announce (R431), the judgement of spares (R487). -/
def Die.holderWork (d : Die) : Die :=
  let d := (List.range 4).foldl (fun d w => if d.isPeriodStart w then d.periodStart w else d) d
  let d := if d.red.live && d.red.linkUp && d.red.handingOver.isNone then
      d.emit (.token false d.time.cyc d.imgSig) else d
  d.sendAnnounces.judgeSpares

/-- A die that takes over counts the planning periods as they start (R480). -/
def Die.shadowPeriods (d : Die) : Die :=
  (List.range 4).foldl (fun d w => if d.isPeriodStart w then d.periodStart w else d) d

/-- The work of every die at a boundary: lanes, CAN, modes that move there (R213, R394, R421, R445,
R481). -/
def Die.boundaryModes (d : Die) : Die :=
  let d := ((List.range 8).foldl (fun d l => d.laneBoundary l) d).canBoundary
  { d with eth := vmap d.eth (fun _ p => { p with host := p.hostReq, roleSrc := p.roleSrc && d.red.grant })
           joints := vmap d.joints (fun _ x => x.boundary)
           red := { d.red with confirmMode := d.red.confirmReq } }

/-- The time unit rewritten. -/
def Die.updTime (f : TimeUnit → TimeUnit) (d : Die) : Die := { d with time := f d.time }

/-- The monitor's part of a boundary: its period starts where CYC mod 4 = 0 (R39, R507). -/
def Die.monitorBoundary (d : Die) : Die :=
  if d.time.cyc.toNat % 4 = 0 then d.takeGeometry.monitorPeriod else d

/-- The work of a boundary on a die. -/
def Die.cycleWork (d : Die) : Die :=
  let d := d.realignTicks.boundaryModes
  let d := (if d.driving then d.boundaryWork else d).monitorBoundary
  (if d.red.grant then d.holderWork else if d.takingOver then d.shadowPeriods else d).startRuns

/-- A cell cycle starts on a die, at the tick its counter stands at; `next` moves CYC and the start
times. -/
def Die.cycleBegin (next : TimeUnit → TimeUnit) (d : Die) : Die :=
  (d.endRuns.updTime next).inUidOrder Die.cycleWork

/-- The cycle counters of the duty die as the standby adopts them (R447). -/
def TimeUnit.adopt (duty t : TimeUnit) : TimeUnit :=
  { t with cyc := duty.cyc, cycFirst := false, start := duty.start, nominal := duty.nominal,
           cycPhase := duty.cycPhase }

/-- CELL_CYCLE_START of a die (R446): the counter reaches the nominal start. A die without cycles, or
whose CLK_PER stands still, has none, and a standby none before the duty die's (R447); a load that places ends the image
at this boundary (R504). -/
def State.cycleStart (id : DieId) (s : State) : State :=
  let d := s.die id
  let p := s.die id.peer
  let follow := d.follows p
  if !d.time.cycRun || !d.clkPer || (d.led p && !follow) then s
  else
    let s := if follow then s else s.elapse (d.time.ticksTo d.time.nominal)
    if d.img.state = .place then s.upd id Die.endImage
    else
      let s := if d.red.grant then s.judgeFitness else s
      if follow then
        s.upd id fun d => (d.cycleBegin (TimeUnit.adopt p.time)).followTime p.time
      else s.upd id (Die.cycleBegin (TimeUnit.startCycle d.img.cell.tc))

end Sys2Proof.Machine
end

