-- ==== Sys2Proof/Machine/Settle.lean ====
section
/-! DEFINITION. What follows every command on its own: the gates (R473), an update that meets a takeover
(R510), the safe outputs (R476, R606) and the interrupts of the sources that changed (R573, R574). -/

namespace Sys2Proof.Machine

/-- The W1C flags of ENC_STATUS, and STATE at FAULT (R288). -/
def Enc.sources (x : Enc) : List Bool :=
  [x.quadErr, x.mismatch, x.frameErr, x.parityErr, x.errBit, x.stale, x.emuLag, x.ptGap, decide (x.state = .fault)]

/-- A source of a list has changed from clear to set. -/
def rises (l : List (Bool × Bool)) : Bool := l.any fun p => !p.1 && p.2

/-- Vectors 0 and 2: the sources that no operation signals itself. -/
def Die.imgRises (b d : Die) : Bool := rises [(b.img.done, d.img.done), (b.img.pushReady, d.img.pushReady)]

def Die.redChanges (b d : Die) : Bool :=
  decide (b.red.grant ≠ d.red.grant) || decide (b.red.tk ≠ d.red.tk) || decide (b.red.degraded ≠ d.red.degraded)
    || decide (b.red.noSpare ≠ d.red.noSpare)

/-- Vectors 8 to 15, 16 to 19, 20 to 35, 36 to 51 and 52 to 55 of a unit. -/
def Lane.signals (b x : Lane) : Bool :=
  rises [(b.acDone, x.acDone)] || decide (x.alarm &&& ~~~b.alarm ≠ 0) || decide (b.state ≠ x.state)

def Can.signals (b x : Can) : Bool :=
  rises ((b.bufs.toList.map (·.done)).zip (x.bufs.toList.map (·.done))) ||
    rises [(!b.fifo.isEmpty, !x.fifo.isEmpty), (b.ovf, x.ovf)] || decide (b.st ≠ x.st)

def Axis.signals (b x : Axis) : Bool :=
  rises [(b.bridgeFlt, x.bridgeFlt), (b.waitStep, x.waitStep), (decide (6 ≤ b.homeSt.toNat), decide (6 ≤ x.homeSt.toNat))]

def Enc.signals (b x : Enc) : Bool := rises (b.sources.zip x.sources)

def Region.signals (b x : Region) : Bool :=
  rises [(decide (b.commitErr ≠ 0), decide (x.commitErr ≠ 0)), (decide (b.state = .tail), decide (x.state = .tail))]

/-- Vector 56. -/
def Sep.signals (b x : Sep) : Bool :=
  rises ([(b.mismatch, x.mismatch), (b.overrun, x.overrun), (b.clearance, x.clearance), (b.scaleConflict, x.scaleConflict)]
    ++ (b.sensors.toList.map fun s => decide (s.state ≠ .fresh)).zip (x.sensors.toList.map fun s => decide (s.state ≠ .fresh)))

/-- The numbers of the units of two tables for which `f` holds. -/
def changed {α : Type} {n : Nat} (f : α → α → Bool) (base : Nat) (b x : Vector α n) : List Nat :=
  ((b.toList.zip x.toList).zipIdx.filter fun p => f p.1.1 p.1.2).map fun p => base + p.2

/-- The vectors whose sources changed over a command, but for those that an operation signals itself. -/
def Die.vectors (b d : Die) : List Nat :=
  (if b.imgRises d then [0] else []) ++ (if b.redChanges d then [2] else []) ++
    changed Lane.signals 8 b.lanes d.lanes ++ changed Can.signals 16 b.cans d.cans ++
    changed Axis.signals 20 b.axes d.axes ++ changed Enc.signals 36 b.encs d.encs ++
    changed Region.signals 52 b.regions d.regions ++ (if b.sep.signals d.sep then [56] else [])

/-- A function of the endpoint is served (R564): before and after the command. -/
def Die.served (d : Die) : Bool := d.fwRun || d.boot.phase = .minimal || d.boot.phase = .rom

/-- The messages of a command (R573, R574). -/
def Die.interrupts (b d : Die) : Die :=
  if b.served && d.served then (b.vectors d).foldl (fun d v => d.msix v) d else d

/-- The level that `SAFE_OUT_A` and `SAFE_OUT_B` take: that of the die whose gate is open; with none
they are held (R476, R606). -/
def State.safeLevel (s : State) (held : Bool) : Bool :=
  if s.a.red.gateOpen then s.a.motionPermitted
  else if s.b.red.gateOpen then s.b.motionPermitted else held

def State.driveSafe (s : State) : State :=
  { s with pkg := { s.pkg with safeA := s.safeLevel s.pkg.safeA, safeB := s.safeLevel s.pkg.safeB,
                                undriven := if s.driven then 0 else s.pkg.undriven } }

/-- A die reads VDD_1V8 below 1.50 V (R640). -/
def State.vdd18Low (s : State) : Bool := vget s.a.rst.low 2 || vget s.b.rst.low 2

/-- The gates: while VDD_1V8 reads below 1.50 V both hold every shared output undriven (R243, R638). -/
def State.gates (s : State) : State :=
  if s.vdd18Low then s.both fun d => { d with red := { d.red with gateOpen := false } }
  else s.both Die.gateSync

/-- What follows a command of its own: `before` is the state the command found. -/
def State.settle (before s : State) : State :=
  let s := s.gates.applyMeetsTakeover.driveSafe
  (s.upd .a (Die.interrupts before.a)).upd .b (Die.interrupts before.b)

/-- A command that acts on one die. -/
def onDie (id : DieId) (f : Die → Die) (s : State) : Host.Outcome State Fault Refusal :=
  .next (s.settle (s.upd id f))

/-- A command that acts on the package. -/
def onState (f : State → State) (s : State) : Host.Outcome State Fault Refusal := .next (s.settle (f s))

/-- A command that acts on one die with sight of the other. -/
def onPair (id : DieId) (f : Die → Die → Die) (s : State) : Host.Outcome State Fault Refusal :=
  onState (State.updWith id f) s

/-- An event of a die that comes at a time the manual states: the clocks run on to it first. -/
def onDue (id : DieId) (due : Die → Option W32) (f : Die → Die → Die) (s : State) :
    Host.Outcome State Fault Refusal :=
  onState (fun s => (s.reach id due).updWith id f) s

/-- The standby copies what a CAN command did on the duty die, over the link (R422). -/
def State.mirrorCans (id : DieId) (s : State) : State :=
  let d := s.die id
  if d.red.grant && d.red.linkUp then
    s.upd id.peer fun p => { p with cans := vmap p.cans fun n x => Can.mirror (d.can n) x }
  else s

/-- The standby copies the controllers of the duty die that a command has changed (R422). -/
def State.mirrorChanged (s before : State) (id : DieId) : State :=
  let d := s.die id
  let differs (n : Fin 4) : Bool := d.can n ≠ (before.die id).can n
  if d.red.grant && d.red.linkUp && (List.finRange 4).any differs then
    s.upd id.peer fun p => { p with cans := vmap p.cans fun n x => if d.can n = (before.die id).can n then x else Can.mirror (d.can n) x }
  else s

/-- An access that may reach the duty die through either die, with what the standby copies of it. -/
def State.mirrorDuty (f : State → State) (s : State) : State := ((f s).mirrorChanged s .a).mirrorChanged s .b

def onCan (id : DieId) (f : Die → Die) (s : State) : Host.Outcome State Fault Refusal :=
  onState (fun s => (s.upd id f).mirrorCans id) s

/-- The grant has moved: accesses that the old holder has not acknowledged are reissued (R572). -/
def State.afterGrant (before s : State) : State :=
  if s.holder.isSome && decide (s.holder ≠ before.holder) then (s.cvResend .a).cvResend .b else s

/-- A command that may move the grant. -/
def onGrant (f : State → State) (s : State) : Host.Outcome State Fault Refusal :=
  onState (fun s => s.afterGrant (f s)) s

end Sys2Proof.Machine
end

