-- ==== Sys2Proof/Machine/Due.lean ====
section
/-! DEFINITION. The times at which the manual lets its timed events come, each as TIME_NS of the die;
none where the event cannot come now. The clocks run on to that time before the event acts (log entry
40). -/

namespace Sys2Proof.Machine

/-- An offset in the cell cycle in progress. -/
def Die.inCycle (d : Die) (ns : Nat) : Option W32 :=
  if d.time.cycRun then some (d.time.start + BitVec.ofNat 32 ns) else none

/-- An offset back from the start of the next cell cycle. -/
def Die.beforeNext (d : Die) (ns : Nat) : Option W32 := d.inCycle (d.img.cell.tc - ns)

/-- HANDOVER_LIVE_STOP: the start of n + 2 less 750 ns (R482). -/
def Die.dueLiveStop (d : Die) : Option W32 :=
  match d.red.handingOver with
  | some n => if d.time.cyc = n + 1 then d.beforeNext 750 else none
  | none => none

/-- TAKEOVER_CHECK_POINT (R477): 1,000 ns before a cycle from d + 2 on. -/
def Die.dueCheckPoint (d : Die) : Option W32 :=
  if d.red.tk = .shadow && decide (1 ≤ diff32 d.time.cyc d.red.silentAt) then d.beforeNext 1000 else none

/-- WAITOFF_TIMEOUT (R477): 100 ns before cycle k. -/
def Die.dueWaitoff (d : Die) : Option W32 := if d.red.tk = .waitoff then d.beforeNext 100 else none

/-- QSTOP_TIMEOUT (R210). -/
def Die.dueQstop (j : Nat) (d : Die) : Option W32 :=
  let x := d.jnt j
  if x.stop = 2 && !x.atRest then some (x.stopNs + BitVec.ofNat 32 (x.cfg.qsTmaxMs * 1000000)) else none

/-- LISTEN_TIMEOUT (R272). -/
def Die.dueListen (k : Nat) (d : Die) : Option W32 :=
  let x := d.enc k
  if x.cfg.mode = 3 then some (x.goodNs + BitVec.ofNat 32 (x.cfg.errLimit.toNat * d.img.cell.tc)) else none

/-- ENC_SAMPLE_STROBE and SSI_FRAME_START (R266, R273): SAMPLE_OFS after the cycle start. -/
def Die.dueSample (k : Nat) (d : Die) : Option W32 := d.inCycle ((d.enc k).cfg.sampleOfs.toNat * 16)

/-- F_OUT of a class F joint (R187) and of a small axis (R232). -/
def Die.dueFOut (j : Nat) (d : Die) : Option W32 := d.inCycle ((d.jnt j).cfg.fOut.toNat * 16)
def Die.dueDriveSet (a : Nat) (d : Die) : Option W32 := d.inCycle ((d.axis a).cfg.fOut.toNat * 16)

/-- BEACON_SEND (R378) and an entry of the schedule (R379). -/
def Die.dueBeacon (l : Nat) (d : Die) : Option W32 := d.inCycle ((d.lane l).cfg.beaconOfs * 4)
def Die.dueEntry (l i : Nat) (d : Die) : Option W32 :=
  match d.schedEntry l i with
  | some e => d.inCycle (e.offset * 4)
  | none => none

/-- BEACON_MISSING (R385): 5 µs after the expected cycle start. -/
def Die.dueMissing (l : Nat) (d : Die) : Option W32 :=
  let x := d.lane l
  if (x.state = .node && x.nodeSt ≠ .listen) || x.state = .backup then
    some (x.nextStart + 5000)
  else none

/-- BACKUP_TAKEOVER (R388). -/
def Die.dueBackup (l : Nat) (d : Die) : Option W32 :=
  let x := d.lane l
  if x.state = .backup && x.missing = 2 then some x.takeoverAt else none

/-- SILENCE_TIMEOUT, CLASH_BACKOFF_END and BACKUP_SILENCE (R387): a silence of so many ns. -/
def Die.dueSilence (l : Nat) (d : Die) : Option W32 :=
  let x := d.lane l
  let after (ns : Nat) : Option W32 := some (x.lastSof + BitVec.ofNat 32 ns)
  match x.state with
  | .silent => after (3 * d.img.cell.tc + 4000 * x.cfg.rank.toNat)
  | .clash => after ((x.cfg.rank.toNat + 1) * 8000)
  | .backup => after (3 * d.img.cell.tc)
  | _ => none

/-- REPLY_MISSED (R368, R390): the end of the reply window. -/
def Die.dueReply (l : Nat) (d : Die) : Option W32 :=
  match (d.lane l).waiting with
  | some w => if w.lapsed then none else some (w.eof + BitVec.ofNat 32 (4 * w.deadline + 320))
  | none => none

/-- The end of a frame whose first SOF bit came at `sof`, by its code groups (R352, R354). -/
def dueFrameEnd (sof : W32) (g : List (BitVec 10)) (_ : Die) : Option W32 :=
  some (sof + BitVec.ofNat 32 (40 * g.length))

/-- STARTUP_READBACK (R387): a frame identical to the one sent has been read when its EOF ends; a difference shows at
once. -/
def Die.dueReadback (l : Nat) (ok : Bool) (d : Die) : Option W32 :=
  if ok && (d.lane l).state = .starting then some ((d.lane l).txEof d.time.ns) else none

/-- SPEC_SOLVE_START (R105): t_(j+1) less SPEC_LEAD. -/
def Die.dueSpec (w : Nat) (d : Die) : Option W32 :=
  let r := d.region w
  match r.run with
  | some run =>
    if r.state = .armed && run.spec && run.period ≠ r.period then
      some (r.tj + BitVec.ofNat 32 (1000000 - r.act.specLead.toNat))
    else none
  | none => none

/-- VERIFY_CHECK (R85): at once when every reply is in, else t_j + SPEC_VMAX. -/
def Die.dueVerify (w : Nat) (d : Die) : Option W32 :=
  if (d.region w).state = .off || (d.region w).verifyDone || d.verifyDue w then none
  else some ((d.region w).tj + BitVec.ofNat 32 (d.region w).act.specVmax.toNat)

/-- SOLVE_DEADLINE (R97): t_j + DEADLINE. -/
def Die.dueDeadline (w : Nat) (d : Die) : Option W32 :=
  if (d.region w).deadlineDone || (d.region w).state = .off then none
  else some ((d.region w).tj + BitVec.ofNat 32 (d.tmpl w).deadlineNs)

/-- SENSOR_STALE (R140): the newest frame is older than MAXAGE. -/
def Die.dueStale (k : Nat) (d : Die) : Option W32 :=
  let s := d.sep.sensor k
  match s.frame, d.sep.geom.sensor k with
  | some f, some g => if s.state = .fresh then some (f.ts + BitVec.ofNat 32 (g.maxAge + 1)) else none
  | _, _ => none

/-- ENGINE_OVERRUN (R297, R478). -/
def Die.dueOverrun (e : Fin 80) (d : Die) : Option W32 :=
  if !d.engRuns e then none
  else if (d.engine e).shadow then d.beforeNext 500
  else d.inCycle ((d.engine e).dl.toNat * 16)

/-- WAITQ_RESUME (R187, R310, R311): F_START of a class F port whose group is there, the wait limit otherwise;
for a library program the time of its run. -/
def Die.dueWaitq (e : Fin 80) (d : Die) : Option W32 :=
  match (d.engine e).wait with
  | .group qp =>
    match d.bind e qp with
    | some b =>
      let fs := b.fStart.getD 0
      d.inCycle (if (d.queue b.queue).ready (d.engine e).regs.rcyc then fs else max b.waitNs fs)
    | none => none
  | .none => if d.engRuns e then (((d.engine e).roleNum.bind d.libraryDue).bind fun t => d.inCycle t) else none
  | _ => none

/-- F_OUT_LATCH (R189, R190): a class F joint whose output group for the cycle is not committed
underruns, and CNT_F_OVERRUN counts it. -/
def Die.fOutLatch (j : Nat) (d : Die) : Die :=
  let x := d.jnt j
  if !x.used || !x.cfg.classF || !d.driving then d
  else
    let r := d.takeTx x.cfg.lane x.roleNum
    if r.1.isSome then r.2 else r.2.updJnt j (Joint.count 6)

/-- DOM_REG_READY (R545, R460). -/
def Die.regReady (i : Nat) (d : Die) : Die :=
  let e := d.domRegReady i
  if e.awake i && !d.awake i then (e.domToImage i).backOn i else e

/-- A management command on a register of domain `i` of a die: none reaches a die held in reset, and one on a
port that the image does not name has no effect (R14, log entry 113). -/
def Die.cmd (i addr : Nat) (f : Die → Die) (d : Die) : Die :=
  if d.boot.phase = .reset then d
  else d.mgmt i addr fun d => if (decodeReg addr).portUsed d.img.pins then f d else d

/-- A command on a register of a joint; an unused joint has no register (R213). -/
def Die.jointCmd (j o : Nat) (f : Die → Die) (d : Die) : Die :=
  let c := (d.jnt j).cfg
  if (d.jnt j).used then d.cmd (2 + c.cluster) (jointReg c.cluster c.engine c.slot o) f else d

/-- A command on the package through a register of a die in its FAB domain (R488). -/
def State.cmd (id : DieId) (i addr : Nat) (f : State → State) (s : State) : State :=
  let d := s.die id
  if d.boot.phase = .reset then s
  else if d.awake i then f (s.upd id Die.accept) else s.upd id (Die.asleepAccess i .pcie (BitVec.ofNat 32 addr) true)

/-- A read of TIME_NS (R440): its bytes are returned, and WRAP8 latched. -/
def Die.timeNsRead (d : Die) : Die :=
  if d.boot.phase = .reset then d
  else if !d.awake 1 then d.asleepAccess 1 .pcie (BitVec.ofNat 32 (timeReg 8)) false
  else (d.accept.readTimeNs).emit (.read (leBytes 4 d.time.ns.toNat))

/-- An event that comes with so many ticks of the clock, or not at all now: the clocks run on to it. -/
def State.timed (id : DieId) (ticks : Die → Option Nat) (f : Die → Die) (s : State) : State :=
  match ticks (s.die id) with
  | some n => (s.elapse n).upd id f
  | none => s

/-- `need` ns from now, unless the next cycle start comes first (log entry 40). -/
def Die.ticksAhead (need : Nat) (d : Die) : Option Nat :=
  if d.clkPer && (!d.time.cycRun || decide ((need : Int) ≤ diff32 d.time.nominal d.time.ns)) then
    some (d.time.ticksFor need)
  else none

/-- `n` ticks from now, unless the next cycle start comes first (log entry 40). -/
def Die.ticksIn (n : Nat) (d : Die) : Option Nat :=
  if d.clkPer && (!d.time.cycRun || decide ((4 * n : Int) ≤ diff32 d.time.nominal d.time.ns)) then some n else none

/-- `n` ticks from now, unless a cycle start of either die comes first (log entry 40). -/
def State.ticksIn (n : Nat) (s : State) : Option Nat :=
  let ok (d : Die) : Bool := !d.clkPer || !d.time.cycRun || decide ((4 * n : Int) ≤ diff32 d.time.nominal d.time.ns)
  if ok s.a && ok s.b then some n else none

/-- An event of the package that comes with so many ticks, or not at all now. -/
def State.after (n : Option Nat) (f : State → State) (s : State) : State :=
  match n with
  | some n => f (s.elapse n)
  | none => s

/-- Ticks until the clock of a die is at `due`, where the event can come before the next cycle start. -/
def State.ticksTo (id : DieId) (due : Die → Option Nat) (s : State) : Option Nat :=
  (due (s.die id)).bind fun t => s.ticksIn (t - (s.die id).real)

/-- A limit on the clock of a die runs out (log entry 40). -/
def State.expires (id : DieId) (due : Die → Option Nat) (f : Die → Die) (s : State) : State :=
  s.after (s.ticksTo id due) (State.upd id f)

/-- DOM_WAKE_TIMEOUT and DOM_WAKE_RETRY (R545): 2 ms and 100 µs; the AON regulator has no domain's attempt. -/
def Die.dueWakeTimeout (i : Nat) (d : Die) : Option Nat :=
  if i = 0 then some d.real
  else if (d.dom i).state = .waking && (d.dom i).closed then some ((d.dom i).since + 500000) else none

def Die.dueWakeRetry (i : Nat) (d : Die) : Option Nat :=
  if (d.dom i).state = .waking && !(d.dom i).closed then some ((d.dom i).since + 25000) else none

/-- WOA_TIMEOUT (R553): 50 µs after the oldest access that the domain stalls. -/
def Die.dueWoa (i : Nat) (d : Die) : Option Nat := (d.dom i).stalled.head?.map fun a => a.since + 12500

/-- PLL_LOCK_TIMEOUT and PLL_RESTART (R549): 2 ms and 100 µs. -/
def Die.duePll (d : Die) : Option Nat := if d.clk.pllRunning && !d.clk.lock then some (d.clk.since + 500000) else none
def Die.duePllRestart (d : Die) : Option Nat :=
  if d.clk.pllEn && !d.clk.pllRunning then some (d.clk.since + 25000) else none

/-- BOOT_WATCHDOG (R522): 20 s. -/
def Die.dueWatchdog (d : Die) : Option Nat :=
  if d.boot.phase = .firmware then some (d.boot.wdAt + 5000000000) else none

/-- PUSH_TIMEOUT (R508, R522): 100 ms, but 60 s for the first chunk of firmware. -/
def Die.duePush (d : Die) : Option Nat :=
  if !d.img.pushReady then none
  else some (d.img.readyAt + if d.boot.phase = .rom && d.boot.fwBuf.isEmpty then 15000000000 else 25000000)

/-- CELL_VIEW_TIMEOUT (R571): HOLD_US after the oldest held access came. -/
def Die.dueHold (d : Die) : Option Nat := d.host.held.head?.map fun a => a.since + 250 * d.host.holdUs.toNat

/-- A QSPI timeout (R584): 10 ms for PROGRAM, 3 s for an erase. -/
def Die.dueQspi (d : Die) : Option Nat :=
  if !d.qspi.busy || d.qspi.runOp.toNat < 3 then none
  else some (d.qspi.since + if d.qspi.runOp = 3 then 2500000 else 750000000)

/-- MONITOR_SAMPLE, AVS_STEP and POWER_CAP_STEP (R597-R599): 100 µs after the one before. -/
def Die.dueStep (last : Mon → Option Nat) (d : Die) : Option Nat :=
  some (match last d.mon with | some t => t + 25000 | none => d.real)

/-- SAFE_DISC_TIMEOUT (R605): DISC_MS after the request. -/
def Die.dueDisc (k : Fin 4) (d : Die) : Option Nat :=
  if (d.safeIn k).state = .wait then some ((d.safeIn k).waitAt + 250000 * (d.safeIn k).discMs.toNat) else none

/-- SAFE_IN_SAMPLE: no time passes where a cycle start comes first. -/
def State.safeInSample (id : DieId) (k : Fin 4) (a b : Bool) (n : Nat) (s : State) : State :=
  let s := s.both (Die.safePins k a b)
  (match s.ticksIn n with | some n => s.elapse n | none => s).upd id (Die.safeSample k)

/-- GATE_CLOSE: 500 ns after the last edge of LIVE (R473). -/
def State.gateClose (id : DieId) (s : State) : State :=
  let d := s.die id
  if d.red.gateOpen && !d.red.live then s.after (s.ticksIn (125 - d.red.quiet)) fun s => s.upd id Die.gateClose else s

/-- SAFE_OUT_HOLD_EXPIRY (R476): 4 cell cycles after a die last drove them the held outputs go to "motion not
permitted". -/
def State.safeHoldExpiry (s : State) : State :=
  if s.driven then s
  else s.after (s.ticksIn (max s.a.img.cell.tc s.b.img.cell.tc - s.pkg.undriven)) fun s =>
    { s with pkg := { s.pkg with safeA := false, safeB := false } }

/-- Ticks until the standby finds the holder silent (R475): HB(k) missing 2,000 ns after the start of k, or a gap of
1,000 ns in LIVE. -/
def State.ticksToSilent (id : DieId) (s : State) : Option Nat :=
  let d := s.die id
  let p := s.die id.peer
  let hb := if d.time.cycRun && d.red.hbLast ≠ d.time.cyc then [d.time.ticksFor (2000 - (d.sinceStart : Int))] else []
  let gap := if p.red.live then [] else [250 - p.red.quiet]
  (hb ++ gap).min?.bind fun n => d.ticksIn n

/-- TAKEOVER_CHECK_POINT (R477): the grant is asserted 500 ns before the start of k. -/
def State.checkPoint (id : DieId) (s : State) : State :=
  let s := s.reach id Die.dueCheckPoint
  if (s.die id).checkTakes (s.die id.peer) then (s.elapse 125).upd id Die.takeGrant
  else s.updWith id Die.checkStays

/-- ENOFF_ASSERT in WAITOFF: the grant is asserted 100 ns later (R477). -/
def State.enoffAssert (id : DieId) (s : State) : State :=
  if (s.die id).waitoffTakes (s.die id.peer) then (s.elapse 25).upd id Die.takeGrant else s

/-- BIST_SLOT_START (R485): 15.625 ms after the slot before. -/
def Die.ticksToBist (d : Die) : Option Nat :=
  match d.red.bistAt with
  | none => some 0
  | some t => d.ticksIn (t + 3906250 - d.time.per)

/-- SEQ_TICK (R223): 250 periods after the tick before. -/
def Die.ticksToSeq (a : Nat) (d : Die) : Option Nat := d.ticksIn ((d.axis a).lastTick + 250 - d.time.per)

/-- Ticks until an axis's PWM counter is at a place of its period; the place it stands at counts unless it has
been taken at this very tick (R229). -/
def Die.ticksToPlace (a place : Nat) (taken : Option Nat) (d : Die) : Option Nat :=
  let n := 2 * d.pwm.top.toNat
  if n = 0 then none
  else
    let m := (place + n - d.pwmPlace a) % n
    d.ticksIn (if m = 0 && taken = some d.time.per then n else m)

/-- PWM_PEAK and PWM_VALLEY (R230, R231). -/
def Die.ticksToPeak (a : Nat) (d : Die) : Option Nat := d.ticksToPlace a d.pwm.top.toNat (d.axis a).peakAt
def Die.ticksToValley (a : Nat) (d : Die) : Option Nat := d.ticksToPlace a 0 (d.axis a).valleyAt

/-- CMP_PULSE_END (R239) and STEP_PULSE_END (R236). -/
def Die.ticksToCmpEnd (a : Nat) (d : Die) : Option Nat := d.ticksIn ((d.axis a).cmpEnd - d.time.per)
def Die.ticksToStepEnd (a : Nat) (d : Die) : Option Nat :=
  d.ticksIn ((d.axis a).stepAt + d.pwm.stepPw.toNat - d.time.per)

/-- AX_INPUT_CHANGE (R237): at once for a new level at the pin or one not sampled yet; else the end of its
debounce. -/
def Die.ticksToInput (a : Nat) (k : Fin 3) (level : Bool) (d : Die) : Option Nat :=
  let x := d.axis a
  if bit x.inPin k != level || bit x.inRaw k != d.pinActive a k then some 0
  else d.ticksIn (250 * x.debounce.toNat + vget x.rawAt k - d.time.per)

/-- An event of a pin that both dies see, at a time by the clock of die `id` (R25). -/
def State.timedPin (id : DieId) (ticks : Die → Option Nat) (f : Die → Die) (s : State) : State :=
  match ticks (s.die id) with
  | some n => (s.elapse n).both f
  | none => s

/-- TIME_WRAP (R440). -/
def Die.ticksToWrap (d : Die) : Option Nat := d.ticksAhead (2 ^ 32 - d.time.ns.toNat)

/-- EPOCH_STALE (R441): the epoch in use by its second row is 1,000,000,000 ns old; one that is stale
already is judged at once. -/
def Die.ticksToStale (d : Die) : Option Nat :=
  match d.time.epoch with
  | none => some 0
  | some e => if e.tag + 1 = d.time.wrap8 then d.ticksAhead (1000000000 - d.time.ns.toNat) else some 0

/-- TRIGGER_FIRE (R448): the compare of an armed trigger, or the instant of a CYCLE trigger in its cycles. -/
def Die.ticksToTrigger (k : Fin 8) (d : Die) : Option Nat :=
  let t := d.trigger k
  if (t.mode = 1 || t.mode = 2) && t.armed then d.ticksAhead (diff32 t.cmp d.time.ns).toNat
  else if t.mode = 3 && d.time.cycRun && t.onCyc ≠ some d.time.cyc && d.time.cyc.toNat % max 1 t.cdiv.toNat = 0 then
    d.ticksAhead (diff32 (d.time.start + t.cmp) d.time.ns).toNat
  else none

/-- TRIGGER_PULSE_END: PW × 4 ns after the output became active (R448). -/
def Die.ticksToPulseEnd (k : Fin 8) (d : Die) : Option Nat :=
  if (d.trigger k).active then d.ticksIn ((d.trigger k).onAt + (d.trigger k).pw.toNat - d.time.per) else none

/-- A pin `CAPTk` takes a level on both dies, and `n` ticks pass with it (R450). -/
def State.captLevel (k : Fin 8) (level : Bool) (n : Nat) (s : State) : State := (s.both (Die.captSee k level)).elapse n

/-- TRIGGER_PULSE_END (R448). -/
def Die.triggerPulseEnd (k : Fin 8) (d : Die) : Die := d.updTrig k fun t => { t with active := false }

/-- EMU_STEP of the die that drives the repeater (R281). -/
def Die.ticksToEmu (k : Nat) (d : Die) : Option Nat :=
  if d.red.grant && (d.enc k).emuDue then d.ticksIn ((d.enc k).emuNext d.img.cell.tc - d.time.per) else none

/-- SSI_FRAME_END (R266): at the sample of the last bit, or at that of END_CHK. -/
def Die.ticksToSsiEnd (k : Nat) (d : Die) : Option Nat :=
  let x := d.enc k
  match x.frame, x.frameAt with
  | some _, some t =>
    d.ticksIn (t + (x.cfg.len.toNat + (if x.cfg.endChk then 1 else 0)) * x.cfg.per.toNat + x.cfg.dly.toNat - d.time.per)
  | _, _ => none

/-- The pins A and B, or I, of a port take levels on both dies, and `n` ticks pass with them (R253, R255, R257). -/
def State.encLevels (k : Nat) (a b : Bool) (n : Nat) (s : State) : State :=
  (s.both fun d => (d.encSee k 0 a).encSee k 1 b).elapse n
def State.encLevelI (k : Nat) (i : Bool) (n : Nat) (s : State) : State := (s.both (Die.encSee k 2 i)).elapse n

/-- EMU_STEP: the die that drives the repeater steps, and the other reads the step back (R281, R283). -/
def State.emuStep (id : DieId) (k : Nat) (s : State) : State :=
  let x := (s.die id).enc k
  match (s.die id).ticksToEmu k with
  | some n => ((s.elapse n).upd id (Die.emuStep k)).upd id.peer (Die.emuTrack k x.emuDir)
  | none => s

/-- A port's emulator on a die that does not drive the repeater takes the quadrature state of the balls (R283). -/
def State.emuFollow (k : Nat) (s : State) : State :=
  [DieId.a, DieId.b].foldl (fun s id =>
    let d := s.die id
    let x := d.enc k
    let p := s.die id.peer
    if !d.red.grant && x.state ≠ .off && x.cfg.pt = 2 && x.emuOn && (p.encPin k 0).isSome then
      s.upd id fun d => d.updEnc k fun x => { x with emuC := quadNear x.emuC (p.enc k).emuC }
    else s) s

/-- CAN_REF_MISSED: PERIOD × T_c / 2 after the due time (R419). -/
def Die.ticksToRefMissed (n : Nat) (d : Die) : Option Nat :=
  let c := d.can n
  if c.refOpen then d.ticksIn (c.refAt + c.cfg.refPeriod.toNat * d.img.cell.tc / 8 - d.time.per) else none

/-- JNT_MODE_REQ with REQ (R214). -/
def modeWord (mode source : BitVec 2) (w : BitVec 5) : W32 :=
  0x80000000 ||| mode.setWidth 32 ||| (source.setWidth 32 <<< 2) ||| (w.setWidth 32 <<< 8)

/-- PWR_DOM_CTRL of a domain, and DMA_CTRL of a channel. -/
def domReg (i : Nat) : Nat := 0x100100 + 8 * i
def dmaReg (c : Nat) : Nat := 0x4014 + 0x40 * c

/-- An event that comes `n` ticks after the one before it (log entry 41). -/
def onAfter (id : DieId) (n : Nat) (f : Die → Die) (s : State) : Host.Outcome State Fault Refusal :=
  onState (fun s => (s.elapse n).upd id f) s

/-- A command on a CAN controller's register. -/
def onCanCmd (id : DieId) (n : Fin 4) (o : Nat) (f : Die → Die) (s : State) : Host.Outcome State Fault Refusal :=
  onCan id (Die.cmd 29 (canReg n o) f) s

/-- No command waits: one CLK_PER tick of 4 ns passes on every die whose CLK_PER runs (R434). -/
def idle (s : State) : Host.Outcome State Fault Refusal := onState (State.elapse 1) s

end Sys2Proof.Machine
end

