-- ==== Sys2Proof/Machine/AxisCmds.lean ====
section
/-! DEFINITION. The meanings of the commands and events of small axes (chapter 7): each is one operation on a die or on the
package, followed by `State.settle`. -/

namespace Sys2Proof.Machine

/-- SEQ_TICK (R226): a sequencer tick of axis a. -/
def execSeqTick (d : DieId) (a : Fin 16) (s : State) : Host.Outcome State Fault Refusal :=
  onState (State.timed d (Die.ticksToSeq a) (Die.axTick a)) s

/-- AX_MOVE_DONE (R226): the move of the axis has arrived. -/
def execAxMoveDone (d : DieId) (a : Fin 16) (s : State) : Host.Outcome State Fault Refusal :=
  onDie d (Die.axMoveDone a) s

/-- AX_BRAKE_DONE (R245): a braking axis is at rest. -/
def execAxBrakeDone (d : DieId) (a : Fin 16) (s : State) : Host.Outcome State Fault Refusal :=
  onDie d (Die.axBrakeDone a) s

/-- BRIDGE_FAULT (R222): the filtered bridge fault input of the axis stands at a level, on both dies. -/
def execBridgeFault (a : Fin 16) (low : Bool) (s : State) : Host.Outcome State Fault Refusal :=
  onState (State.both (Die.bridgeFault a low)) s

/-- PWM_PEAK (R230): a PWM period of the axis reaches its peak. -/
def execPwmPeak (d : DieId) (a : Fin 16) (s : State) : Host.Outcome State Fault Refusal :=
  onState (State.timed d (Die.ticksToPeak a) (Die.pwmPeak a)) s

/-- DRIVE_SET_LATCH (R232): the output time of the axis: its drive set is taken. -/
def execDriveSetLatch (d : DieId) (a : Fin 16) (s : State) : Host.Outcome State Fault Refusal :=
  onDue d (Die.dueDriveSet a) (fun _ => Die.driveSetLatch a) s

/-- AMP_HOLD_DELAY_END (R230): HOLD_DELAY has passed since the axis came to rest. -/
def execAmpHoldDelayEnd (d : DieId) (a : Fin 16) (s : State) : Host.Outcome State Fault Refusal :=
  onDie d (Die.ampHoldDelayEnd a) s

/-- AX_GO (R227): AX_CTRL.GO. -/
def execAxGo (d : DieId) (a : Fin 16) (s : State) : Host.Outcome State Fault Refusal :=
  onDie d (Die.cmd 33 (axisReg a 0) (Die.axGo a)) s

/-- AX_PATH_STOP (R244): AX_CTRL.PATH_STOP. -/
def execAxPathStop (d : DieId) (a : Fin 16) (s : State) : Host.Outcome State Fault Refusal :=
  onDie d (Die.cmd 33 (axisReg a 0) (fun d => d.accept.axStop 1 a)) s

/-- AX_QUICK_STOP (R244): AX_CTRL.QUICK_STOP. -/
def execAxQuickStop (d : DieId) (a : Fin 16) (s : State) : Host.Outcome State Fault Refusal :=
  onDie d (Die.cmd 33 (axisReg a 0) (fun d => d.accept.axStop 2 a)) s

/-- AX_OFF_STOP (R244): AX_CTRL.OFF_STOP. -/
def execAxOffStop (d : DieId) (a : Fin 16) (s : State) : Host.Outcome State Fault Refusal :=
  onDie d (Die.cmd 33 (axisReg a 0) (fun d => d.accept.axStop 3 a)) s

/-- AX_RESTART (R244): AX_CTRL.RESTART. -/
def execAxRestart (d : DieId) (a : Fin 16) (s : State) : Host.Outcome State Fault Refusal :=
  onDie d (Die.cmd 33 (axisReg a 0) (Die.axRestart a)) s

/-- HOME_GO (R241): AX_CTRL.HOME_GO. -/
def execHomeGo (d : DieId) (a : Fin 16) (s : State) : Host.Outcome State Fault Refusal :=
  onDie d (Die.cmd 33 (axisReg a 0) (Die.homeGo a)) s

/-- HOME_STEP (R242): AX_CTRL.HOME_STEP. -/
def execHomeStep (d : DieId) (a : Fin 16) (s : State) : Host.Outcome State Fault Refusal :=
  onDie d (Die.cmd 33 (axisReg a 0) (Die.homeStep a)) s

/-- AX_CLR_FAULT (R222): AX_CTRL.CLR_FAULT. -/
def execAxClrFault (d : DieId) (a : Fin 16) (s : State) : Host.Outcome State Fault Refusal :=
  onDie d (Die.cmd 33 (axisReg a 0) (Die.axClrFault a)) s

/-- AX_POS_SET (R243): a write of AX_POS_SET. -/
def execAxPosSet (d : DieId) (a : Fin 16) (v : BitVec 32) (s : State) : Host.Outcome State Fault Refusal :=
  onDie d (Die.cmd 33 (axisReg a 0x18) (Die.axPosSet a v)) s

/-- AX_CMP_ARM (R238): a write of AX_CMP. -/
def execAxCmpArm (d : DieId) (a : Fin 16) (v : BitVec 32) (s : State) : Host.Outcome State Fault Refusal :=
  onDie d (Die.cmd 33 (axisReg a 0x60) (Die.cmpArm a v)) s

/-- CMP_PULSE_END (R239): the compare pulse of the axis has lasted its width. -/
def execCmpPulseEnd (d : DieId) (a : Fin 16) (s : State) : Host.Outcome State Fault Refusal :=
  onState (State.timed d (Die.ticksToCmpEnd a) (Die.cmpPulseEnd a)) s

/-- AX_INPUT_CHANGE (R237): the pin of HOME (0), LIMNEG (1) or LIMPOS (2) stands at a level; d is the die by whose
clock its debounce ends. -/
def execAxInputChange (d : DieId) (a : Fin 16) (k : Fin 3) (level : Bool) (s : State) : Host.Outcome State Fault Refusal :=
  onState (State.timedPin d (Die.ticksToInput a k level) (Die.axInputPin a k level)) s

/-- CHATTER_DETECT (R240): the raw transitions of an input exceed CHAT_N. -/
def execChatterDetect (d : DieId) (a : Fin 16) (k : Fin 3) (s : State) : Host.Outcome State Fault Refusal :=
  onDie d (Die.chatterDetect a k) s

/-- PWM_VALLEY (R231): a PWM period of the axis reaches its valley. -/
def execPwmValley (d : DieId) (a : Fin 16) (s : State) : Host.Outcome State Fault Refusal :=
  onState (State.timed d (Die.ticksToValley a) (Die.pwmValley a)) s

/-- STEP_PULSE_END (R236): the step pulse of the axis has lasted its width. -/
def execStepPulseEnd (d : DieId) (a : Fin 16) (s : State) : Host.Outcome State Fault Refusal :=
  onState (State.timed d (Die.ticksToStepEnd a) (Die.stepPulseEnd a)) s

end Sys2Proof.Machine
end

