-- ==== Sys2Proof/Machine/Reset.lean ====
section
/-! DEFINITION. The reset pins, the reset detectors and the start that follows them (R522, R640, R641),
the ends of a failed start, and the boundary-scan instructions (R533). -/

namespace Sys2Proof.Machine

/-- The die leaves reset and starts once no pin and no detector holds it (R641). -/
def Die.leaveReset (d : Die) : Die :=
  if d.boot.phase = .reset && !d.rst.por && !d.rst.wrst && !d.rst.low.toList.any (fun x => x) then
    d.beginStart d.rst.cause
  else d

/-- A cold reset holds the die (R8, R434, R525). -/
def Die.coldReset (d : Die) : Die :=
  let d := d.afterReset true
  { d with boot := { d.boot with phase := .reset }, rst := { d.rst with cause := 0 } }

/-- POR_ASSERT: `POR_N` goes low. -/
def Die.porAssert (d : Die) : Die :=
  let d := d.coldReset
  { d with rst := { d.rst with por := true } }

/-- POR_RELEASE: the straps are sampled and the start begins (R522, R578, R626). -/
def Die.porRelease (bootSel : Bool) (addrSel : BitVec 3) (d : Die) : Die :=
  if !d.rst.por then d
  else
    let d := { d with rst := { d.rst with por := false }, boot := { d.boot with src := bootSel }
                      host := { d.host with smbAddr := smbAddress addrSel d.id } }
    d.leaveReset

/-- WRST_ASSERT (R434): a warm reset, unless the die is in a cold one (R641). -/
def Die.wrstAssert (d : Die) : Die :=
  let pins := { d.rst with wrst := true }
  if d.boot.phase = .reset then { d with rst := pins }
  else
    let d := d.afterReset false
    { d with boot := { d.boot with phase := .reset }, rst := { pins with cause := 1 } }

/-- WRST_RELEASE. -/
def Die.wrstRelease (d : Die) : Die :=
  if !d.rst.wrst then d else Die.leaveReset { d with rst := { d.rst with wrst := false } }

/-- SUPPLY_DETECTOR_FALL: a detector reads low, which acts as an assertion of `POR_N` on its die. -/
def Die.detectorFall (k : Fin 3) (d : Die) : Die :=
  let d := if d.boot.phase = .reset then d else d.coldReset
  { d with rst := { d.rst with low := vset d.rst.low k true } }

/-- SUPPLY_DETECTOR_RISE: a detector reads high again. -/
def Die.detectorRise (k : Fin 3) (d : Die) : Die :=
  if !vget d.rst.low k then d else Die.leaveReset { d with rst := { d.rst with low := vset d.rst.low k false } }

/-- BOOT_WATCHDOG (R522): the watchdog of step 6 expires before BOOT_OK. -/
def Die.bootWatchdog (d : Die) : Die := if d.boot.phase = .firmware then d.failStart failWatchdog else d

/-- SELF_RESTART (R524): the restart that follows a failed start. -/
def Die.selfRestart (d : Die) : Die := if d.boot.phase = .failed then d.restart 2 else d

/-! Boundary scan -/

/-- The bits that leave a scan register of the bits `reg` while `tdi` enters it. -/
def scanOut (reg tdi : List Bool) : List Bool := (reg ++ tdi).take tdi.length

def Die.selectScan (i : JtagInstr) (d : Die) : Die := { d with jtag := { d.jtag with instr := i } }

/-- JTAG_BYPASS: one bit between `TDI` and the output. -/
def Die.jtagBypass (tdi : List Bool) (d : Die) : Die := (d.selectScan .bypass).emit (.jtag (scanOut [false] tdi))

/-- JTAG_IDCODE: the register is shifted out. -/
def Die.jtagIdcode (d : Die) : Die := (d.selectScan .idcode).emit (.jtag (scanBits jtagId))

/-- The boundary register captures the pins, and the bits of a scan pass through it. -/
def Die.scanBoundary (pins tdi : List Bool) (d : Die) : Die :=
  (Die.emit (.jtag (scanOut pins tdi)) { d with jtag := { d.jtag with boundary := shiftIn pins tdi } })

/-- JTAG_SAMPLE_PRELOAD. -/
def Die.jtagSample (pins tdi : List Bool) (d : Die) : Die := (d.selectScan .samplePreload).scanBoundary pins tdi

/-- JTAG_EXTEST. -/
def Die.jtagExtest (pins tdi : List Bool) (d : Die) : Die := (d.scanDrives .extest).scanBoundary pins tdi

/-- JTAG_CLAMP: the bypass register stands in the scan path. -/
def Die.jtagClamp (tdi : List Bool) (d : Die) : Die := (d.scanDrives .clamp).emit (.jtag (scanOut [false] tdi))

end Sys2Proof.Machine
end

