-- ==== Sys2Proof/Machine/BootCmds.lean ====
section
/-! DEFINITION. The meanings of the commands and events of reset, boot, security and JTAG (chapter 17): each is one operation on a die or on the
package, followed by `State.settle`. -/

namespace Sys2Proof.Machine

/-- POR_ASSERT (R641): `POR_N` goes low. -/
def execPorAssert (d : DieId) (s : State) : Host.Outcome State Fault Refusal :=
  onDie d Die.porAssert s

/-- POR_RELEASE (R522): `POR_N` goes high and the straps are sampled. -/
def execPorRelease (d : DieId) (bootSel : Bool) (addrSel : BitVec 3) (s : State) : Host.Outcome State Fault Refusal :=
  onDie d (Die.porRelease bootSel addrSel) s

/-- WRST_ASSERT (R434): `WRST_N` goes low. -/
def execWrstAssert (d : DieId) (s : State) : Host.Outcome State Fault Refusal :=
  onDie d Die.wrstAssert s

/-- WRST_RELEASE (R522): `WRST_N` goes high. -/
def execWrstRelease (d : DieId) (s : State) : Host.Outcome State Fault Refusal :=
  onDie d Die.wrstRelease s

/-- FW_LOAD_DONE (R522): reading and verifying the firmware ends. -/
def execFwLoadDone (d : DieId) (otpOk : Bool) (s : State) : Host.Outcome State Fault Refusal :=
  onDie d (Die.fwLoadDone otpOk) s

/-- BOOT_WATCHDOG (R522): the boot watchdog expires. -/
def execBootWatchdog (d : DieId) (s : State) : Host.Outcome State Fault Refusal :=
  onState (State.expires d Die.dueWatchdog Die.bootWatchdog) s

/-- BOOT_OK (R523): SYS_BOOT_CTRL.BOOT_OK. -/
def execBootOk (d : DieId) (src : Source) (s : State) : Host.Outcome State Fault Refusal :=
  onDie d (Die.cmd 0 0x1008 (Die.bootOk src)) s

/-- FAIL (R524): SYS_BOOT_CTRL.FAIL with FAIL_CODE. -/
def execFail (d : DieId) (src : Source) (code : BitVec 8) (s : State) : Host.Outcome State Fault Refusal :=
  onDie d (Die.cmd 0 0x1008 (Die.bootFail src code)) s

/-- RETRY (R526): SYS_BOOT_CTRL.RETRY. -/
def execRetry (d : DieId) (s : State) : Host.Outcome State Fault Refusal :=
  onDie d (Die.cmd 0 0x1008 Die.bootRetry) s

/-- SELF_RESTART (R524): the self-restart after a failed start. -/
def execSelfRestart (d : DieId) (s : State) : Host.Outcome State Fault Refusal :=
  onDie d Die.selfRestart s

/-- ATT_REQ (R535): SEC_CTRL.ATT_REQ. -/
def execAttReq (d : DieId) (s : State) : Host.Outcome State Fault Refusal :=
  onDie d (Die.cmd 1 0x2400000 Die.attReq) s

/-- ATT_REPORT_DONE (R536): the report is signed or refused; `burnOk`: a claim bit it needed has burned. -/
def execAttReportDone (d : DieId) (burnOk : Bool) (s : State) : Host.Outcome State Fault Refusal :=
  onDie d (Die.attReportDone burnOk) s

/-- TOKEN_GO (R531): SEC_CTRL.TOKEN_GO. -/
def execTokenGo (d : DieId) (s : State) : Host.Outcome State Fault Refusal :=
  onDie d (Die.cmd 1 0x2400000 Die.tokenGo) s

/-- TOKEN_CHECK_DONE (R531): the token check ends; `burnOk`: the fuses of the operation read back burned; the new challenge drawn. -/
def execTokenCheckDone (d : DieId) (burnOk : Bool) (challenge : BitVec 128) (s : State) : Host.Outcome State Fault Refusal :=
  onDie d (Die.tokenCheckDone burnOk challenge) s

/-- SVN_COMMIT (R534): SEC_CTRL.SVN_COMMIT. -/
def execSvnCommit (d : DieId) (s : State) : Host.Outcome State Fault Refusal :=
  onDie d (Die.cmd 1 0x2400000 Die.svnCommit) s

/-- SVN_BURN_DONE (R534): the burn ends after `burned` bits that read back in both cells. -/
def execSvnBurnDone (d : DieId) (burned : Nat) (s : State) : Host.Outcome State Fault Refusal :=
  onDie d (Die.svnBurnDone burned) s

/-- DBG_LOCK (R532): SEC_CTRL.DBG_LOCK. -/
def execDbgLock (d : DieId) (s : State) : Host.Outcome State Fault Refusal :=
  onDie d (Die.cmd 1 0x2400000 Die.dbgLock) s

/-- SEC_CLR_CNT (R538): SEC_CTRL.CLR_CNT. -/
def execSecClrCnt (d : DieId) (s : State) : Host.Outcome State Fault Refusal :=
  onDie d (Die.cmd 1 0x2400000 Die.secClrCnt) s

/-- JTAG_BYPASS (R533): BYPASS is selected and bits are shifted. -/
def execJtagBypass (d : DieId) (tdi : List Bool) (s : State) : Host.Outcome State Fault Refusal :=
  onDie d (Die.jtagBypass tdi) s

/-- JTAG_IDCODE (R533): IDCODE is selected and the register is shifted out. -/
def execJtagIdcode (d : DieId) (s : State) : Host.Outcome State Fault Refusal :=
  onDie d Die.jtagIdcode s

/-- JTAG_SAMPLE_PRELOAD (R533): SAMPLE/PRELOAD: the pins captured, the bits shifted in. -/
def execJtagSamplePreload (d : DieId) (pins : List Bool) (tdi : List Bool) (s : State) : Host.Outcome State Fault Refusal :=
  onDie d (Die.jtagSample pins tdi) s

/-- JTAG_EXTEST (R533): EXTEST is selected. -/
def execJtagExtest (d : DieId) (pins : List Bool) (tdi : List Bool) (s : State) : Host.Outcome State Fault Refusal :=
  onDie d (Die.jtagExtest pins tdi) s

/-- JTAG_CLAMP (R533): CLAMP is selected and bits are shifted. -/
def execJtagClamp (d : DieId) (tdi : List Bool) (s : State) : Host.Outcome State Fault Refusal :=
  onDie d (Die.jtagClamp tdi) s

/-- SUPPLY_DETECTOR_FALL (R640): the reset detector of VDD_CORE (0), VDD_SRAM (1) or VDD_1V8 (2) falls; with
VDD_1V8 the gate of the other die closes too (R243, R638). -/
def execSupplyDetectorFall (d : DieId) (det : Fin 3) (s : State) : Host.Outcome State Fault Refusal :=
  onState (fun s => (s.upd d (Die.detectorFall det)).upd d.peer fun p => if det = 2 then p.shutGate else p) s

/-- SUPPLY_DETECTOR_RISE (R641): such a detector reads high again. -/
def execSupplyDetectorRise (d : DieId) (det : Fin 3) (s : State) : Host.Outcome State Fault Refusal :=
  onDie d (Die.detectorRise det) s

end Sys2Proof.Machine
end

