-- ==== Sys2Proof/Machine/CanCmds.lean ====
section
/-! DEFINITION. The meanings of the commands and events of CAN controllers (chapter 13): each is one operation on a die or on the
package, followed by `State.settle`. -/

namespace Sys2Proof.Machine

/-- CAN_FRAME_RX (R410): controller n of die d receives frame f of another node without error; sof is TIME_NS at its SOF edge. -/
def execCanFrameRx (d : DieId) (n : Fin 4) (f : CanFrame) (sof : W32) (s : State) : Host.Outcome State Fault Refusal :=
  onCan d (Die.canFrameRx n f sof) s

/-- CAN_TX_DONE (R407): the frame that controller n has on the bus ends well; sof is TIME_NS at its SOF edge, tdcv the loop delay measured in an FD frame. -/
def execCanTxDone (d : DieId) (n : Fin 4) (sof : W32) (tdcv : BitVec 7) (s : State) : Host.Outcome State Fault Refusal :=
  onCan d (Die.canTxDone n sof tdcv) s

/-- CAN_ARB_LOST (R408): the frame that controller n has on the bus loses arbitration. -/
def execCanArbLost (d : DieId) (n : Fin 4) (s : State) : Host.Outcome State Fault Refusal :=
  onCan d (Die.canArbLost n) s

/-- CAN_BUS_ERROR (R414): controller n sees error e on the bus; tdcv: the loop delay measured in its own FD frame so far. -/
def execCanBusError (d : DieId) (n : Fin 4) (e : CanErr) (tdcv : Option (BitVec 7)) (s : State) : Host.Outcome State Fault Refusal :=
  onCan d (Die.canBusError n e tdcv) s

/-- CAN_BUSOFF_RECOVERY (R414): k more occurrences of 11 recessive bits; the 128th since the bus-off recovers. -/
def execCanBusoffRecovery (d : DieId) (n : Fin 4) (k : BitVec 8) (s : State) : Host.Outcome State Fault Refusal :=
  onCan d (Die.canBusoffRecovery n k.toNat) s

/-- CAN_INTEGRATED (R423): 11 consecutive recessive bits. -/
def execCanIntegrated (d : DieId) (n : Fin 4) (s : State) : Host.Outcome State Fault Refusal :=
  onCan d (Die.canIntegrated n) s

/-- CAN_PROTOCOL_EXC (R423): a recessive res bit in an FD frame. -/
def execCanProtocolExc (d : DieId) (n : Fin 4) (s : State) : Host.Outcome State Fault Refusal :=
  onCan d (Die.canProtocolExc n) s

/-- CAN_REF_MISSED (R419): half a reference period has passed since a due time. -/
def execCanRefMissed (d : DieId) (n : Fin 4) (s : State) : Host.Outcome State Fault Refusal :=
  onState (fun s => (s.timed d (Die.ticksToRefMissed n) (Die.canRefMissed n)).mirrorCans d) s

/-- TX_REQ (R407): TXB_CTRL.REQ of buffer b; withAbort: ABORT is set in the same write. -/
def execTxReq (d : DieId) (n : Fin 4) (b : Fin 3) (withAbort : Bool) (s : State) : Host.Outcome State Fault Refusal :=
  onCan d (Die.cmd 29 (canReg n (0x108 + 0x60 * b.val)) (Die.canTxReq n b withAbort)) s

/-- TX_ABORT (R409): TXB_CTRL.ABORT of buffer b. -/
def execTxAbort (d : DieId) (n : Fin 4) (b : Fin 3) (s : State) : Host.Outcome State Fault Refusal :=
  onCan d (Die.cmd 29 (canReg n (0x108 + 0x60 * b.val)) (Die.canTxAbort n b)) s

/-- CAN_RX_POP (R411): a write of CAN_RX_POP with bit 0 set. -/
def execCanRxPop (d : DieId) (n : Fin 4) (s : State) : Host.Outcome State Fault Refusal :=
  onCan d (Die.cmd 29 (canReg n 0x28) (Die.canRxPop n)) s

/-- CAN_INIT (R423): a write of CAN_CTRL.INIT. -/
def execCanInit (d : DieId) (n : Fin 4) (on : Bool) (s : State) : Host.Outcome State Fault Refusal :=
  onCan d (Die.cmd 29 (canReg n 0) (Die.canInit n on)) s

/-- CAN_ROM (R416): a write of CAN_CTRL.ROM. -/
def execCanRom (d : DieId) (n : Fin 4) (on : Bool) (s : State) : Host.Outcome State Fault Refusal :=
  onCan d (Die.cmd 29 (canReg n 0) (Die.canRom n on)) s

/-- CAN_MON (R402): a write of CAN_CTRL.MON. -/
def execCanMon (d : DieId) (n : Fin 4) (on : Bool) (s : State) : Host.Outcome State Fault Refusal :=
  onCan d (Die.cmd 29 (canReg n 0) (Die.canMon n on)) s

/-- CAN_DIRECT (R421): a write of CAN_CTRL.DIRECT. -/
def execCanDirect (d : DieId) (n : Fin 4) (on : Bool) (s : State) : Host.Outcome State Fault Refusal :=
  onCan d (Die.cmd 29 (canReg n 0) (Die.canDirect n on)) s

/-- REF_RESTART (R419): CAN_CTRL.REF_RESTART. -/
def execRefRestart (d : DieId) (n : Fin 4) (s : State) : Host.Outcome State Fault Refusal :=
  onCan d (Die.cmd 29 (canReg n 0) (Die.canRefRestart n)) s

end Sys2Proof.Machine
end

