-- ==== Sys2Proof/Machine/EncCmds.lean ====
section
/-! DEFINITION. The meanings of the commands and events of feedback ports (chapter 8): each is one operation on a die or on the
package, followed by `State.settle`. -/

namespace Sys2Proof.Machine

/-- ENC_COUNT_EDGE (R258): A and B stand at levels for `n` ticks; the filtered edges of that time count. -/
def execEncCountEdge (k : Fin 16) (a b : Bool) (n : Nat) (s : State) : Host.Outcome State Fault Refusal :=
  onState (State.encLevels k a b n) s

/-- ENC_INDEX (R260): I stands at a level for `n` ticks; a filtered rise of that time is an index event. -/
def execEncIndex (k : Fin 16) (i : Bool) (n : Nat) (s : State) : Host.Outcome State Fault Refusal :=
  onState (State.encLevelI k i n) s

/-- ENC_SAMPLE_STROBE (R273): the sample time of a port. -/
def execEncSampleStrobe (d : DieId) (k : Fin 16) (s : State) : Host.Outcome State Fault Refusal :=
  onDue d (Die.dueSample k) (fun _ => Die.encStrobe k) s

/-- SSI_FRAME_START (R266): an SSI frame starts; `ready`: the data line is high. -/
def execSsiFrameStart (d : DieId) (k : Fin 16) (ready : Bool) (s : State) : Host.Outcome State Fault Refusal :=
  onDue d (Die.dueSample k) (fun _ => Die.ssiStart k ready) s

/-- SSI_FRAME_END (R268): the SSI frame in progress ends with its bits and the level after them. -/
def execSsiFrameEnd (d : DieId) (k : Fin 16) (w : BitVec 40) (endHigh : Bool) (s : State) : Host.Outcome State Fault Refusal :=
  onState (fun s => (State.timed d (Die.ticksToSsiEnd k) (Die.ssiEnd k w endHigh) s).emuFollow k) s

/-- LISTEN_FRAME (R270): a frame of another master is seen whole, `after` ticks on; `mt` is TIME_NS at its first edge. -/
def execListenFrame (d : DieId) (k : Fin 16) (w : BitVec 40) (edges : BitVec 8) (endHigh : Bool) (mt : BitVec 32) (after : Nat) (s : State) : Host.Outcome State Fault Refusal :=
  onState (fun s => ((s.elapse after).upd d (Die.listenFrame k w edges endHigh mt)).emuFollow k) s

/-- LISTEN_TIMEOUT (R272): no good frame for the port's limit. -/
def execListenTimeout (d : DieId) (k : Fin 16) (s : State) : Host.Outcome State Fault Refusal :=
  onDue d (Die.dueListen k) (fun _ => Die.listenTimeout k) s

/-- EMU_STEP (R281): the quadrature emulator of a port steps. -/
def execEmuStep (d : DieId) (k : Fin 16) (s : State) : Host.Outcome State Fault Refusal :=
  onState (State.emuStep d k) s

/-- ENC_CLR_FAULT (R284): ENC_CTRL.CLR_FAULT. -/
def execEncClrFault (d : DieId) (k : Fin 16) (s : State) : Host.Outcome State Fault Refusal :=
  onState (State.cmd d 33 (encReg k 0) (State.encForward d k (Die.encClrFault k))) s

/-- ENC_CLR_CNT (R287): ENC_CTRL.CLR_CNT. -/
def execEncClrCnt (d : DieId) (k : Fin 16) (s : State) : Host.Outcome State Fault Refusal :=
  onState (State.cmd d 33 (encReg k 0) (State.encForward d k (Die.encClrCnt k))) s

/-- ENC_CNT_SET (R285): a write of ENC_CNT_SET. -/
def execEncCntSet (d : DieId) (k : Fin 16) (v : BitVec 32) (s : State) : Host.Outcome State Fault Refusal :=
  onState (State.cmd d 33 (encReg k 0x38) (State.encForward d k (Die.encCntSet k v))) s

end Sys2Proof.Machine
end

