-- ==== Sys2Proof/Machine/EngineCmds.lean ====
section
/-! DEFINITION. The meanings of the commands and events of loop engines (chapters 9 and 10): each is one operation on a die or on the
package, followed by `State.settle`. -/

namespace Sys2Proof.Machine

/-- ADD (R331): engine e: add xd, xa, xb. -/
def execAdd (d : DieId) (e : Fin 80) (xd xa xb : Fin 16) (s : State) : Host.Outcome State Fault Refusal :=
  onDie d (Die.runEng e (.add xd xa xb)) s

/-- SUB (R331): engine e: sub xd, xa, xb. -/
def execSub (d : DieId) (e : Fin 80) (xd xa xb : Fin 16) (s : State) : Host.Outcome State Fault Refusal :=
  onDie d (Die.runEng e (.sub xd xa xb)) s

/-- AND (R331): engine e: and xd, xa, xb. -/
def execAnd (d : DieId) (e : Fin 80) (xd xa xb : Fin 16) (s : State) : Host.Outcome State Fault Refusal :=
  onDie d (Die.runEng e (.and xd xa xb)) s

/-- OR (R331): engine e: or xd, xa, xb. -/
def execOr (d : DieId) (e : Fin 80) (xd xa xb : Fin 16) (s : State) : Host.Outcome State Fault Refusal :=
  onDie d (Die.runEng e (.or xd xa xb)) s

/-- XOR (R331): engine e: xor xd, xa, xb. -/
def execXor (d : DieId) (e : Fin 80) (xd xa xb : Fin 16) (s : State) : Host.Outcome State Fault Refusal :=
  onDie d (Die.runEng e (.xor xd xa xb)) s

/-- CMP (R331): engine e: cmp xa, xb. -/
def execCmp (d : DieId) (e : Fin 80) (xa xb : Fin 16) (s : State) : Host.Outcome State Fault Refusal :=
  onDie d (Die.runEng e (.cmp xa xb)) s

/-- MIN (R331): engine e: min xd, xa, xb. -/
def execMin (d : DieId) (e : Fin 80) (xd xa xb : Fin 16) (s : State) : Host.Outcome State Fault Refusal :=
  onDie d (Die.runEng e (.min xd xa xb)) s

/-- MAX (R331): engine e: max xd, xa, xb. -/
def execMax (d : DieId) (e : Fin 80) (xd xa xb : Fin 16) (s : State) : Host.Outcome State Fault Refusal :=
  onDie d (Die.runEng e (.max xd xa xb)) s

/-- ABS (R331): engine e: abs xd, xa. -/
def execAbs (d : DieId) (e : Fin 80) (xd xa : Fin 16) (s : State) : Host.Outcome State Fault Refusal :=
  onDie d (Die.runEng e (.abs xd xa)) s

/-- NEG (R331): engine e: neg xd, xa. -/
def execNeg (d : DieId) (e : Fin 80) (xd xa : Fin 16) (s : State) : Host.Outcome State Fault Refusal :=
  onDie d (Die.runEng e (.neg xd xa)) s

/-- MOV (R331): engine e: mov xd, xa. -/
def execMov (d : DieId) (e : Fin 80) (xd xa : Fin 16) (s : State) : Host.Outcome State Fault Refusal :=
  onDie d (Die.runEng e (.mov xd xa)) s

/-- SLL (R331): engine e: sll xd, xa, xb. -/
def execSll (d : DieId) (e : Fin 80) (xd xa xb : Fin 16) (s : State) : Host.Outcome State Fault Refusal :=
  onDie d (Die.runEng e (.sll xd xa xb)) s

/-- SRA (R331): engine e: sra xd, xa, xb. -/
def execSra (d : DieId) (e : Fin 80) (xd xa xb : Fin 16) (s : State) : Host.Outcome State Fault Refusal :=
  onDie d (Die.runEng e (.sra xd xa xb)) s

/-- SRL (R331): engine e: srl xd, xa, xb. -/
def execSrl (d : DieId) (e : Fin 80) (xd xa xb : Fin 16) (s : State) : Host.Outcome State Fault Refusal :=
  onDie d (Die.runEng e (.srl xd xa xb)) s

/-- SLLI (R331): engine e: slli xd, xa, sh. -/
def execSlli (d : DieId) (e : Fin 80) (xd xa : Fin 16) (sh : BitVec 6) (s : State) : Host.Outcome State Fault Refusal :=
  onDie d (Die.runEng e (.slli xd xa sh)) s

/-- SRAI (R331): engine e: srai xd, xa, sh. -/
def execSrai (d : DieId) (e : Fin 80) (xd xa : Fin 16) (sh : BitVec 6) (s : State) : Host.Outcome State Fault Refusal :=
  onDie d (Die.runEng e (.srai xd xa sh)) s

/-- SRLI (R331): engine e: srli xd, xa, sh. -/
def execSrli (d : DieId) (e : Fin 80) (xd xa : Fin 16) (sh : BitVec 6) (s : State) : Host.Outcome State Fault Refusal :=
  onDie d (Die.runEng e (.srli xd xa sh)) s

/-- EXPX (R331): engine e: expx xd, xa. -/
def execExpx (d : DieId) (e : Fin 80) (xd xa : Fin 16) (s : State) : Host.Outcome State Fault Refusal :=
  onDie d (Die.runEng e (.expx xd xa)) s

/-- NORM (R331): engine e: norm xd, xc, xa. -/
def execNorm (d : DieId) (e : Fin 80) (xd xc xa : Fin 16) (s : State) : Host.Outcome State Fault Refusal :=
  onDie d (Die.runEng e (.norm xd xc xa)) s

/-- ADDI (R332): engine e: addi xd, xa, imm. -/
def execAddi (d : DieId) (e : Fin 80) (xd xa : Fin 16) (imm : BitVec 18) (s : State) : Host.Outcome State Fault Refusal :=
  onDie d (Die.runEng e (.addi xd xa imm)) s

/-- ANDI (R332): engine e: andi xd, xa, imm. -/
def execAndi (d : DieId) (e : Fin 80) (xd xa : Fin 16) (imm : BitVec 18) (s : State) : Host.Outcome State Fault Refusal :=
  onDie d (Die.runEng e (.andi xd xa imm)) s

/-- ORI (R332): engine e: ori xd, xa, imm. -/
def execOri (d : DieId) (e : Fin 80) (xd xa : Fin 16) (imm : BitVec 18) (s : State) : Host.Outcome State Fault Refusal :=
  onDie d (Die.runEng e (.ori xd xa imm)) s

/-- XORI (R332): engine e: xori xd, xa, imm. -/
def execXori (d : DieId) (e : Fin 80) (xd xa : Fin 16) (imm : BitVec 18) (s : State) : Host.Outcome State Fault Refusal :=
  onDie d (Die.runEng e (.xori xd xa imm)) s

/-- CMPI (R332): engine e: cmpi xa, imm. -/
def execCmpi (d : DieId) (e : Fin 80) (xa : Fin 16) (imm : BitVec 18) (s : State) : Host.Outcome State Fault Refusal :=
  onDie d (Die.runEng e (.cmpi xa imm)) s

/-- MOVI (R332): engine e: movi xd, imm. -/
def execMovi (d : DieId) (e : Fin 80) (xd : Fin 16) (imm : BitVec 22) (s : State) : Host.Outcome State Fault Refusal :=
  onDie d (Die.runEng e (.movi xd imm)) s

/-- MOVH (R332): engine e: movh xd, imm. -/
def execMovh (d : DieId) (e : Fin 80) (xd : Fin 16) (imm : BitVec 16) (s : State) : Host.Outcome State Fault Refusal :=
  onDie d (Die.runEng e (.movh xd imm)) s

/-- LD (R333): engine e: ld xd, mem. -/
def execLd (d : DieId) (e : Fin 80) (xd : Fin 16) (mem : MemOp) (s : State) : Host.Outcome State Fault Refusal :=
  onDie d (Die.runEng e (.ld xd mem)) s

/-- ST (R333): engine e: st mem, xs. -/
def execSt (d : DieId) (e : Fin 80) (xs : Fin 16) (mem : MemOp) (s : State) : Host.Outcome State Fault Refusal :=
  onDie d (Die.runEng e (.st xs mem)) s

/-- PMOD (R333): engine e: pmod mem. -/
def execPmod (d : DieId) (e : Fin 80) (mem : MemOp) (s : State) : Host.Outcome State Fault Refusal :=
  onDie d (Die.runEng e (.pmod mem)) s

/-- MULN (R334): engine e: muln xd, xa, xb, sh. -/
def execMuln (d : DieId) (e : Fin 80) (xd xa xb : Fin 16) (sh : BitVec 6) (s : State) : Host.Outcome State Fault Refusal :=
  onDie d (Die.runEng e (.muln xd xa xb sh)) s

/-- MAC (R335): engine e: mac accd, xa, xb; `z`: suffix .Z. -/
def execMac (d : DieId) (e : Fin 80) (z : Bool) (accd : Fin 4) (xa xb : Fin 16) (s : State) : Host.Outcome State Fault Refusal :=
  onDie d (Die.runEng e (.mac false z accd xa xb)) s

/-- MSU (R335): engine e: msu accd, xa, xb; `z`: suffix .Z. -/
def execMsu (d : DieId) (e : Fin 80) (z : Bool) (accd : Fin 4) (xa xb : Fin 16) (s : State) : Host.Outcome State Fault Refusal :=
  onDie d (Die.runEng e (.mac true z accd xa xb)) s

/-- QMAC (R335): engine e: qmac xa, mem; `z`: suffix .Z. -/
def execQmac (d : DieId) (e : Fin 80) (z : Bool) (xa : Fin 16) (mem : MemOp) (s : State) : Host.Outcome State Fault Refusal :=
  onDie d (Die.runEng e (.qmac false z xa mem)) s

/-- QMSU (R335): engine e: qmsu xa, mem; `z`: suffix .Z. -/
def execQmsu (d : DieId) (e : Fin 80) (z : Bool) (xa : Fin 16) (mem : MemOp) (s : State) : Host.Outcome State Fault Refusal :=
  onDie d (Die.runEng e (.qmac true z xa mem)) s

/-- DMAC (R335): engine e: dmac with the pair of registers from x(2·pair); `hi`: acc2 and acc3. -/
def execDmac (d : DieId) (e : Fin 80) (z hi : Bool) (pair : Fin 8) (mem : MemOp) (s : State) : Host.Outcome State Fault Refusal :=
  onDie d (Die.runEng e (.dmac false z hi pair mem)) s

/-- DMSU (R335): engine e: dmsu with the pair of registers from x(2·pair); `hi`: acc2 and acc3. -/
def execDmsu (d : DieId) (e : Fin 80) (z hi : Bool) (pair : Fin 8) (mem : MemOp) (s : State) : Host.Outcome State Fault Refusal :=
  onDie d (Die.runEng e (.dmac true z hi pair mem)) s

/-- CLRA (R336): engine e: clra accd. -/
def execClra (d : DieId) (e : Fin 80) (accd : Fin 4) (s : State) : Host.Outcome State Fault Refusal :=
  onDie d (Die.runEng e (.clra accd)) s

/-- MOVA (R336): engine e: mova accd, xa, sh. -/
def execMova (d : DieId) (e : Fin 80) (accd : Fin 4) (xa : Fin 16) (sh : BitVec 6) (s : State) : Host.Outcome State Fault Refusal :=
  onDie d (Die.runEng e (.mova false accd xa sh)) s

/-- MOVNA (R336): engine e: movna accd, xa, sh. -/
def execMovna (d : DieId) (e : Fin 80) (accd : Fin 4) (xa : Fin 16) (sh : BitVec 6) (s : State) : Host.Outcome State Fault Refusal :=
  onDie d (Die.runEng e (.mova true accd xa sh)) s

/-- ADDA (R336): engine e: adda accd, accs. -/
def execAdda (d : DieId) (e : Fin 80) (accd accs : Fin 4) (s : State) : Host.Outcome State Fault Refusal :=
  onDie d (Die.runEng e (.adda false accd accs)) s

/-- SUBA (R336): engine e: suba accd, accs. -/
def execSuba (d : DieId) (e : Fin 80) (accd accs : Fin 4) (s : State) : Host.Outcome State Fault Refusal :=
  onDie d (Die.runEng e (.adda true accd accs)) s

/-- SHRA (R336): engine e: shra accd, sh. -/
def execShra (d : DieId) (e : Fin 80) (accd : Fin 4) (sh : BitVec 6) (s : State) : Host.Outcome State Fault Refusal :=
  onDie d (Die.runEng e (.shra accd sh)) s

/-- SHLA (R336): engine e: shla accd, sh. -/
def execShla (d : DieId) (e : Fin 80) (accd : Fin 4) (sh : BitVec 6) (s : State) : Host.Outcome State Fault Refusal :=
  onDie d (Die.runEng e (.shla accd sh)) s

/-- CPYA (R336): engine e: cpya accd, accs. -/
def execCpya (d : DieId) (e : Fin 80) (accd accs : Fin 4) (s : State) : Host.Outcome State Fault Refusal :=
  onDie d (Die.runEng e (.cpya accd accs)) s

/-- EXPX_ACC (R336): engine e: expx xd, accd. -/
def execExpxAcc (d : DieId) (e : Fin 80) (xd : Fin 16) (accd : Fin 4) (s : State) : Host.Outcome State Fault Refusal :=
  onDie d (Die.runEng e (.expxAcc xd accd)) s

/-- NORM_ACC (R336): engine e: norm accd, xc. -/
def execNormAcc (d : DieId) (e : Fin 80) (accd : Fin 4) (xc : Fin 16) (s : State) : Host.Outcome State Fault Refusal :=
  onDie d (Die.runEng e (.normAcc accd xc)) s

/-- NRW (R337): engine e: nrw xd, acc, sh. -/
def execNrw (d : DieId) (e : Fin 80) (xd : Fin 16) (acc : Fin 4) (sh : BitVec 6) (s : State) : Host.Outcome State Fault Refusal :=
  onDie d (Die.runEng e (.nrw xd acc sh)) s

/-- NST (R337): engine e: nst mem, acc, sh. -/
def execNst (d : DieId) (e : Fin 80) (acc : Fin 4) (sh : BitVec 6) (mem : MemOp) (s : State) : Host.Outcome State Fault Refusal :=
  onDie d (Die.runEng e (.nst acc sh mem)) s

/-- AMOV (R339): engine e: amov of a pointer, modifier, base or length register. -/
def execAmov (d : DieId) (e : Fin 80) (cls : ACls) (k : Fin 8) (imm : BitVec 20) (s : State) : Host.Outcome State Fault Refusal :=
  onDie d (Die.runEng e (.amov cls k imm)) s

/-- MFS (R339): engine e: mfs xd, sreg. -/
def execMfs (d : DieId) (e : Fin 80) (xd : Fin 16) (sreg : BitVec 6) (s : State) : Host.Outcome State Fault Refusal :=
  onDie d (Die.runEng e (.mfs xd sreg)) s

/-- MTS (R339): engine e: mts sreg, xa. -/
def execMts (d : DieId) (e : Fin 80) (sreg : BitVec 6) (xa : Fin 16) (s : State) : Host.Outcome State Fault Refusal :=
  onDie d (Die.runEng e (.mts sreg xa)) s

/-- B (R340): engine e: b.cond target. -/
def execBranch (d : DieId) (e : Fin 80) (cond : BitVec 4) (target : BitVec 12) (s : State) : Host.Outcome State Fault Refusal :=
  onDie d (Die.runEng e (.branch cond target)) s

/-- CALL (R341): engine e: call target. -/
def execCall (d : DieId) (e : Fin 80) (target : BitVec 12) (s : State) : Host.Outcome State Fault Refusal :=
  onDie d (Die.runEng e (.call target)) s

/-- RET (R341): engine e: ret. -/
def execRet (d : DieId) (e : Fin 80) (s : State) : Host.Outcome State Fault Refusal :=
  onDie d (Die.runEng e (.ret)) s

/-- LOOP (R342): engine e: loop with the count in LC. -/
def execLoop (d : DieId) (e : Fin 80) (lvl : Fin 2) (last : BitVec 12) (s : State) : Host.Outcome State Fault Refusal :=
  onDie d (Die.runEng e (.loop lvl last)) s

/-- LOOPI (R342): engine e: loopi with an immediate count. -/
def execLoopi (d : DieId) (e : Fin 80) (lvl : Fin 2) (cnt last : BitVec 12) (s : State) : Host.Outcome State Fault Refusal :=
  onDie d (Die.runEng e (.loopi lvl cnt last)) s

/-- WAITQ (R344): engine e: waitq qp. -/
def execWaitq (d : DieId) (e : Fin 80) (qp : Fin 16) (s : State) : Host.Outcome State Fault Refusal :=
  onDie d (Die.runEng e (.waitq qp)) s

/-- WAITQ_RESUME (R311): engine e in WAITQ goes on after so many CLK_ENG cycles. -/
def execWaitqResume (d : DieId) (e : Fin 80) (cycles : Nat) (s : State) : Host.Outcome State Fault Refusal :=
  onDue d (Die.dueWaitq e) (fun _ => Die.waitqResume e cycles) s

/-- GETQ (R344): engine e: getq xd, qp. -/
def execGetq (d : DieId) (e : Fin 80) (xd qp : Fin 16) (s : State) : Host.Outcome State Fault Refusal :=
  onDie d (Die.runEng e (.getq xd qp)) s

/-- PUTQ (R345): engine e: putq qp, xs; `last`: suffix .LAST. -/
def execPutq (d : DieId) (e : Fin 80) (xs qp : Fin 16) (last : Bool) (s : State) : Host.Outcome State Fault Refusal :=
  onDie d (Die.runEng e (.putq xs qp last)) s

/-- TIME (R343): engine e: time xd. -/
def execTime (d : DieId) (e : Fin 80) (xd : Fin 16) (s : State) : Host.Outcome State Fault Refusal :=
  onDie d (Die.runEng e (.time xd)) s

/-- CAIRN (R346): engine e: cairn. -/
def execCairn (d : DieId) (e : Fin 80) (s : State) : Host.Outcome State Fault Refusal :=
  onDie d (Die.runEng e (.cairn)) s

/-- SIG (R343): engine e: sig imm. -/
def execSig (d : DieId) (e : Fin 80) (imm : BitVec 16) (s : State) : Host.Outcome State Fault Refusal :=
  onDie d (Die.runEng e (.sig imm)) s

/-- END (R343): engine e: end imm. -/
def execEndRun (d : DieId) (e : Fin 80) (imm : BitVec 16) (s : State) : Host.Outcome State Fault Refusal :=
  onDie d (Die.runEng e (.endRun imm)) s

/-- NOP (R343): engine e: nop. -/
def execNop (d : DieId) (e : Fin 80) (s : State) : Host.Outcome State Fault Refusal :=
  onDie d (Die.runEng e (.nop)) s

/-- ENGINE_OVERRUN (R297): the run limit of engine e. -/
def execEngineOverrun (d : DieId) (e : Fin 80) (s : State) : Host.Outcome State Fault Refusal :=
  onDue d (Die.dueOverrun e) (fun _ => Die.engOverrun e) s

/-- ENG_CLR_CNT (R324): ENG_CTRL.CLR_CNT. -/
def execEngClrCnt (d : DieId) (e : Fin 80) (s : State) : Host.Outcome State Fault Refusal :=
  onDie d (Die.cmd (2 + e.val / 5) (engReg e 0) (Die.engClrCnt e)) s

/-- SPARE_LOAD_DONE (R469): engine e has loaded the role it was claimed for. -/
def execSpareLoadDone (d : DieId) (e : Fin 80) (s : State) : Host.Outcome State Fault Refusal :=
  onDie d (Die.spareLoadDone e) s

end Sys2Proof.Machine
end

