-- ==== Sys2Proof/Machine/HostCmds.lean ====
section
/-! DEFINITION. The meanings of the commands and events of the host interfaces (chapter 19): each is one operation on a die or on the
package, followed by `State.settle`. -/

namespace Sys2Proof.Machine

/-- REGISTER_WRITE (R565): a BAR0 write of one word with byte enables. -/
def execRegisterWrite (d : DieId) (src : Source) (off : BitVec 32) (v : BitVec 32) (be : BitVec 4) (s : State) : Host.Outcome State Fault Refusal :=
  onGrant (State.mirrorDuty (State.registerWrite d src off.toNat v be)) s

/-- BAR2_ACCESS (R566): a BAR2 read of `len` bytes, or a write of bytes with none where a byte enable is clear. -/
def execBar2Access (d : DieId) (src : Source) (off : BitVec 32) (len : Nat) (data : Option (List (Option (BitVec 8)))) (s : State) : Host.Outcome State Fault Refusal :=
  onDie d (Die.bar2Access src off.toNat len data) s

/-- CELL_VIEW_ACCESS (R571): a cell view read or write; `acked`: a forwarded one is acknowledged by the holder. -/
def execCellViewAccess (d : DieId) (off : BitVec 32) (data : Option (BitVec 32)) (acked : Bool) (s : State) : Host.Outcome State Fault Refusal :=
  onGrant (State.mirrorDuty (State.cvAccess d { off := off.toNat, data := data } acked)) s

/-- CELL_VIEW_RELEASE (R571): a grant line asserts and the oldest held access is routed. -/
def execCellViewRelease (d : DieId) (acked : Bool) (s : State) : Host.Outcome State Fault Refusal :=
  onGrant (State.mirrorDuty (State.cvRelease d acked)) s

/-- CELL_VIEW_TIMEOUT (R571): the oldest held access has been held for HOLD_US. -/
def execCellViewTimeout (d : DieId) (s : State) : Host.Outcome State Fault Refusal :=
  onState (fun s => s.after (s.ticksTo d Die.dueHold) (State.cvTimeout d)) s

/-- PERST_ASSERT (R625): `PCIE_PERST_N` goes low. -/
def execPerstAssert (d : DieId) (s : State) : Host.Outcome State Fault Refusal :=
  onDie d Die.perstAssert s

/-- PERST_RELEASE (R625): `PCIE_PERST_N` goes high and the endpoint trains. -/
def execPerstRelease (d : DieId) (s : State) : Host.Outcome State Fault Refusal :=
  onDie d Die.perstRelease s

/-- FUNCTION_LEVEL_RESET (R564): a function-level reset of function 0. -/
def execFunctionLevelReset (d : DieId) (s : State) : Host.Outcome State Fault Refusal :=
  onDie d Die.functionLevelReset s

/-- PCIE_LINK_DOWN (R596): the data link layer leaves DL_Active. -/
def execPcieLinkDown (d : DieId) (s : State) : Host.Outcome State Fault Refusal :=
  onDie d Die.linkDown s

/-- SMB_READ (R579): SMBus READ as sent: byte count, offset, N, PEC check. -/
def execSmbRead (d : DieId) (count : Nat) (off : BitVec 32) (n : Nat) (pecOk : Bool) (s : State) : Host.Outcome State Fault Refusal :=
  onGrant (State.smbRead d count off.toNat n pecOk) s

/-- SMB_WRITE (R579): SMBus WRITE as sent. -/
def execSmbWrite (d : DieId) (count : Nat) (off : BitVec 32) (data : List (BitVec 8)) (pecOk : Bool) (s : State) : Host.Outcome State Fault Refusal :=
  onGrant (State.mirrorDuty (State.smbWrite d count off.toNat data pecOk)) s

/-- SMB_STATUS (R579): SMBus STATUS. -/
def execSmbStatus (d : DieId) (s : State) : Host.Outcome State Fault Refusal :=
  onDie d Die.smbStatus s

/-- SMB_IDENT (R579): SMBus IDENT. -/
def execSmbIdent (d : DieId) (s : State) : Host.Outcome State Fault Refusal :=
  onDie d Die.smbIdent s

/-- SMB_SCL_TIMEOUT (R578): `SMB_SCL` has been held low for more than 35 ms. -/
def execSmbSclTimeout (d : DieId) (s : State) : Host.Outcome State Fault Refusal :=
  onDie d Die.smbSclTimeout s

/-- QSPI_READ_ID (R584): QSPI_CMD.GO with OP = READ_ID. -/
def execQspiReadId (d : DieId) (s : State) : Host.Outcome State Fault Refusal :=
  onDie d (Die.cmd 1 0x3004 (Die.qspiGo 1 0)) s

/-- QSPI_READ (R584): QSPI_CMD.GO with OP = READ. -/
def execQspiRead (d : DieId) (len : BitVec 9) (s : State) : Host.Outcome State Fault Refusal :=
  onDie d (Die.cmd 1 0x3004 (Die.qspiGo 2 len)) s

/-- QSPI_PROGRAM (R584): QSPI_CMD.GO with OP = PROGRAM. -/
def execQspiProgram (d : DieId) (len : BitVec 9) (s : State) : Host.Outcome State Fault Refusal :=
  onDie d (Die.cmd 1 0x3004 (Die.qspiGo 3 len)) s

/-- QSPI_ERASE4K (R584): QSPI_CMD.GO with OP = ERASE4K. -/
def execQspiErase4k (d : DieId) (s : State) : Host.Outcome State Fault Refusal :=
  onDie d (Die.cmd 1 0x3004 (Die.qspiGo 4 0)) s

/-- QSPI_ERASE64K (R584): QSPI_CMD.GO with OP = ERASE64K. -/
def execQspiErase64k (d : DieId) (s : State) : Host.Outcome State Fault Refusal :=
  onDie d (Die.cmd 1 0x3004 (Die.qspiGo 5 0)) s

/-- QSPI_OP_DONE (R584): the operation ends; `jedec` is what the flash answers to 0x9F. -/
def execQspiOpDone (d : DieId) (timeout : Bool) (jedec : BitVec 24) (s : State) : Host.Outcome State Fault Refusal :=
  onState (fun s => if timeout then s.expires d Die.dueQspi (Die.qspiOpDone true jedec) else s.upd d (Die.qspiOpDone false jedec)) s

/-- DMA_GO (R587): DMA_CTRL.GO. -/
def execDmaGo (d : DieId) (ch : Fin 4) (srcHost dstHost : Bool) (s : State) : Host.Outcome State Fault Refusal :=
  onDie d (Die.cmd 27 (dmaReg ch) (Die.dmaGo ch srcHost dstHost)) s

/-- DMA_ABORT (R587): DMA_CTRL.ABORT. -/
def execDmaAbort (d : DieId) (ch : Fin 4) (s : State) : Host.Outcome State Fault Refusal :=
  onDie d (Die.cmd 27 (dmaReg ch) (Die.dmaAbort ch)) s

/-- DMA_DONE (R587): a transfer runs to its end; `hostData` is what host space returns, from byte `stopAt` on the host fails it or an abort stops it. -/
def execDmaDone (d : DieId) (ch : Fin 4) (hostData : List (BitVec 8)) (stopAt : Nat) (s : State) : Host.Outcome State Fault Refusal :=
  onDie d (Die.dmaDone ch hostData stopAt) s

end Sys2Proof.Machine
end

