-- ==== Sys2Proof/Machine/ImageCmds.lean ====
section
/-! DEFINITION. The meanings of the commands and events of the cell image (chapter 16): each is one operation on a die or on the
package, followed by `State.settle`. -/

namespace Sys2Proof.Machine

/-- LOAD (R502): IMG_CTRL.LOAD with SRC; `copy`: which of the two image copies of the flash is read. -/
def execLoad (d : DieId) (src : BitVec 2) (copy : Bool) (s : State) : Host.Outcome State Fault Refusal :=
  onDie d (Die.cmd 1 0x2000 (Die.imgLoad src copy)) s

/-- IMG_PASS1_DONE (R502): pass 1 of a load has read the image. -/
def execImgPass1Done (d : DieId) (s : State) : Host.Outcome State Fault Refusal :=
  onState (State.imgPass1Done d) s

/-- IMG_PASS2_DONE (R503): pass 2 of a load has placed the image. -/
def execImgPass2Done (d : DieId) (s : State) : Host.Outcome State Fault Refusal :=
  onDie d Die.pass2Done s

/-- APPLY (R506): IMG_CTRL.APPLY; `atCyc`: at the cycle of IMG_APPLY_CYC. -/
def execApply (d : DieId) (atCyc : Bool) (s : State) : Host.Outcome State Fault Refusal :=
  onState (State.cmd d 1 0x2000 (State.imgApply d atCyc)) s

/-- IMG_APPLY_BOUNDARY (R507): the boundary at which a staged update takes effect on both dies. -/
def execImgApplyBoundary (s : State) : Host.Outcome State Fault Refusal :=
  onState State.imgApplyBoundary s

/-- ABORT (R510): IMG_CTRL.ABORT. -/
def execAbort (d : DieId) (s : State) : Host.Outcome State Fault Refusal :=
  onDie d (Die.cmd 1 0x2000 Die.imgAbort) s

/-- IMG_CLR_CNT (R512): IMG_CTRL.CLR_CNT. -/
def execImgClrCnt (d : DieId) (s : State) : Host.Outcome State Fault Refusal :=
  onDie d (Die.cmd 1 0x2000 Die.imgClrCnt) s

/-- STAGED_UPDATE_RX (R506): the update staged on the other die arrives. -/
def execStagedUpdateRx (d : DieId) (s : State) : Host.Outcome State Fault Refusal :=
  onPair d Die.stagedRx s

/-- IMG_PUSH_LEN (R508): a write of IMG_PUSH_LEN. -/
def execImgPushLen (d : DieId) (len : BitVec 19) (s : State) : Host.Outcome State Fault Refusal :=
  onDie d (Die.cmd 1 0x2014 (Die.imgPushLen len)) s

/-- PUSH_TIMEOUT (R508): no chunk has been pushed for 100 ms. -/
def execPushTimeout (d : DieId) (s : State) : Host.Outcome State Fault Refusal :=
  onState (State.expires d Die.duePush Die.pushTimeout) s

end Sys2Proof.Machine
end

