-- ==== Sys2Proof/Machine/JointCmds.lean ====
section
/-! DEFINITION. The meanings of the commands and events of joints (chapter 6): each is one operation on a die or on the
package, followed by `State.settle`. -/

namespace Sys2Proof.Machine

/-- F_OUT_LATCH (R189): the output time of a class F joint. -/
def execFOutLatch (d : DieId) (j : Fin 128) (s : State) : Host.Outcome State Fault Refusal :=
  onDue d (Die.dueFOut j) (fun _ => Die.fOutLatch j) s

/-- RESTART (R211): JNT_CTRL.RESTART. -/
def execRestart (d : DieId) (j : Fin 128) (s : State) : Host.Outcome State Fault Refusal :=
  onDie d (Die.jointCmd j 0 (Die.restartJoint j)) s

/-- PATH_STOP (R209): JNT_CTRL.PATH_STOP. -/
def execPathStop (d : DieId) (j : Fin 128) (s : State) : Host.Outcome State Fault Refusal :=
  onDie d (Die.jointCmd j 0 (Die.stopReq 1 j)) s

/-- QUICK_STOP (R209): JNT_CTRL.QUICK_STOP. -/
def execQuickStop (d : DieId) (j : Fin 128) (s : State) : Host.Outcome State Fault Refusal :=
  onDie d (Die.jointCmd j 0 (Die.stopReq 2 j)) s

/-- OFF_STOP (R209): JNT_CTRL.OFF_STOP. -/
def execOffStop (d : DieId) (j : Fin 128) (s : State) : Host.Outcome State Fault Refusal :=
  onDie d (Die.jointCmd j 0 (Die.stopReq 3 j)) s

/-- PG_GO (R197): JNT_CTRL.PG_GO. -/
def execPgGo (d : DieId) (j : Fin 128) (s : State) : Host.Outcome State Fault Refusal :=
  onDie d (Die.jointCmd j 0 (Die.pgGo j)) s

/-- PG_MOVE_DONE (R198): the profile generator has reached its end. -/
def execPgMoveDone (d : DieId) (j : Fin 128) (s : State) : Host.Outcome State Fault Refusal :=
  onDie d (Die.pgMoveDone j) s

/-- MODE_REQ (R204): JNT_MODE_REQ with REQ: mode, source and blend. -/
def execModeReq (d : DieId) (j : Fin 128) (mode source : BitVec 2) (w : BitVec 5) (s : State) : Host.Outcome State Fault Refusal :=
  onDie d (Die.jointCmd j 8 (Die.writeModeReq j (modeWord mode source w))) s

/-- HANDOVER_CHECK (R204): the saturation check of a mode request. -/
def execHandoverCheck (d : DieId) (j : Fin 128) (s : State) : Host.Outcome State Fault Refusal :=
  onDie d (Die.handoverCheck j) s

/-- BLEND_END (R206): the blend of a handover has run its cycles. -/
def execBlendEnd (d : DieId) (j : Fin 128) (s : State) : Host.Outcome State Fault Refusal :=
  onDie d (Die.blendEnd j) s

/-- FORCE_CONTACT (R186): a joint in FORCE mode meets contact. -/
def execForceContact (d : DieId) (j : Fin 128) (s : State) : Host.Outcome State Fault Refusal :=
  onDie d (Die.forceContact j) s

/-- PLAUS_FAULT (R201): the residual has been above its fault limit for its count. -/
def execPlausFault (d : DieId) (j : Fin 128) (s : State) : Host.Outcome State Fault Refusal :=
  onDie d (Die.plausFault j) s

/-- FB_LOST (R203): the feedback of the joint is lost. -/
def execFbLost (d : DieId) (j : Fin 128) (s : State) : Host.Outcome State Fault Refusal :=
  onDie d (Die.fbLost j) s

/-- FB_LOST_OFF_STOP (R203): eight more cycles without feedback. -/
def execFbLostOffStop (d : DieId) (j : Fin 128) (s : State) : Host.Outcome State Fault Refusal :=
  onDie d (Die.fbLostOff j) s

/-- JOINT_AT_REST (R208): the joint has come to rest. -/
def execJointAtRest (d : DieId) (j : Fin 128) (s : State) : Host.Outcome State Fault Refusal :=
  onDie d (Die.jointAtRest j) s

/-- QSTOP_TIMEOUT (R210): QS_TMAX passes before a stopping joint is at rest. -/
def execQstopTimeout (d : DieId) (j : Fin 128) (s : State) : Host.Outcome State Fault Refusal :=
  onDue d (Die.dueQstop j) (fun _ => Die.qstopTimeout j) s

/-- HOST_PATH_STOP_END (R653): the scale of a stopping host path has reached 0. -/
def execHostPathStopEnd (d : DieId) (j : Fin 128) (s : State) : Host.Outcome State Fault Refusal :=
  onDie d (Die.hostPathStopEnd j) s

end Sys2Proof.Machine
end

