-- ==== Sys2Proof/Machine/MirradCmds.lean ====
section
/-! DEFINITION. The meanings of the commands and events of Mirrad lanes (chapters 11 and 12): each is one operation on a die or on the
package, followed by `State.settle`. -/

namespace Sys2Proof.Machine

/-- BEACON_SEND (R378): lane l: the beacon time of the lane cycle. -/
def execBeaconSend (d : DieId) (l : Fin 8) (s : State) : Host.Outcome State Fault Refusal :=
  onDue d (Die.dueBeacon l) (fun _ => Die.beaconSend l) s

/-- POLL_SEND (R380): lane l: entry n of the schedule at its offset, of class POLL. -/
def execPollSend (d : DieId) (l : Fin 8) (n : Fin 64) (s : State) : Host.Outcome State Fault Refusal :=
  onDue d (Die.dueEntry l n) (fun _ => Die.entrySend l n 0) s

/-- RETPOLL_SEND (R380): lane l: entry n of the schedule at its offset, of class RETPOLL. -/
def execRetpollSend (d : DieId) (l : Fin 8) (n : Fin 64) (s : State) : Host.Outcome State Fault Refusal :=
  onDue d (Die.dueEntry l n) (fun _ => Die.entrySend l n 1) s

/-- ACYC_SEND (R380): lane l: entry n of the schedule at its offset, of class ACYC. -/
def execAcycSend (d : DieId) (l : Fin 8) (n : Fin 64) (s : State) : Host.Outcome State Fault Refusal :=
  onDue d (Die.dueEntry l n) (fun _ => Die.entrySend l n 2) s

/-- IDLE_SEND (R380): lane l: entry n of the schedule at its offset, of class IDLE. -/
def execIdleSend (d : DieId) (l : Fin 8) (n : Fin 64) (s : State) : Host.Outcome State Fault Refusal :=
  onDue d (Die.dueEntry l n) (fun _ => Die.entrySend l n 3) s

/-- REPLY_RX (R368): lane l: a frame, its code groups from SOF to EOF, arrives while a REPLY is awaited; its first SOF bit came at `sof`. -/
def execReplyRx (d : DieId) (l : Fin 8) (sof : BitVec 32) (groups : List (BitVec 10)) (s : State) : Host.Outcome State Fault Refusal :=
  onDue d (dueFrameEnd sof groups) (fun _ => Die.onFrame l groups (Die.replyRx l (lastSofOf sof groups))) s

/-- ACYC_REPLY_RX (R393): lane l: a frame arrives while an ACYC_REPLY is awaited, or at a lane in BACKUP. -/
def execAcycReplyRx (d : DieId) (l : Fin 8) (sof : BitVec 32) (groups : List (BitVec 10)) (s : State) : Host.Outcome State Fault Refusal :=
  onDue d (dueFrameEnd sof groups) (fun _ => Die.onFrame l groups (Die.acycReplyRx l (lastSofOf sof groups))) s

/-- REPLY_MISSED (R390): lane l: a reply window ends with no SOF in it. -/
def execReplyMissed (d : DieId) (l : Fin 8) (s : State) : Host.Outcome State Fault Refusal :=
  onDue d (Die.dueReply l) (fun _ => Die.replyMissed l) s

/-- FRAME_RX_INVALID (R366): lane l: a received frame fails a check. -/
def execFrameRxInvalid (d : DieId) (l : Fin 8) (groups : List (BitVec 10)) (s : State) : Host.Outcome State Fault Refusal :=
  onDie d (Die.onFrame l groups (Die.frameInvalid l)) s

/-- BEACON_RX (R386): lane l: a beacon arrives; its first SOF bit came at `sof`. -/
def execBeaconRx (d : DieId) (l : Fin 8) (sof : BitVec 32) (groups : List (BitVec 10)) (s : State) : Host.Outcome State Fault Refusal :=
  onDue d (dueFrameEnd sof groups) (fun _ => Die.onFrame l groups (Die.beaconRx l (lastSofOf sof groups))) s

/-- STARTUP_RX (R386): lane l: a STARTUP arrives. -/
def execStartupRx (d : DieId) (l : Fin 8) (groups : List (BitVec 10)) (s : State) : Host.Outcome State Fault Refusal :=
  onDie d (Die.onFrame l groups (Die.startupRx l)) s

/-- BEACON_MISSING (R385): lane l: 5 µs have passed since the expected cycle start with no beacon. -/
def execBeaconMissing (d : DieId) (l : Fin 8) (s : State) : Host.Outcome State Fault Refusal :=
  onDue d (Die.dueMissing l) (fun _ => Die.beaconMissing l) s

/-- POLL_RX (R363): lane l: a POLL arrives at a node lane. -/
def execPollRx (d : DieId) (l : Fin 8) (groups : List (BitVec 10)) (s : State) : Host.Outcome State Fault Refusal :=
  onDie d (Die.onFrame l groups (Die.pollRx l)) s

/-- RETPOLL_RX (R370): lane l: a RETPOLL arrives at a node lane. -/
def execRetpollRx (d : DieId) (l : Fin 8) (groups : List (BitVec 10)) (s : State) : Host.Outcome State Fault Refusal :=
  onDie d (Die.onFrame l groups (Die.retpollRx l)) s

/-- ACYC_RX (R374): lane l: an ACYC arrives at a node lane, or at a lane in BACKUP. -/
def execAcycRx (d : DieId) (l : Fin 8) (groups : List (BitVec 10)) (s : State) : Host.Outcome State Fault Refusal :=
  onDie d (Die.onFrame l groups (Die.acycRx l)) s

/-- IDLE_RX (R365): lane l: an IDLE arrives. -/
def execIdleRx (d : DieId) (l : Fin 8) (groups : List (BitVec 10)) (s : State) : Host.Outcome State Fault Refusal :=
  onDie d (Die.onFrame l groups (Die.idleRx l)) s

/-- SOF_DETECTED (R387): lane l: a SOF is detected, `after` ticks on. -/
def execSofDetected (d : DieId) (l : Fin 8) (after : Nat) (s : State) : Host.Outcome State Fault Refusal :=
  onAfter d after (Die.sofDetected l) s

/-- SILENCE_TIMEOUT (R387): lane l: the silence of a lane in SILENT. -/
def execSilenceTimeout (d : DieId) (l : Fin 8) (s : State) : Host.Outcome State Fault Refusal :=
  onDue d (Die.dueSilence l) (fun _ => Die.silenceTimeout l) s

/-- STARTUP_READBACK (R387): lane l: the STARTUP has been read back. -/
def execStartupReadback (d : DieId) (l : Fin 8) (ok : Bool) (s : State) : Host.Outcome State Fault Refusal :=
  onDue d (Die.dueReadback l ok) (fun _ => Die.startupReadback l ok) s

/-- CLASH_BACKOFF_END (R387): lane l: the silence of a lane in CLASH. -/
def execClashBackoffEnd (d : DieId) (l : Fin 8) (s : State) : Host.Outcome State Fault Refusal :=
  onDue d (Die.dueSilence l) (fun _ => Die.clashBackoffEnd l) s

/-- BACKUP_SILENCE (R387): lane l: the silence of a lane in BACKUP. -/
def execBackupSilence (d : DieId) (l : Fin 8) (s : State) : Host.Outcome State Fault Refusal :=
  onDue d (Die.dueSilence l) (fun _ => Die.backupSilence l) s

/-- BACKUP_TAKEOVER (R388): lane l: a lane in BACKUP takes over at its sending time. -/
def execBackupTakeover (d : DieId) (l : Fin 8) (s : State) : Host.Outcome State Fault Refusal :=
  onDue d (Die.dueBackup l) (fun _ => Die.backupTakeover l) s

/-- MB_RESTART (R387): lane l: MB_LANE_CTRL.RESTART. -/
def execMbRestart (d : DieId) (l : Fin 8) (s : State) : Host.Outcome State Fault Refusal :=
  onDie d (Die.cmd 28 (laneReg l 0) (Die.mbRestart l)) s

/-- MB_HOST_REQ (R394): lane l: a write of MB_LANE_CTRL.HOST_REQ. -/
def execMbHostReq (d : DieId) (l : Fin 8) (on : Bool) (s : State) : Host.Outcome State Fault Refusal :=
  onDie d (Die.cmd 28 (laneReg l 0) (Die.mbHostReq l on)) s

/-- MB_CLR_CNT (R396): lane l: MB_LANE_CTRL.CLR_CNT. -/
def execMbClrCnt (d : DieId) (l : Fin 8) (s : State) : Host.Outcome State Fault Refusal :=
  onDie d (Die.cmd 28 (laneReg l 0) (Die.mbClrCnt l)) s

/-- ACYC_GO (R393): lane l: MB_ACYC_CMD.GO. -/
def execAcycGo (d : DieId) (l : Fin 8) (s : State) : Host.Outcome State Fault Refusal :=
  onDie d (Die.cmd 28 (laneReg l 0x300) (Die.acycGo l)) s

/-- BEACON_READBACK (R463): lane l: a beacon has been read back. -/
def execBeaconReadback (d : DieId) (l : Fin 8) (ok : Bool) (s : State) : Host.Outcome State Fault Refusal :=
  onDie d (Die.beaconReadback l ok) s

end Sys2Proof.Machine
end

