-- ==== Sys2Proof/Machine/MonitorCmds.lean ====
section
/-! DEFINITION. The meanings of the commands and events of monitors, errors and safety (chapter 20): each is one operation on a die or on the
package, followed by `State.settle`. -/

namespace Sys2Proof.Machine

/-- PEER_RECORD_RX (R603): the oldest record the other die has forwarded arrives. -/
def execPeerRecordRx (d : DieId) (s : State) : Host.Outcome State Fault Refusal :=
  onState (State.peerRecordRx d) s

/-- MONITOR_SAMPLE (R597): the readings of one 100 µs sample. -/
def execMonitorSample (d : DieId) (temp : Vector (BitVec 16) 8) (volt : Vector (BitVec 13) 5) (margin : Vector (BitVec 10) 16) (s : State) : Host.Outcome State Fault Refusal :=
  onState (State.expires d (Die.dueStep Mon.sampleAt) (Die.monitorSample temp volt margin)) s

/-- SUPPLY_FAULT (R597): a supply comparator of a rail finds a fault that has lasted 2 µs. -/
def execSupplyFault (d : DieId) (s : State) : Host.Outcome State Fault Refusal :=
  onDie d Die.supplyFault s

/-- AVS_STEP (R598): one 100 µs step of the AVS loop; the core current read back in mA, none where the frame fails. -/
def execAvsStep (d : DieId) (iCore : Option Nat) (s : State) : Host.Outcome State Fault Refusal :=
  onState (State.expires d (Die.dueStep Mon.avsAt) (Die.avsStep iCore)) s

/-- AVS_CEILING (R598): 850 mV with the margin below target for 1 ms. -/
def execAvsCeiling (d : DieId) (s : State) : Host.Outcome State Fault Refusal :=
  onDie d Die.avsCeiling s

/-- POWER_CAP_STEP (R599): one 100 µs step of the power cap. -/
def execPowerCapStep (d : DieId) (s : State) : Host.Outcome State Fault Refusal :=
  onState (State.expires d (Die.dueStep Mon.capAt) Die.powerCapStep) s

/-- POP (R603): ERR_CTRL.POP. -/
def execPop (d : DieId) (s : State) : Host.Outcome State Fault Refusal :=
  onDie d (Die.cmd 27 0x2301000 Die.errPop) s

/-- CLR_FIRST (R603): ERR_CTRL.CLR_FIRST. -/
def execClrFirst (d : DieId) (s : State) : Host.Outcome State Fault Refusal :=
  onDie d (Die.cmd 27 0x2301000 Die.errClrFirst) s

/-- FOG_CLR (R607): ERR_CTRL.FOG_CLR. -/
def execFogClr (d : DieId) (s : State) : Host.Outcome State Fault Refusal :=
  onDie d (Die.cmd 27 0x2301000 Die.fogClr) s

/-- ERR_CLR_CNT (R610): ERR_CTRL.CLR_CNT. -/
def execErrClrCnt (d : DieId) (s : State) : Host.Outcome State Fault Refusal :=
  onDie d (Die.cmd 27 0x2301000 Die.errClrCnt) s

/-- ERR_SW_REC (R604): a write of the upper word of ERR_SW_REC. -/
def execErrSwRec (d : DieId) (src : Source) (hi : BitVec 32) (s : State) : Host.Outcome State Fault Refusal :=
  onDie d (Die.cmd 27 0x2301024 (Die.swRecord src hi)) s

/-- SAFE_IN_SAMPLE (R605): the pins of an input take levels, `n` ticks pass, and the filter is sampled; true
permits motion. -/
def execSafeInSample (d : DieId) (k : Fin 4) (a b : Bool) (n : Nat) (s : State) : Host.Outcome State Fault Refusal :=
  onState (State.safeInSample d k a b n) s

/-- SAFE_DISC_TIMEOUT (R605): DISC_MS have passed in WAIT. -/
def execSafeDiscTimeout (d : DieId) (k : Fin 4) (s : State) : Host.Outcome State Fault Refusal :=
  onState (State.expires d (Die.dueDisc k) (Die.safeDiscTimeout k)) s

/-- SAFE_ACK (R605): SAFE_CTRL.ACK. -/
def execSafeAck (d : DieId) (mask : BitVec 4) (s : State) : Host.Outcome State Fault Refusal :=
  onDie d (Die.cmd 35 0x2302000 (Die.safeAck mask)) s

/-- SAFE_OUT_MISMATCH (R606): the two safe-output copies as compared over one CLK_PER cycle. -/
def execSafeOutMismatch (d : DieId) (a b : Bool) (s : State) : Host.Outcome State Fault Refusal :=
  onDie d (Die.safeMismatch (a != b)) s

end Sys2Proof.Machine
end

