-- ==== Sys2Proof/Machine/PowerCmds.lean ====
section
/-! DEFINITION. The meanings of the commands and events of power domains and clocks (chapter 18): each is one operation on a die or on the
package, followed by `State.settle`. -/

namespace Sys2Proof.Machine

/-- DOM_REQ_ON (R544): PWR_DOM_CTRL.REQ = ON of a domain. -/
def execDomReqOn (d : DieId) (dom : Fin 36) (s : State) : Host.Outcome State Fault Refusal :=
  onDie d (Die.cmd 0 (domReg dom) (Die.domRequest dom 2)) s

/-- DOM_REQ_RET (R544): PWR_DOM_CTRL.REQ = RET of a domain. -/
def execDomReqRet (d : DieId) (dom : Fin 36) (s : State) : Host.Outcome State Fault Refusal :=
  onDie d (Die.cmd 0 (domReg dom) (Die.domRequest dom 1)) s

/-- DOM_REQ_OFF (R544): PWR_DOM_CTRL.REQ = OFF of a domain. -/
def execDomReqOff (d : DieId) (dom : Fin 36) (s : State) : Host.Outcome State Fault Refusal :=
  onDie d (Die.cmd 0 (domReg dom) (Die.domRequest dom 0)) s

/-- DOM_REG_READY (R545): the regulator of a waking domain is ready. -/
def execDomRegReady (d : DieId) (dom : Fin 36) (s : State) : Host.Outcome State Fault Refusal :=
  onDie d (Die.regReady dom) s

/-- DOM_WAKE_TIMEOUT (R545): 2 ms of an attempt pass with no ready. -/
def execDomWakeTimeout (d : DieId) (dom : Fin 36) (s : State) : Host.Outcome State Fault Refusal :=
  onState (State.expires d (Die.dueWakeTimeout dom) (Die.domWakeTimeout dom)) s

/-- DOM_WAKE_RETRY (R545): the switch has been open for 100 µs. -/
def execDomWakeRetry (d : DieId) (dom : Fin 36) (s : State) : Host.Outcome State Fault Refusal :=
  onState (State.expires d (Die.dueWakeRetry dom) (Die.domWakeRetry dom)) s

/-- DOM_RESUME_DONE (R545): a domain returning from RET has its clocks back. -/
def execDomResumeDone (d : DieId) (dom : Fin 36) (s : State) : Host.Outcome State Fault Refusal :=
  onGrant (State.domResumeDone d dom) s

/-- DOMAIN_ASLEEP_ACCESS (R552): an access to a sleeping domain. -/
def execDomainAsleepAccess (d : DieId) (dom : Fin 36) (who : Initiator) (addr : BitVec 32) (write : Bool) (s : State) : Host.Outcome State Fault Refusal :=
  onDie d (Die.domainAsleep dom who addr write) s

/-- WAKE_ON_ACCESS (R553): an access to a domain in RET with WOA. -/
def execWakeOnAccess (d : DieId) (a : Stalled) (s : State) : Host.Outcome State Fault Refusal :=
  onGrant (State.wakeOnAccess d a) s

/-- WOA_TIMEOUT (R553): 50 µs pass after the access. -/
def execWoaTimeout (d : DieId) (dom : Fin 36) (s : State) : Host.Outcome State Fault Refusal :=
  onState (State.expires d (Die.dueWoa dom) (Die.woaTimeout dom)) s

/-- LP_REQ (R551): PWR_CTRL.LP_REQ = 1. -/
def execLpReq (d : DieId) (s : State) : Host.Outcome State Fault Refusal :=
  onDie d (Die.cmd 0 0x100000 Die.lpRequest) s

/-- CLR_LOG (R557): PWR_CTRL.CLR_LOG. -/
def execClrLog (d : DieId) (s : State) : Host.Outcome State Fault Refusal :=
  onDie d (Die.cmd 0 0x100000 Die.clrAsleepLog) s

/-- PWR_CLR_CNT (R557): PWR_CTRL.CLR_CNT. -/
def execPwrClrCnt (d : DieId) (s : State) : Host.Outcome State Fault Refusal :=
  onDie d (Die.cmd 0 0x100000 Die.clrPwrCnt) s

/-- AON_BROWN_OUT (R551): the load of the AON regulator exceeds the limit of its mode. -/
def execAonBrownOut (d : DieId) (s : State) : Host.Outcome State Fault Refusal :=
  onDie d Die.brownOut s

/-- PLL_EN (R549): a write of CLK_CTRL.PLL_EN. -/
def execPllEn (d : DieId) (on : Bool) (s : State) : Host.Outcome State Fault Refusal :=
  onDie d (Die.cmd 0 0x101000 (Die.writePllEn on)) s

/-- PLL_LOCK (R549): the PLL locks. -/
def execPllLock (d : DieId) (s : State) : Host.Outcome State Fault Refusal :=
  onDie d Die.pllLock s

/-- PLL_LOCK_TIMEOUT (R549): 2 ms pass with no lock. -/
def execPllLockTimeout (d : DieId) (s : State) : Host.Outcome State Fault Refusal :=
  onState (State.expires d Die.duePll Die.pllLockTimeout) s

/-- PLL_RESTART (R549): the PLL has been stopped for 100 µs. -/
def execPllRestart (d : DieId) (s : State) : Host.Outcome State Fault Refusal :=
  onState (State.expires d Die.duePllRestart Die.pllRestart) s

/-- SEL (R549): a write of CLK_CTRL.SEL. -/
def execSel (d : DieId) (pll : Bool) (s : State) : Host.Outcome State Fault Refusal :=
  onDie d (Die.cmd 0 0x101000 (Die.writeSel pll)) s

/-- CLK_LOSS (R550): REFCLK loss, or the PLL loses lock. -/
def execClkLoss (d : DieId) (refLost : Bool) (s : State) : Host.Outcome State Fault Refusal :=
  onDie d (Die.loseClock refLost) s

/-- SMB_WAKE (R554): an SMBus address byte in LP mode. -/
def execSmbWake (d : DieId) (addrByte : BitVec 8) (s : State) : Host.Outcome State Fault Refusal :=
  onDie d (Die.smbWake addrByte) s

end Sys2Proof.Machine
end

