-- ==== Sys2Proof/Machine/QueueCmds.lean ====
section
/-! DEFINITION. The meanings of the commands and events of the run-ahead queues (chapter 5): each is one operation on a die or on the
package, followed by `State.settle`. -/

namespace Sys2Proof.Machine

/-- PUTQ_STALL_END (R156): a credit has returned to an engine stalled in PUTQ. -/
def execPutqStallEnd (d : DieId) (e : Fin 80) (s : State) : Host.Outcome State Fault Refusal :=
  onDie d (Die.putqStallEnd e) s

/-- LOOKOUT_WAIT_END (R157): CYC has advanced far enough for an enqueue that waits for its lookout window. -/
def execLookoutWaitEnd (d : DieId) (e : Fin 80) (s : State) : Host.Outcome State Fault Refusal :=
  onDie d (Die.lookoutWaitEnd e) s

/-- QUEUE_SQUASH (R178): QRC_Q_CMD.SQUASH. -/
def execQueueSquash (d : DieId) (q : Fin 1024) (s : State) : Host.Outcome State Fault Refusal :=
  onDie d (Die.cmd 27 (queueReg q 28) (Die.cmdSquash q)) s

/-- QUEUE_CLR_CNT (R178): QRC_Q_CMD.CLR_CNT. -/
def execQueueClrCnt (d : DieId) (q : Fin 1024) (s : State) : Host.Outcome State Fault Refusal :=
  onDie d (Die.cmd 27 (queueReg q 28) (Die.cmdClrCnt q)) s

/-- QUEUE_CAP_WRITE (R172): a write of QRC_Q_CAP. -/
def execQueueCapWrite (d : DieId) (q : Fin 1024) (cap : BitVec 9) (s : State) : Host.Outcome State Fault Refusal :=
  onDie d (Die.cmd 27 (queueReg q 8) (Die.cmdCap q cap)) s

end Sys2Proof.Machine
end

