-- ==== Sys2Proof/Machine/RedCmds.lean ====
section
/-! DEFINITION. The meanings of the commands and events of redundancy (chapter 15): each is one operation on a die or on the
package, followed by `State.settle`. -/

namespace Sys2Proof.Machine

/-- ENABLE (R460): RED_UNIT_CMD.ENABLE. -/
def execEnable (d : DieId) (s : State) : Host.Outcome State Fault Refusal :=
  onState (State.cmd d 27 0x220000C (fun s => s.redUnitCmd d .enable)) s

/-- DRAIN (R471): RED_UNIT_CMD.DRAIN. -/
def execDrain (d : DieId) (s : State) : Host.Outcome State Fault Refusal :=
  onState (State.cmd d 27 0x220000C (fun s => s.redUnitCmd d .drain)) s

/-- TEST (R460): RED_UNIT_CMD.TEST. -/
def execTest (d : DieId) (s : State) : Host.Outcome State Fault Refusal :=
  onState (State.cmd d 27 0x220000C (fun s => s.redUnitCmd d .test)) s

/-- RECOVER (R460): RED_UNIT_CMD.RECOVER. -/
def execRecover (d : DieId) (s : State) : Host.Outcome State Fault Refusal :=
  onState (State.cmd d 27 0x220000C (fun s => s.redUnitCmd d .recover)) s

/-- QUARANTINE (R460): RED_UNIT_CMD.QUARANTINE. -/
def execQuarantine (d : DieId) (s : State) : Host.Outcome State Fault Refusal :=
  onState (State.cmd d 27 0x220000C (fun s => s.redUnitCmd d .quarantine)) s

/-- RELEASE (R460): RED_UNIT_CMD.RELEASE. -/
def execRelease (d : DieId) (s : State) : Host.Outcome State Fault Refusal :=
  onState (State.cmd d 27 0x220000C (fun s => s.redUnitCmd d .release)) s

/-- SELFTEST_DONE (R460): the self-test of a unit, named by KIND and INDEX, ends. -/
def execSelftestDone (d : DieId) (kind : Fin 16) (idx : Fin 1024) (pass : Bool) (s : State) : Host.Outcome State Fault Refusal :=
  onDie d (Die.selftestDone kind idx pass) s

/-- BIST_SLOT_START (R485): a self-test slot of the spares. -/
def execBistSlotStart (d : DieId) (s : State) : Host.Outcome State Fault Refusal :=
  onState (State.timed d Die.ticksToBist Die.bistSlot) s

/-- BLOCK_TEST_STEP (R486): the standby die has tested its next block; `last` ends the rotation. -/
def execBlockTestStep (d : DieId) (pass last : Bool) (s : State) : Host.Outcome State Fault Refusal :=
  onDie d (Die.blockTest pass last) s

/-- DATA_PATH_SILENT (R464): the data path of a unit decides that it is silent. -/
def execDataPathSilent (d : DieId) (kind : Fin 16) (idx : Fin 1024) (s : State) : Host.Outcome State Fault Refusal :=
  onDie d (Die.dataSilent kind idx) s

/-- GRANT_REQ (R474): RED_CTRL.GRANT_REQ. -/
def execGrantReq (d : DieId) (s : State) : Host.Outcome State Fault Refusal :=
  onGrant (State.cmd d 27 0x2200000 (State.grantReq d)) s

/-- HOST_CONFIRM (R481): a write of RED_CTRL.HOST_CONFIRM. -/
def execHostConfirm (d : DieId) (on : Bool) (s : State) : Host.Outcome State Fault Refusal :=
  onDie d (Die.cmd 27 0x2200000 (Die.hostConfirm on)) s

/-- HANDOVER (R482): RED_CTRL.HANDOVER. -/
def execHandover (d : DieId) (s : State) : Host.Outcome State Fault Refusal :=
  onDie d (Die.cmd 27 0x2200000 Die.handover) s

/-- RESTART_PEER (R483): RED_CTRL.RESTART_PEER. -/
def execRestartPeer (d : DieId) (s : State) : Host.Outcome State Fault Refusal :=
  onGrant (State.cmd d 27 0x2200000 (State.restartPeer d)) s

/-- RED_CLR_CNT (R489): RED_CTRL.CLR_CNT. -/
def execRedClrCnt (d : DieId) (s : State) : Host.Outcome State Fault Refusal :=
  onDie d (Die.cmd 27 0x2200000 Die.redClrCnt) s

/-- RED_CONFIRM (R481): a write of RED_CONFIRM. -/
def execRedConfirm (d : DieId) (s : State) : Host.Outcome State Fault Refusal :=
  onDie d (Die.cmd 27 0x2200014 Die.redConfirm) s

/-- HEARTBEAT_RX (R475): HB(k) arrives with the sender's image signature. -/
def execHeartbeatRx (d : DieId) (k sig : BitVec 32) (s : State) : Host.Outcome State Fault Refusal :=
  onDie d (Die.heartbeatRx k sig) s

/-- HANDOVER_TOKEN_RX (R482): HO(n) arrives with the sender's image signature. -/
def execHandoverTokenRx (d : DieId) (n sig : BitVec 32) (s : State) : Host.Outcome State Fault Refusal :=
  onDie d (Die.handoverTokenRx n sig) s

/-- HOLDER_SILENT (R477): the standby finds the holder silent; `ticks`: the sequencer ticks each axis has missed. -/
def execHolderSilent (d : DieId) (ticks : List Nat) (s : State) : Host.Outcome State Fault Refusal :=
  onState (fun s => s.after (s.ticksToSilent d) (State.updWith d (Die.holderSilent ticks))) s

/-- TAKEOVER_CHECK_POINT (R477): 1,000 ns before a cycle start of a shadow run. -/
def execTakeoverCheckPoint (d : DieId) (s : State) : Host.Outcome State Fault Refusal :=
  onGrant (State.checkPoint d) s

/-- ENOFF_ASSERT (R477): the standby sees the other die's enables off. -/
def execEnoffAssert (d : DieId) (s : State) : Host.Outcome State Fault Refusal :=
  onGrant (State.enoffAssert d) s

/-- WAITOFF_TIMEOUT (R477): the enables of the other die are not off in time. -/
def execWaitoffTimeout (d : DieId) (s : State) : Host.Outcome State Fault Refusal :=
  onDue d Die.dueWaitoff (fun _ => Die.waitoffTimeout) s

/-- GATE_CLOSE (R473): 500 ns have passed since the last edge of LIVE. -/
def execGateClose (d : DieId) (s : State) : Host.Outcome State Fault Refusal :=
  onState (State.gateClose d) s

/-- SAFE_OUT_HOLD_EXPIRY (R476): 4 cell cycles have passed with no die driving the safe outputs. -/
def execSafeOutHoldExpiry (s : State) : Host.Outcome State Fault Refusal :=
  onState State.safeHoldExpiry s

/-- CAIRN_STREAM_RX (R466): the oldest cairn on the link arrives, its bytes changed by `err`. -/
def execCairnStreamRx (d : DieId) (err : List (BitVec 8)) (s : State) : Host.Outcome State Fault Refusal :=
  onState (State.cairnStreamRx d err) s

/-- PLAN_STREAM_RX (R467): the plan set of region w arrives at the standby. -/
def execPlanStreamRx (d : DieId) (w : Fin 4) (s : State) : Host.Outcome State Fault Refusal :=
  onPair d (Die.planStreamRx w) s

/-- FORWARD_STATE_RX (R577): the state the duty die forwards arrives at the standby. -/
def execForwardStateRx (d : DieId) (s : State) : Host.Outcome State Fault Refusal :=
  onPair d Die.forwardRx s

/-- HANDOVER_LIVE_STOP (R482): the holder stops LIVE in a handover. -/
def execHandoverLiveStop (d : DieId) (s : State) : Host.Outcome State Fault Refusal :=
  onDue d Die.dueLiveStop (fun _ => Die.handoverLiveStop) s

/-- D2D_LINK_DOWN (R487): the die-to-die link is lost. -/
def execD2dLinkDown (s : State) : Host.Outcome State Fault Refusal :=
  onState State.linkDown s

/-- D2D_LINK_UP (R487): the die-to-die link is back. -/
def execD2dLinkUp (s : State) : Host.Outcome State Fault Refusal :=
  onState State.linkUp s

/-- UNIT_RESET_COMPLETE (R460): a unit in RESET has completed its reset. -/
def execUnitResetComplete (d : DieId) (kind : Fin 16) (idx : Fin 1024) (s : State) : Host.Outcome State Fault Refusal :=
  onDie d (Die.unitResetComplete kind idx) s

end Sys2Proof.Machine
end

