-- ==== Sys2Proof/Machine/RegionCmds.lean ====
section
/-! DEFINITION. The meanings of the commands and events of planner regions (chapters 1 to 3): each is one operation on a die or on the
package, followed by `State.settle`. -/

namespace Sys2Proof.Machine

/-- ARM_SOLVE (R82): RGN_CTRL.ARM of region w with its options and PERIOD. -/
def execArmSolve (d : DieId) (w : Fin 4) (spec refactor vbank : Bool) (period : BitVec 16) (s : State) : Host.Outcome State Fault Refusal :=
  onDie d (Die.cmd (18 + w.val) (regionReg w 8) (Die.armSolve w spec refactor vbank period)) s

/-- SPEC_SOLVE_START (R105): the speculative start time of an armed solve. -/
def execSpecSolveStart (d : DieId) (w : Fin 4) (s : State) : Host.Outcome State Fault Refusal :=
  onDue d (Die.dueSpec w) (fun _ => Die.specSolveStart w) s

/-- SOLVE_START (R84): a solve that waits for its period starts. -/
def execSolveStart (d : DieId) (w : Fin 4) (s : State) : Host.Outcome State Fault Refusal :=
  onDie d (Die.solveStart w) s

/-- SOLVE_END (R72): the solve in progress ends. -/
def execSolveEnd (d : DieId) (w : Fin 4) (s : State) : Host.Outcome State Fault Refusal :=
  onDie d (Die.solveEnd w) s

/-- SOLVE_DEADLINE (R97): the deadline of the period passes; the phase and iterations that a running solve has reached. -/
def execSolveDeadline (d : DieId) (w : Fin 4) (phase : SolvePhase) (iters : Nat) (s : State) : Host.Outcome State Fault Refusal :=
  onDue d (Die.dueDeadline w) (fun _ => Die.solveDeadline w phase iters) s

/-- VERIFY_CHECK (R85): the verify check of the period, at the last reply or at t_j + SPEC_VMAX. -/
def execVerifyCheck (d : DieId) (w : Fin 4) (s : State) : Host.Outcome State Fault Refusal :=
  onDue d (Die.dueVerify w) (fun _ => Die.verifyCheck w) s

/-- SOLVE_SQUASH (R86): a solve that failed its check reaches the squash point of a phase. -/
def execSolveSquash (d : DieId) (w : Fin 4) (phase : SolvePhase) (iters : Nat) (s : State) : Host.Outcome State Fault Refusal :=
  onDie d (Die.solveSquash w phase iters) s

/-- PLAN_PUBLISH (R79): a finished solution becomes the plan in use. -/
def execPlanPublish (d : DieId) (w : Fin 4) (s : State) : Host.Outcome State Fault Refusal :=
  onDie d (Die.planPublish w) s

/-- HOST_REQ (R102): a write of RGN_CTRL.HOST_REQ. -/
def execHostReq (d : DieId) (w : Fin 4) (on : Bool) (s : State) : Host.Outcome State Fault Refusal :=
  onDie d (Die.cmd (18 + w.val) (regionReg w 0) (Die.hostReq w on)) s

/-- RESUME (R101): RGN_CTRL.RESUME. -/
def execResume (d : DieId) (w : Fin 4) (s : State) : Host.Outcome State Fault Refusal :=
  onDie d (Die.cmd (18 + w.val) (regionReg w 0) (Die.resume w)) s

/-- HOST_COMMIT (R103): RGN_HOST_COMMIT with PERIOD. -/
def execHostCommit (d : DieId) (w : Fin 4) (period : BitVec 16) (s : State) : Host.Outcome State Fault Refusal :=
  onDie d (Die.cmd (18 + w.val) (regionReg w 0x30) (Die.hostCommit w period)) s

end Sys2Proof.Machine
end

