-- ==== Sys2Proof/Machine/SepCmds.lean ====
section
/-! DEFINITION. The meanings of the commands and events of the separation monitor (chapter 4): each is one operation on a die or on the
package, followed by `State.settle`. -/

namespace Sys2Proof.Machine

/-- PHASE_S_END (R136): phase S ends; `differ`: the arms whose X and Y results differ. -/
def execPhaseSEnd (d : DieId) (differ : BitVec 16) (s : State) : Host.Outcome State Fault Refusal :=
  onDie d (Die.phaseSEnd differ) s

/-- PHASE_R_END (R136): phase R ends; `differ`: the regions whose X and Y row sets differ. -/
def execPhaseREnd (d : DieId) (differ : BitVec 4) (s : State) : Host.Outcome State Fault Refusal :=
  onDie d (Die.phaseREnd differ) s

/-- SEP_OVERRUN (R136): a pipeline of the monitor has not finished in its period. -/
def execSepOverrun (d : DieId) (s : State) : Host.Outcome State Fault Refusal :=
  onDie d Die.sepLate s

/-- SEP_HOST_SCALE_WRITE (R128): a write of SEP_HOST_SCALE of arm a. -/
def execSepHostScaleWrite (d : DieId) (a : Fin 16) (v : BitVec 16) (s : State) : Host.Outcome State Fault Refusal :=
  onDie d (Die.cmd 26 (sepReg (0xC0 + 4 * a.val)) (Die.hostScale a v)) s

/-- SEP_CLEAR (R137): SEP_CTRL.CLEAR. -/
def execSepClear (d : DieId) (s : State) : Host.Outcome State Fault Refusal :=
  onDie d (Die.cmd 26 (sepReg 0) Die.sepClear) s

/-- SENSOR_FRAME (R139): a sensor payload arrives at a time port, `after` ticks on. -/
def execSensorFrame (d : DieId) (payload : List (BitVec 8)) (after : Nat) (s : State) : Host.Outcome State Fault Refusal :=
  onAfter d after (fun d => if d.awake domSep then d.sensorFrame payload else d) s

/-- SENSOR_STALE (R140): the newest frame of sensor k exceeds its age limit. -/
def execSensorStale (d : DieId) (k : Fin 16) (s : State) : Host.Outcome State Fault Refusal :=
  onDue d (Die.dueStale k) (fun _ => Die.sensorStale k) s

/-- SENSOR_KEY_LOAD (R140): a write of word 3 of a sensor's key. -/
def execSensorKeyLoad (d : DieId) (k : Fin 16) (word3 : BitVec 32) (s : State) : Host.Outcome State Fault Refusal :=
  onDie d (Die.cmd 26 (sepReg (0x800 + 16 * k.val + 12)) (Die.sensorKey k word3)) s

end Sys2Proof.Machine
end

