-- ==== Sys2Proof/Machine/TimeCmds.lean ====
section
/-! DEFINITION. The meanings of the commands and events of the time unit and the time ports (chapter 14): each is one operation on a die or on the
package, followed by `State.settle`. -/

namespace Sys2Proof.Machine

/-- CELL_CYCLE_START (R446): TIME_NS reaches the nominal start of the next cell cycle. -/
def execCellCycleStart (d : DieId) (s : State) : Host.Outcome State Fault Refusal :=
  onState (State.cycleStart d) s

/-- NODE_ANNOUNCE_RX (R30): a node announce frame arrives: source MAC and payload. -/
def execNodeAnnounceRx (d : DieId) (port : Fin 2) (src : List (BitVec 8)) (payload : List (BitVec 8)) (s : State) : Host.Outcome State Fault Refusal :=
  onDie d (fun d => if d.portOn port then d.announceRx src payload else d) s

/-- TIME_CORR_WRITE (R436): a write of TIME_CORR. -/
def execTimeCorrWrite (d : DieId) (o : BitVec 32) (s : State) : Host.Outcome State Fault Refusal :=
  onDie d (Die.cmd 1 (timeReg 0x1C) (Die.writeCorr o)) s

/-- TIME_RATE_WRITE (R435): a write of TIME_RATE. -/
def execTimeRateWrite (d : DieId) (v : BitVec 32) (s : State) : Host.Outcome State Fault Refusal :=
  onDie d (Die.cmd 1 (timeReg 0x14) (Die.writeRate v)) s

/-- GRANT_STEP (R439): TIME_CTRL.GRANT_STEP. -/
def execGrantStep (d : DieId) (s : State) : Host.Outcome State Fault Refusal :=
  onDie d (Die.cmd 1 (timeReg 0) Die.grantStep) s

/-- TIME_CLR_CNT (R453): TIME_CTRL.CLR_CNT. -/
def execTimeClrCnt (d : DieId) (s : State) : Host.Outcome State Fault Refusal :=
  onDie d (Die.cmd 1 (timeReg 0) Die.clrTimeCnt) s

/-- TIME_NS_READ (R440): a read of TIME_NS. -/
def execTimeNsRead (d : DieId) (s : State) : Host.Outcome State Fault Refusal :=
  onDie d Die.timeNsRead s

/-- TIME_EPOCH_TAG_WRITE (R441): a write of TIME_EPOCH_TAG. -/
def execTimeEpochTagWrite (d : DieId) (tag : BitVec 8) (s : State) : Host.Outcome State Fault Refusal :=
  onDie d (Die.cmd 1 (timeReg 0x38) (Die.writeEpochTag tag)) s

/-- TIME_WRAP (R440): the counter advances until TIME_NS wraps. -/
def execTimeWrap (d : DieId) (s : State) : Host.Outcome State Fault Refusal :=
  onState (State.timed d Die.ticksToWrap Die.judgeEpoch) s

/-- EPOCH_STALE (R441): the epoch is judged against the time. -/
def execEpochStale (d : DieId) (s : State) : Host.Outcome State Fault Refusal :=
  onState (State.timed d Die.ticksToStale Die.judgeEpoch) s

/-- TRIG_CMP_WRITE (R448): a write of TRIG_CMP. -/
def execTrigCmpWrite (d : DieId) (k : Fin 8) (v : BitVec 32) (s : State) : Host.Outcome State Fault Refusal :=
  onDie d (Die.cmd 1 (trigReg k 4) (Die.writeTrigCmp k v)) s

/-- TRIGGER_FIRE (R448): the counter advances until the trigger reaches its compare. -/
def execTriggerFire (d : DieId) (k : Fin 8) (s : State) : Host.Outcome State Fault Refusal :=
  onState (State.timed d (Die.ticksToTrigger k) (Die.triggerFire k)) s

/-- TRIGGER_PULSE_END (R448): PW × 4 ns have passed. -/
def execTriggerPulseEnd (d : DieId) (k : Fin 8) (s : State) : Host.Outcome State Fault Refusal :=
  onState (State.timed d (Die.ticksToPulseEnd k) (Die.triggerPulseEnd k)) s

/-- CAPTURE_EDGE (R450): a capture input stands at a level for `n` ticks; a filtered edge of that time is captured. -/
def execCaptureEdge (k : Fin 8) (level : Bool) (n : Nat) (s : State) : Host.Outcome State Fault Refusal :=
  onState (State.captLevel k level n) s

/-- CAPT_POP (R456): a write of CAPT_POP. -/
def execCaptPop (d : DieId) (k : Fin 8) (s : State) : Host.Outcome State Fault Refusal :=
  onDie d (Die.cmd 1 (captReg k 0xC) (Die.captPop k)) s

/-- ETH_FRAME_RX (R430): a received frame, destination address first, without FCS, `after` ticks on. -/
def execEthFrameRx (d : DieId) (port : Fin 2) (frame : List (BitVec 8)) (fcsOk : Bool) (after : Nat) (s : State) : Host.Outcome State Fault Refusal :=
  onAfter d after (Die.ethFrameRx port frame fcsOk) s

/-- PTP_EVENT_RX (R442): a received PTP event message, `after` ticks on. -/
def execPtpEventRx (d : DieId) (port : Fin 2) (msg : List (BitVec 8)) (after : Nat) (s : State) : Host.Outcome State Fault Refusal :=
  onAfter d after (Die.ptpRx port msg) s

/-- PTP_EVENT_TX (R443): a queued PTP event frame is sent `after` ticks on; the PTP message starts at `ofs`. -/
def execPtpEventTx (d : DieId) (port : Fin 2) (frame : List (BitVec 8)) (ofs : Nat) (udp : Bool) (after : Nat) (s : State) : Host.Outcome State Fault Refusal :=
  onAfter d after (Die.ptpTx port frame ofs udp) s

/-- ETH_TS_POP (R442): a write of ETH_TS_POP. -/
def execEthTsPop (d : DieId) (port : Fin 2) (rx tx : Bool) (s : State) : Host.Outcome State Fault Refusal :=
  onDie d (Die.cmd (30 + port.val) (ethReg port 0x20) (Die.tsPop port rx tx)) s

/-- ETH_LINK_DOWN (R429): the port loses its link. -/
def execEthLinkDown (d : DieId) (port : Fin 2) (s : State) : Host.Outcome State Fault Refusal :=
  onDie d (Die.linkChange port false) s

/-- ETH_LINK_UP (R429): the link of the port returns. -/
def execEthLinkUp (d : DieId) (port : Fin 2) (s : State) : Host.Outcome State Fault Refusal :=
  onDie d (Die.linkChange port true) s

end Sys2Proof.Machine
end

