-- ==== Sys2Proof/Machine/Dispatch.lean ====
section
/-! DEFINITION. One arm per constructor of `Instr`, each one call of its meaning. -/

namespace Sys2Proof.Machine

def exec (i : Instr) (s : State) : Host.Outcome State Fault Refusal :=
  match i with
  | .cellCycleStart d => Sys2Proof.Machine.execCellCycleStart d s
  | .nodeAnnounceRx d port src payload => Sys2Proof.Machine.execNodeAnnounceRx d port src payload s
  | .armSolve d w spec refactor vbank period => Sys2Proof.Machine.execArmSolve d w spec refactor vbank period s
  | .specSolveStart d w => Sys2Proof.Machine.execSpecSolveStart d w s
  | .solveStart d w => Sys2Proof.Machine.execSolveStart d w s
  | .solveEnd d w => Sys2Proof.Machine.execSolveEnd d w s
  | .solveDeadline d w phase iters => Sys2Proof.Machine.execSolveDeadline d w phase iters s
  | .verifyCheck d w => Sys2Proof.Machine.execVerifyCheck d w s
  | .solveSquash d w phase iters => Sys2Proof.Machine.execSolveSquash d w phase iters s
  | .planPublish d w => Sys2Proof.Machine.execPlanPublish d w s
  | .hostReq d w on => Sys2Proof.Machine.execHostReq d w on s
  | .resume d w => Sys2Proof.Machine.execResume d w s
  | .hostCommit d w period => Sys2Proof.Machine.execHostCommit d w period s
  | .phaseSEnd d differ => Sys2Proof.Machine.execPhaseSEnd d differ s
  | .phaseREnd d differ => Sys2Proof.Machine.execPhaseREnd d differ s
  | .sepOverrun d => Sys2Proof.Machine.execSepOverrun d s
  | .sepHostScaleWrite d a v => Sys2Proof.Machine.execSepHostScaleWrite d a v s
  | .sepClear d => Sys2Proof.Machine.execSepClear d s
  | .sensorFrame d payload after => Sys2Proof.Machine.execSensorFrame d payload after s
  | .sensorStale d k => Sys2Proof.Machine.execSensorStale d k s
  | .sensorKeyLoad d k word3 => Sys2Proof.Machine.execSensorKeyLoad d k word3 s
  | .putqStallEnd d e => Sys2Proof.Machine.execPutqStallEnd d e s
  | .lookoutWaitEnd d e => Sys2Proof.Machine.execLookoutWaitEnd d e s
  | .queueSquash d q => Sys2Proof.Machine.execQueueSquash d q s
  | .queueClrCnt d q => Sys2Proof.Machine.execQueueClrCnt d q s
  | .queueCapWrite d q cap => Sys2Proof.Machine.execQueueCapWrite d q cap s
  | .fOutLatch d j => Sys2Proof.Machine.execFOutLatch d j s
  | .restart d j => Sys2Proof.Machine.execRestart d j s
  | .pathStop d j => Sys2Proof.Machine.execPathStop d j s
  | .quickStop d j => Sys2Proof.Machine.execQuickStop d j s
  | .offStop d j => Sys2Proof.Machine.execOffStop d j s
  | .pgGo d j => Sys2Proof.Machine.execPgGo d j s
  | .pgMoveDone d j => Sys2Proof.Machine.execPgMoveDone d j s
  | .modeReq d j mode source w => Sys2Proof.Machine.execModeReq d j mode source w s
  | .handoverCheck d j => Sys2Proof.Machine.execHandoverCheck d j s
  | .blendEnd d j => Sys2Proof.Machine.execBlendEnd d j s
  | .forceContact d j => Sys2Proof.Machine.execForceContact d j s
  | .plausFault d j => Sys2Proof.Machine.execPlausFault d j s
  | .fbLost d j => Sys2Proof.Machine.execFbLost d j s
  | .fbLostOffStop d j => Sys2Proof.Machine.execFbLostOffStop d j s
  | .jointAtRest d j => Sys2Proof.Machine.execJointAtRest d j s
  | .qstopTimeout d j => Sys2Proof.Machine.execQstopTimeout d j s
  | .hostPathStopEnd d j => Sys2Proof.Machine.execHostPathStopEnd d j s
  | .seqTick d a => Sys2Proof.Machine.execSeqTick d a s
  | .axMoveDone d a => Sys2Proof.Machine.execAxMoveDone d a s
  | .axBrakeDone d a => Sys2Proof.Machine.execAxBrakeDone d a s
  | .bridgeFault a low => Sys2Proof.Machine.execBridgeFault a low s
  | .pwmPeak d a => Sys2Proof.Machine.execPwmPeak d a s
  | .driveSetLatch d a => Sys2Proof.Machine.execDriveSetLatch d a s
  | .ampHoldDelayEnd d a => Sys2Proof.Machine.execAmpHoldDelayEnd d a s
  | .axGo d a => Sys2Proof.Machine.execAxGo d a s
  | .axPathStop d a => Sys2Proof.Machine.execAxPathStop d a s
  | .axQuickStop d a => Sys2Proof.Machine.execAxQuickStop d a s
  | .axOffStop d a => Sys2Proof.Machine.execAxOffStop d a s
  | .axRestart d a => Sys2Proof.Machine.execAxRestart d a s
  | .homeGo d a => Sys2Proof.Machine.execHomeGo d a s
  | .homeStep d a => Sys2Proof.Machine.execHomeStep d a s
  | .axClrFault d a => Sys2Proof.Machine.execAxClrFault d a s
  | .axPosSet d a v => Sys2Proof.Machine.execAxPosSet d a v s
  | .axCmpArm d a v => Sys2Proof.Machine.execAxCmpArm d a v s
  | .cmpPulseEnd d a => Sys2Proof.Machine.execCmpPulseEnd d a s
  | .axInputChange d a k level => Sys2Proof.Machine.execAxInputChange d a k level s
  | .chatterDetect d a k => Sys2Proof.Machine.execChatterDetect d a k s
  | .encCountEdge k a b n => Sys2Proof.Machine.execEncCountEdge k a b n s
  | .encIndex k level n => Sys2Proof.Machine.execEncIndex k level n s
  | .encSampleStrobe d k => Sys2Proof.Machine.execEncSampleStrobe d k s
  | .ssiFrameStart d k ready => Sys2Proof.Machine.execSsiFrameStart d k ready s
  | .ssiFrameEnd d k w endHigh => Sys2Proof.Machine.execSsiFrameEnd d k w endHigh s
  | .listenFrame d k w edges endHigh mt after => Sys2Proof.Machine.execListenFrame d k w edges endHigh mt after s
  | .listenTimeout d k => Sys2Proof.Machine.execListenTimeout d k s
  | .emuStep d k => Sys2Proof.Machine.execEmuStep d k s
  | .encClrFault d k => Sys2Proof.Machine.execEncClrFault d k s
  | .encClrCnt d k => Sys2Proof.Machine.execEncClrCnt d k s
  | .encCntSet d k v => Sys2Proof.Machine.execEncCntSet d k v s
  | .add d e xd xa xb => Sys2Proof.Machine.execAdd d e xd xa xb s
  | .sub d e xd xa xb => Sys2Proof.Machine.execSub d e xd xa xb s
  | .and d e xd xa xb => Sys2Proof.Machine.execAnd d e xd xa xb s
  | .or d e xd xa xb => Sys2Proof.Machine.execOr d e xd xa xb s
  | .xor d e xd xa xb => Sys2Proof.Machine.execXor d e xd xa xb s
  | .cmp d e xa xb => Sys2Proof.Machine.execCmp d e xa xb s
  | .min d e xd xa xb => Sys2Proof.Machine.execMin d e xd xa xb s
  | .max d e xd xa xb => Sys2Proof.Machine.execMax d e xd xa xb s
  | .abs d e xd xa => Sys2Proof.Machine.execAbs d e xd xa s
  | .neg d e xd xa => Sys2Proof.Machine.execNeg d e xd xa s
  | .mov d e xd xa => Sys2Proof.Machine.execMov d e xd xa s
  | .sll d e xd xa xb => Sys2Proof.Machine.execSll d e xd xa xb s
  | .sra d e xd xa xb => Sys2Proof.Machine.execSra d e xd xa xb s
  | .srl d e xd xa xb => Sys2Proof.Machine.execSrl d e xd xa xb s
  | .slli d e xd xa sh => Sys2Proof.Machine.execSlli d e xd xa sh s
  | .srai d e xd xa sh => Sys2Proof.Machine.execSrai d e xd xa sh s
  | .srli d e xd xa sh => Sys2Proof.Machine.execSrli d e xd xa sh s
  | .expx d e xd xa => Sys2Proof.Machine.execExpx d e xd xa s
  | .norm d e xd xc xa => Sys2Proof.Machine.execNorm d e xd xc xa s
  | .addi d e xd xa imm => Sys2Proof.Machine.execAddi d e xd xa imm s
  | .andi d e xd xa imm => Sys2Proof.Machine.execAndi d e xd xa imm s
  | .ori d e xd xa imm => Sys2Proof.Machine.execOri d e xd xa imm s
  | .xori d e xd xa imm => Sys2Proof.Machine.execXori d e xd xa imm s
  | .cmpi d e xa imm => Sys2Proof.Machine.execCmpi d e xa imm s
  | .movi d e xd imm => Sys2Proof.Machine.execMovi d e xd imm s
  | .movh d e xd imm => Sys2Proof.Machine.execMovh d e xd imm s
  | .ld d e xd mem => Sys2Proof.Machine.execLd d e xd mem s
  | .st d e xs mem => Sys2Proof.Machine.execSt d e xs mem s
  | .pmod d e mem => Sys2Proof.Machine.execPmod d e mem s
  | .muln d e xd xa xb sh => Sys2Proof.Machine.execMuln d e xd xa xb sh s
  | .mac d e z accd xa xb => Sys2Proof.Machine.execMac d e z accd xa xb s
  | .msu d e z accd xa xb => Sys2Proof.Machine.execMsu d e z accd xa xb s
  | .qmac d e z xa mem => Sys2Proof.Machine.execQmac d e z xa mem s
  | .qmsu d e z xa mem => Sys2Proof.Machine.execQmsu d e z xa mem s
  | .dmac d e z hi pair mem => Sys2Proof.Machine.execDmac d e z hi pair mem s
  | .dmsu d e z hi pair mem => Sys2Proof.Machine.execDmsu d e z hi pair mem s
  | .clra d e accd => Sys2Proof.Machine.execClra d e accd s
  | .mova d e accd xa sh => Sys2Proof.Machine.execMova d e accd xa sh s
  | .movna d e accd xa sh => Sys2Proof.Machine.execMovna d e accd xa sh s
  | .adda d e accd accs => Sys2Proof.Machine.execAdda d e accd accs s
  | .suba d e accd accs => Sys2Proof.Machine.execSuba d e accd accs s
  | .shra d e accd sh => Sys2Proof.Machine.execShra d e accd sh s
  | .shla d e accd sh => Sys2Proof.Machine.execShla d e accd sh s
  | .cpya d e accd accs => Sys2Proof.Machine.execCpya d e accd accs s
  | .expxAcc d e xd accd => Sys2Proof.Machine.execExpxAcc d e xd accd s
  | .normAcc d e accd xc => Sys2Proof.Machine.execNormAcc d e accd xc s
  | .nrw d e xd acc sh => Sys2Proof.Machine.execNrw d e xd acc sh s
  | .nst d e acc sh mem => Sys2Proof.Machine.execNst d e acc sh mem s
  | .amov d e cls k imm => Sys2Proof.Machine.execAmov d e cls k imm s
  | .mfs d e xd sreg => Sys2Proof.Machine.execMfs d e xd sreg s
  | .mts d e sreg xa => Sys2Proof.Machine.execMts d e sreg xa s
  | .branch d e cond target => Sys2Proof.Machine.execBranch d e cond target s
  | .call d e target => Sys2Proof.Machine.execCall d e target s
  | .ret d e => Sys2Proof.Machine.execRet d e s
  | .loop d e lvl last => Sys2Proof.Machine.execLoop d e lvl last s
  | .loopi d e lvl cnt last => Sys2Proof.Machine.execLoopi d e lvl cnt last s
  | .waitq d e qp => Sys2Proof.Machine.execWaitq d e qp s
  | .waitqResume d e cycles => Sys2Proof.Machine.execWaitqResume d e cycles s
  | .getq d e xd qp => Sys2Proof.Machine.execGetq d e xd qp s
  | .putq d e xs qp last => Sys2Proof.Machine.execPutq d e xs qp last s
  | .time d e xd => Sys2Proof.Machine.execTime d e xd s
  | .cairn d e => Sys2Proof.Machine.execCairn d e s
  | .sig d e imm => Sys2Proof.Machine.execSig d e imm s
  | .endRun d e imm => Sys2Proof.Machine.execEndRun d e imm s
  | .nop d e => Sys2Proof.Machine.execNop d e s
  | .engineOverrun d e => Sys2Proof.Machine.execEngineOverrun d e s
  | .engClrCnt d e => Sys2Proof.Machine.execEngClrCnt d e s
  | .spareLoadDone d e => Sys2Proof.Machine.execSpareLoadDone d e s
  | .beaconSend d l => Sys2Proof.Machine.execBeaconSend d l s
  | .pollSend d l n => Sys2Proof.Machine.execPollSend d l n s
  | .retpollSend d l n => Sys2Proof.Machine.execRetpollSend d l n s
  | .acycSend d l n => Sys2Proof.Machine.execAcycSend d l n s
  | .idleSend d l n => Sys2Proof.Machine.execIdleSend d l n s
  | .replyRx d l sof groups => Sys2Proof.Machine.execReplyRx d l sof groups s
  | .acycReplyRx d l sof groups => Sys2Proof.Machine.execAcycReplyRx d l sof groups s
  | .replyMissed d l => Sys2Proof.Machine.execReplyMissed d l s
  | .frameRxInvalid d l groups => Sys2Proof.Machine.execFrameRxInvalid d l groups s
  | .beaconRx d l sof groups => Sys2Proof.Machine.execBeaconRx d l sof groups s
  | .startupRx d l groups => Sys2Proof.Machine.execStartupRx d l groups s
  | .beaconMissing d l => Sys2Proof.Machine.execBeaconMissing d l s
  | .pollRx d l groups => Sys2Proof.Machine.execPollRx d l groups s
  | .retpollRx d l groups => Sys2Proof.Machine.execRetpollRx d l groups s
  | .acycRx d l groups => Sys2Proof.Machine.execAcycRx d l groups s
  | .idleRx d l groups => Sys2Proof.Machine.execIdleRx d l groups s
  | .sofDetected d l after => Sys2Proof.Machine.execSofDetected d l after s
  | .silenceTimeout d l => Sys2Proof.Machine.execSilenceTimeout d l s
  | .startupReadback d l ok => Sys2Proof.Machine.execStartupReadback d l ok s
  | .clashBackoffEnd d l => Sys2Proof.Machine.execClashBackoffEnd d l s
  | .backupSilence d l => Sys2Proof.Machine.execBackupSilence d l s
  | .backupTakeover d l => Sys2Proof.Machine.execBackupTakeover d l s
  | .mbRestart d l => Sys2Proof.Machine.execMbRestart d l s
  | .mbHostReq d l on => Sys2Proof.Machine.execMbHostReq d l on s
  | .mbClrCnt d l => Sys2Proof.Machine.execMbClrCnt d l s
  | .acycGo d l => Sys2Proof.Machine.execAcycGo d l s
  | .canFrameRx d n f sof => Sys2Proof.Machine.execCanFrameRx d n f sof s
  | .canTxDone d n sof tdcv => Sys2Proof.Machine.execCanTxDone d n sof tdcv s
  | .canArbLost d n => Sys2Proof.Machine.execCanArbLost d n s
  | .canBusError d n e tdcv => Sys2Proof.Machine.execCanBusError d n e tdcv s
  | .canBusoffRecovery d n k => Sys2Proof.Machine.execCanBusoffRecovery d n k s
  | .canIntegrated d n => Sys2Proof.Machine.execCanIntegrated d n s
  | .canProtocolExc d n => Sys2Proof.Machine.execCanProtocolExc d n s
  | .canRefMissed d n => Sys2Proof.Machine.execCanRefMissed d n s
  | .txReq d n b withAbort => Sys2Proof.Machine.execTxReq d n b withAbort s
  | .txAbort d n b => Sys2Proof.Machine.execTxAbort d n b s
  | .canRxPop d n => Sys2Proof.Machine.execCanRxPop d n s
  | .canInit d n on => Sys2Proof.Machine.execCanInit d n on s
  | .canRom d n on => Sys2Proof.Machine.execCanRom d n on s
  | .canMon d n on => Sys2Proof.Machine.execCanMon d n on s
  | .canDirect d n on => Sys2Proof.Machine.execCanDirect d n on s
  | .refRestart d n => Sys2Proof.Machine.execRefRestart d n s
  | .timeCorrWrite d o => Sys2Proof.Machine.execTimeCorrWrite d o s
  | .timeRateWrite d v => Sys2Proof.Machine.execTimeRateWrite d v s
  | .grantStep d => Sys2Proof.Machine.execGrantStep d s
  | .timeClrCnt d => Sys2Proof.Machine.execTimeClrCnt d s
  | .timeNsRead d => Sys2Proof.Machine.execTimeNsRead d s
  | .timeEpochTagWrite d tag => Sys2Proof.Machine.execTimeEpochTagWrite d tag s
  | .timeWrap d => Sys2Proof.Machine.execTimeWrap d s
  | .epochStale d => Sys2Proof.Machine.execEpochStale d s
  | .trigCmpWrite d k v => Sys2Proof.Machine.execTrigCmpWrite d k v s
  | .triggerFire d k => Sys2Proof.Machine.execTriggerFire d k s
  | .triggerPulseEnd d k => Sys2Proof.Machine.execTriggerPulseEnd d k s
  | .captureEdge k level n => Sys2Proof.Machine.execCaptureEdge k level n s
  | .captPop d k => Sys2Proof.Machine.execCaptPop d k s
  | .ethFrameRx d port frame fcsOk after => Sys2Proof.Machine.execEthFrameRx d port frame fcsOk after s
  | .ptpEventRx d port msg after => Sys2Proof.Machine.execPtpEventRx d port msg after s
  | .ptpEventTx d port frame ofs udp after => Sys2Proof.Machine.execPtpEventTx d port frame ofs udp after s
  | .ethTsPop d port rx tx => Sys2Proof.Machine.execEthTsPop d port rx tx s
  | .ethLinkDown d port => Sys2Proof.Machine.execEthLinkDown d port s
  | .ethLinkUp d port => Sys2Proof.Machine.execEthLinkUp d port s
  | .enable d => Sys2Proof.Machine.execEnable d s
  | .drain d => Sys2Proof.Machine.execDrain d s
  | .test d => Sys2Proof.Machine.execTest d s
  | .recover d => Sys2Proof.Machine.execRecover d s
  | .quarantine d => Sys2Proof.Machine.execQuarantine d s
  | .release d => Sys2Proof.Machine.execRelease d s
  | .selftestDone d kind idx pass => Sys2Proof.Machine.execSelftestDone d kind idx pass s
  | .bistSlotStart d => Sys2Proof.Machine.execBistSlotStart d s
  | .blockTestStep d pass last => Sys2Proof.Machine.execBlockTestStep d pass last s
  | .dataPathSilent d kind idx => Sys2Proof.Machine.execDataPathSilent d kind idx s
  | .grantReq d => Sys2Proof.Machine.execGrantReq d s
  | .hostConfirm d on => Sys2Proof.Machine.execHostConfirm d on s
  | .handover d => Sys2Proof.Machine.execHandover d s
  | .restartPeer d => Sys2Proof.Machine.execRestartPeer d s
  | .redClrCnt d => Sys2Proof.Machine.execRedClrCnt d s
  | .redConfirm d => Sys2Proof.Machine.execRedConfirm d s
  | .heartbeatRx d k sig => Sys2Proof.Machine.execHeartbeatRx d k sig s
  | .handoverTokenRx d n sig => Sys2Proof.Machine.execHandoverTokenRx d n sig s
  | .holderSilent d ticks => Sys2Proof.Machine.execHolderSilent d ticks s
  | .takeoverCheckPoint d => Sys2Proof.Machine.execTakeoverCheckPoint d s
  | .enoffAssert d => Sys2Proof.Machine.execEnoffAssert d s
  | .waitoffTimeout d => Sys2Proof.Machine.execWaitoffTimeout d s
  | .gateClose d => Sys2Proof.Machine.execGateClose d s
  | .safeOutHoldExpiry => Sys2Proof.Machine.execSafeOutHoldExpiry s
  | .cairnStreamRx d err => Sys2Proof.Machine.execCairnStreamRx d err s
  | .planStreamRx d w => Sys2Proof.Machine.execPlanStreamRx d w s
  | .forwardStateRx d => Sys2Proof.Machine.execForwardStateRx d s
  | .peerRecordRx d => Sys2Proof.Machine.execPeerRecordRx d s
  | .load d src copy => Sys2Proof.Machine.execLoad d src copy s
  | .imgPass1Done d => Sys2Proof.Machine.execImgPass1Done d s
  | .imgPass2Done d => Sys2Proof.Machine.execImgPass2Done d s
  | .apply d atCyc => Sys2Proof.Machine.execApply d atCyc s
  | .imgApplyBoundary => Sys2Proof.Machine.execImgApplyBoundary s
  | .abort d => Sys2Proof.Machine.execAbort d s
  | .imgClrCnt d => Sys2Proof.Machine.execImgClrCnt d s
  | .stagedUpdateRx d => Sys2Proof.Machine.execStagedUpdateRx d s
  | .imgPushLen d len => Sys2Proof.Machine.execImgPushLen d len s
  | .pushTimeout d => Sys2Proof.Machine.execPushTimeout d s
  | .porAssert d => Sys2Proof.Machine.execPorAssert d s
  | .porRelease d bootSel addrSel => Sys2Proof.Machine.execPorRelease d bootSel addrSel s
  | .wrstAssert d => Sys2Proof.Machine.execWrstAssert d s
  | .wrstRelease d => Sys2Proof.Machine.execWrstRelease d s
  | .fwLoadDone d otpOk => Sys2Proof.Machine.execFwLoadDone d otpOk s
  | .bootWatchdog d => Sys2Proof.Machine.execBootWatchdog d s
  | .bootOk d src => Sys2Proof.Machine.execBootOk d src s
  | .fail d src code => Sys2Proof.Machine.execFail d src code s
  | .retry d => Sys2Proof.Machine.execRetry d s
  | .selfRestart d => Sys2Proof.Machine.execSelfRestart d s
  | .attReq d => Sys2Proof.Machine.execAttReq d s
  | .attReportDone d burnOk => Sys2Proof.Machine.execAttReportDone d burnOk s
  | .tokenGo d => Sys2Proof.Machine.execTokenGo d s
  | .tokenCheckDone d burnOk challenge => Sys2Proof.Machine.execTokenCheckDone d burnOk challenge s
  | .svnCommit d => Sys2Proof.Machine.execSvnCommit d s
  | .svnBurnDone d burned => Sys2Proof.Machine.execSvnBurnDone d burned s
  | .dbgLock d => Sys2Proof.Machine.execDbgLock d s
  | .secClrCnt d => Sys2Proof.Machine.execSecClrCnt d s
  | .jtagBypass d tdi => Sys2Proof.Machine.execJtagBypass d tdi s
  | .jtagIdcode d => Sys2Proof.Machine.execJtagIdcode d s
  | .jtagSamplePreload d pins tdi => Sys2Proof.Machine.execJtagSamplePreload d pins tdi s
  | .jtagExtest d pins tdi => Sys2Proof.Machine.execJtagExtest d pins tdi s
  | .jtagClamp d tdi => Sys2Proof.Machine.execJtagClamp d tdi s
  | .domReqOn d dom => Sys2Proof.Machine.execDomReqOn d dom s
  | .domReqRet d dom => Sys2Proof.Machine.execDomReqRet d dom s
  | .domReqOff d dom => Sys2Proof.Machine.execDomReqOff d dom s
  | .domRegReady d dom => Sys2Proof.Machine.execDomRegReady d dom s
  | .domWakeTimeout d dom => Sys2Proof.Machine.execDomWakeTimeout d dom s
  | .domWakeRetry d dom => Sys2Proof.Machine.execDomWakeRetry d dom s
  | .domResumeDone d dom => Sys2Proof.Machine.execDomResumeDone d dom s
  | .domainAsleepAccess d dom who addr write => Sys2Proof.Machine.execDomainAsleepAccess d dom who addr write s
  | .wakeOnAccess d a => Sys2Proof.Machine.execWakeOnAccess d a s
  | .woaTimeout d dom => Sys2Proof.Machine.execWoaTimeout d dom s
  | .lpReq d => Sys2Proof.Machine.execLpReq d s
  | .clrLog d => Sys2Proof.Machine.execClrLog d s
  | .pwrClrCnt d => Sys2Proof.Machine.execPwrClrCnt d s
  | .aonBrownOut d => Sys2Proof.Machine.execAonBrownOut d s
  | .pllEn d on => Sys2Proof.Machine.execPllEn d on s
  | .pllLock d => Sys2Proof.Machine.execPllLock d s
  | .pllLockTimeout d => Sys2Proof.Machine.execPllLockTimeout d s
  | .pllRestart d => Sys2Proof.Machine.execPllRestart d s
  | .sel d pll => Sys2Proof.Machine.execSel d pll s
  | .clkLoss d refLost => Sys2Proof.Machine.execClkLoss d refLost s
  | .smbWake d addrByte => Sys2Proof.Machine.execSmbWake d addrByte s
  | .registerWrite d src off v be => Sys2Proof.Machine.execRegisterWrite d src off v be s
  | .bar2Access d src off len data => Sys2Proof.Machine.execBar2Access d src off len data s
  | .cellViewAccess d off data acked => Sys2Proof.Machine.execCellViewAccess d off data acked s
  | .cellViewRelease d acked => Sys2Proof.Machine.execCellViewRelease d acked s
  | .cellViewTimeout d => Sys2Proof.Machine.execCellViewTimeout d s
  | .perstAssert d => Sys2Proof.Machine.execPerstAssert d s
  | .perstRelease d => Sys2Proof.Machine.execPerstRelease d s
  | .functionLevelReset d => Sys2Proof.Machine.execFunctionLevelReset d s
  | .pcieLinkDown d => Sys2Proof.Machine.execPcieLinkDown d s
  | .smbRead d count off n pecOk => Sys2Proof.Machine.execSmbRead d count off n pecOk s
  | .smbWrite d count off data pecOk => Sys2Proof.Machine.execSmbWrite d count off data pecOk s
  | .smbStatus d => Sys2Proof.Machine.execSmbStatus d s
  | .smbIdent d => Sys2Proof.Machine.execSmbIdent d s
  | .smbSclTimeout d => Sys2Proof.Machine.execSmbSclTimeout d s
  | .qspiReadId d => Sys2Proof.Machine.execQspiReadId d s
  | .qspiRead d len => Sys2Proof.Machine.execQspiRead d len s
  | .qspiProgram d len => Sys2Proof.Machine.execQspiProgram d len s
  | .qspiErase4k d => Sys2Proof.Machine.execQspiErase4k d s
  | .qspiErase64k d => Sys2Proof.Machine.execQspiErase64k d s
  | .qspiOpDone d timeout jedec => Sys2Proof.Machine.execQspiOpDone d timeout jedec s
  | .dmaGo d ch srcHost dstHost => Sys2Proof.Machine.execDmaGo d ch srcHost dstHost s
  | .dmaAbort d ch => Sys2Proof.Machine.execDmaAbort d ch s
  | .dmaDone d ch hostData stopAt => Sys2Proof.Machine.execDmaDone d ch hostData stopAt s
  | .monitorSample d temp volt margin => Sys2Proof.Machine.execMonitorSample d temp volt margin s
  | .supplyFault d => Sys2Proof.Machine.execSupplyFault d s
  | .avsStep d iCore => Sys2Proof.Machine.execAvsStep d iCore s
  | .avsCeiling d => Sys2Proof.Machine.execAvsCeiling d s
  | .powerCapStep d => Sys2Proof.Machine.execPowerCapStep d s
  | .pop d => Sys2Proof.Machine.execPop d s
  | .clrFirst d => Sys2Proof.Machine.execClrFirst d s
  | .fogClr d => Sys2Proof.Machine.execFogClr d s
  | .errClrCnt d => Sys2Proof.Machine.execErrClrCnt d s
  | .errSwRec d src hi => Sys2Proof.Machine.execErrSwRec d src hi s
  | .safeInSample d k a b n => Sys2Proof.Machine.execSafeInSample d k a b n s
  | .safeDiscTimeout d k => Sys2Proof.Machine.execSafeDiscTimeout d k s
  | .safeAck d mask => Sys2Proof.Machine.execSafeAck d mask s
  | .safeOutMismatch d a b => Sys2Proof.Machine.execSafeOutMismatch d a b s
  | .supplyDetectorFall d det => Sys2Proof.Machine.execSupplyDetectorFall d det s
  | .pwmValley d a => Sys2Proof.Machine.execPwmValley d a s
  | .stepPulseEnd d a => Sys2Proof.Machine.execStepPulseEnd d a s
  | .beaconReadback d l ok => Sys2Proof.Machine.execBeaconReadback d l ok s
  | .handoverLiveStop d => Sys2Proof.Machine.execHandoverLiveStop d s
  | .d2dLinkDown => Sys2Proof.Machine.execD2dLinkDown s
  | .d2dLinkUp => Sys2Proof.Machine.execD2dLinkUp s
  | .supplyDetectorRise d det => Sys2Proof.Machine.execSupplyDetectorRise d det s
  | .unitResetComplete d kind idx => Sys2Proof.Machine.execUnitResetComplete d kind idx s

end Sys2Proof.Machine
end

