-- ==== Sys2Proof/WellFormed.lean ====
section
/-! DEFINITION. Which commands can occur: operands that the interfaces and the encodings of the manual
can give. The meanings are total all the same. -/

namespace Sys2Proof

open Machine

/-- A Mirrad frame has at most 524 characters between SOF and EOF (R354, R366). -/
def frameLen (groups : List (BitVec 10)) : Bool := decide (groups.length ≤ 526)

/-- The operands of a command can occur. -/
def Instr.wf : Instr → Bool
  | .nodeAnnounceRx _ _ src _ => decide (src.length = 6)
  | .pmod _ _ mem => (EngOp.pmod mem).valid
  | .qmac _ _ z xa mem => (EngOp.qmac false z xa mem).valid
  | .qmsu _ _ z xa mem => (EngOp.qmac true z xa mem).valid
  | .dmac _ _ z hi pair mem => (EngOp.dmac false z hi pair mem).valid
  | .dmsu _ _ z hi pair mem => (EngOp.dmac true z hi pair mem).valid
  | .nst _ _ acc sh mem => (EngOp.nst acc sh mem).valid
  | .mfs _ _ xd sreg => (EngOp.mfs xd sreg).valid
  | .mts _ _ sreg xa => (EngOp.mts sreg xa).valid
  | .branch _ _ cond target => (EngOp.branch cond target).valid
  | .replyRx _ _ _ groups => frameLen groups
  | .acycReplyRx _ _ _ groups => frameLen groups
  | .frameRxInvalid _ _ groups => frameLen groups
  | .beaconRx _ _ _ groups => frameLen groups && decide (14 ≤ groups.length)
  | .startupRx _ _ groups => frameLen groups && decide (14 ≤ groups.length)
  | .pollRx _ _ groups => frameLen groups && decide (14 ≤ groups.length)
  | .retpollRx _ _ groups => frameLen groups && decide (14 ≤ groups.length)
  | .acycRx _ _ groups => frameLen groups && decide (14 ≤ groups.length)
  | .idleRx _ _ groups => frameLen groups && decide (14 ≤ groups.length)
  | .canFrameRx _ _ f _ => decide (f.data.length ≤ 64)
  | .ethFrameRx _ _ frame _ _ => decide (14 ≤ frame.length)
  | .ptpEventTx _ _ frame ofs _ _ => decide (ofs ≤ frame.length) && decide (frame.length ≤ 1518)
  | .selftestDone _ kind idx _ => decide (unitSlot kind idx < 1189)
  | .dataPathSilent _ kind idx => decide (unitSlot kind idx < 1189)
  | .holderSilent _ ticks => decide (ticks.length ≤ 16)
  | .registerWrite _ _ off _ _ => decide (off.toNat % 4 = 0)
  | .bar2Access _ _ _ len data => decide (0 < len) && (match data with | some l => decide (l.length = len) | none => true)
  | .cellViewAccess _ off _ _ => decide (off.toNat % 4 = 0)
  | .smbRead _ count _ n _ => decide (count < 256) && decide (n < 256)
  | .smbWrite _ count _ data _ => decide (count < 256) && decide (data.length < 256)
  | .dmaDone _ _ hostData _ => decide (hostData.length ≤ 16777216)
  | .unitResetComplete _ kind idx => decide (unitSlot kind idx < 1189)
  | .cellCycleStart .. | .armSolve .. | .specSolveStart .. | .solveStart .. | .solveEnd ..
  | .solveDeadline .. | .verifyCheck .. | .solveSquash .. | .planPublish .. | .hostReq .. | .resume ..
  | .hostCommit .. | .phaseSEnd .. | .phaseREnd .. | .sepOverrun .. | .sepHostScaleWrite .. | .sepClear ..
  | .sensorFrame .. | .sensorStale .. | .sensorKeyLoad .. | .putqStallEnd .. | .lookoutWaitEnd ..
  | .queueSquash .. | .queueClrCnt .. | .queueCapWrite .. | .fOutLatch .. | .restart .. | .pathStop ..
  | .quickStop .. | .offStop .. | .pgGo .. | .pgMoveDone .. | .modeReq .. | .handoverCheck ..
  | .blendEnd .. | .forceContact .. | .plausFault .. | .fbLost .. | .fbLostOffStop .. | .jointAtRest ..
  | .qstopTimeout .. | .hostPathStopEnd .. | .seqTick .. | .axMoveDone .. | .axBrakeDone ..
  | .bridgeFault .. | .pwmPeak .. | .driveSetLatch .. | .ampHoldDelayEnd .. | .axGo .. | .axPathStop ..
  | .axQuickStop .. | .axOffStop .. | .axRestart .. | .homeGo .. | .homeStep .. | .axClrFault ..
  | .axPosSet .. | .axCmpArm .. | .cmpPulseEnd .. | .axInputChange .. | .chatterDetect ..
  | .encCountEdge .. | .encIndex .. | .encSampleStrobe .. | .ssiFrameStart .. | .ssiFrameEnd ..
  | .listenFrame .. | .listenTimeout .. | .emuStep .. | .encClrFault .. | .encClrCnt .. | .encCntSet ..
  | .add .. | .sub .. | .and .. | .or .. | .xor .. | .cmp .. | .min .. | .max .. | .abs .. | .neg ..
  | .ld .. | .st .. | .mov ..
  | .sll .. | .sra .. | .srl .. | .slli .. | .srai .. | .srli .. | .expx .. | .norm .. | .addi ..
  | .andi .. | .ori .. | .xori .. | .cmpi .. | .movi .. | .movh .. | .muln .. | .mac .. | .msu ..
  | .clra .. | .mova .. | .movna .. | .adda .. | .suba .. | .shra .. | .shla .. | .cpya .. | .expxAcc ..
  | .normAcc .. | .nrw .. | .amov .. | .call .. | .ret .. | .loop .. | .loopi .. | .waitq ..
  | .waitqResume .. | .getq .. | .putq .. | .time .. | .cairn .. | .sig .. | .endRun .. | .nop ..
  | .engineOverrun .. | .engClrCnt .. | .spareLoadDone .. | .beaconSend .. | .pollSend .. | .retpollSend ..
  | .acycSend .. | .idleSend .. | .replyMissed .. | .beaconMissing .. | .sofDetected ..
  | .silenceTimeout .. | .startupReadback .. | .clashBackoffEnd .. | .backupSilence .. | .backupTakeover ..
  | .mbRestart .. | .mbHostReq .. | .mbClrCnt .. | .acycGo .. | .canTxDone .. | .canArbLost ..
  | .canBusError .. | .canBusoffRecovery .. | .canIntegrated .. | .canProtocolExc .. | .canRefMissed ..
  | .txReq .. | .txAbort .. | .canRxPop .. | .canInit .. | .canRom .. | .canMon .. | .canDirect ..
  | .refRestart .. | .timeCorrWrite .. | .timeRateWrite .. | .grantStep .. | .timeClrCnt ..
  | .timeNsRead .. | .timeEpochTagWrite .. | .timeWrap .. | .epochStale .. | .trigCmpWrite ..
  | .triggerFire .. | .triggerPulseEnd .. | .captureEdge .. | .captPop .. | .ptpEventRx .. | .ethTsPop ..
  | .ethLinkDown .. | .ethLinkUp .. | .enable .. | .drain .. | .test .. | .recover .. | .quarantine ..
  | .release .. | .bistSlotStart .. | .blockTestStep .. | .grantReq .. | .hostConfirm .. | .handover ..
  | .restartPeer .. | .redClrCnt .. | .redConfirm .. | .heartbeatRx .. | .handoverTokenRx ..
  | .takeoverCheckPoint .. | .enoffAssert .. | .waitoffTimeout .. | .gateClose .. | .safeOutHoldExpiry ..
  | .cairnStreamRx .. | .planStreamRx .. | .forwardStateRx .. | .peerRecordRx .. | .load ..
  | .imgPass1Done .. | .imgPass2Done .. | .apply .. | .imgApplyBoundary .. | .abort .. | .imgClrCnt ..
  | .stagedUpdateRx .. | .imgPushLen .. | .pushTimeout .. | .porAssert .. | .porRelease .. | .wrstAssert ..
  | .wrstRelease .. | .fwLoadDone .. | .bootWatchdog .. | .bootOk .. | .fail .. | .retry ..
  | .selfRestart .. | .attReq .. | .attReportDone .. | .tokenGo .. | .tokenCheckDone .. | .svnCommit ..
  | .svnBurnDone .. | .dbgLock .. | .secClrCnt .. | .jtagBypass .. | .jtagIdcode .. | .jtagSamplePreload ..
  | .jtagExtest .. | .jtagClamp .. | .domReqOn .. | .domReqRet .. | .domReqOff .. | .domRegReady ..
  | .domWakeTimeout .. | .domWakeRetry .. | .domResumeDone .. | .domainAsleepAccess .. | .wakeOnAccess ..
  | .woaTimeout .. | .lpReq .. | .clrLog .. | .pwrClrCnt .. | .aonBrownOut .. | .pllEn .. | .pllLock ..
  | .pllLockTimeout .. | .pllRestart .. | .sel .. | .clkLoss .. | .smbWake .. | .cellViewRelease ..
  | .cellViewTimeout .. | .perstAssert .. | .perstRelease .. | .functionLevelReset .. | .pcieLinkDown ..
  | .smbStatus .. | .smbIdent .. | .smbSclTimeout .. | .qspiReadId .. | .qspiRead .. | .qspiProgram ..
  | .qspiErase4k .. | .qspiErase64k .. | .qspiOpDone .. | .dmaGo .. | .dmaAbort .. | .monitorSample ..
  | .supplyFault .. | .avsStep .. | .avsCeiling .. | .powerCapStep .. | .pop .. | .clrFirst .. | .fogClr ..
  | .errClrCnt .. | .errSwRec .. | .safeInSample .. | .safeDiscTimeout .. | .safeAck ..
  | .safeOutMismatch .. | .supplyDetectorFall .. | .pwmValley .. | .stepPulseEnd .. | .beaconReadback ..
  | .handoverLiveStop .. | .d2dLinkDown .. | .d2dLinkUp .. | .supplyDetectorRise .. => true

end Sys2Proof
end

