-- ==== Sys2Proof/Safety.lean ====
section
/-! DEFINITION. What a safe state of the package is, and the terms in which statements speak of steps:
where a command's registers can be reached, what a step answers, and what it leaves unchanged. -/

namespace Sys2Proof.Machine

/-- The gate of a die is open while it asserts its grant line and LIVE toggles, unless it has latched, and closed
without the grant line (R473). -/
def Die.gateOk (d : Die) : Bool :=
  (!(d.red.grant && d.red.live && !d.red.latched) || d.red.gateOpen) && (d.red.grant || !d.red.gateOpen)

/-- Both gates stand as their dies let them, and neither is open while VDD_1V8 is low (R638). -/
def State.gatesOk (s : State) : Bool :=
  if s.vdd18Low then !s.a.red.gateOpen && !s.b.red.gateOpen else s.a.gateOk && s.b.gateOk

/-- The safe outputs show what the die whose gate is open permits (R476, R606). -/
def State.safeOk (s : State) : Bool :=
  decide (s.pkg.safeA = s.safeLevel s.pkg.safeA) && decide (s.pkg.safeB = s.safeLevel s.pkg.safeB)

/-- No update waits in APPLYING while a takeover is in progress (R510). -/
def State.applyOk (s : State) : Bool :=
  !(s.a.inTakeover || s.b.inTakeover) || (decide (s.a.img.state ≠ .applying) && decide (s.b.img.state ≠ .applying))

/-- Gates, safe outputs and staged updates stand as every step leaves them. -/
def State.settled (s : State) : Bool := s.gatesOk && s.safeOk && s.applyOk

/-- Both copies of the safe output carry one level (R606). -/
def State.safePair (s : State) : Bool := decide (s.pkg.safeA = s.pkg.safeB)

/-- At most one die asserts its grant line (R24). -/
def State.oneGrant (s : State) : Bool := !(s.a.red.grant && s.b.red.grant)

/-- A command on a register of domain `i` reaches the die: it is not held in reset and the domain is ON
(R488, R552). -/
def Die.reached (i : Nat) (d : Die) : Bool := decide (d.boot.phase ≠ .reset) && d.awake i

/-- The command answers a next state, and `P` holds of it. -/
def Answers (i : Instr) (s : State) (P : State → Prop) : Prop := ∃ t, exec i s = .next t ∧ P t

/-- The die shown by `s` for statements about one die: what a step adds by itself is set aside, that is the
pending bits and messages of its endpoint, its gate, and the end of an update that meets a takeover. -/
def Die.core (d : Die) : Die :=
  { d with host := { d.host with pba := 0, pba1 := 0 }, out := [],
           img := { d.img with state := .empty, result := 0, done := false, pushReady := false, buf := [], pass2 := false },
           red := { d.red with gateOpen := false } }

/-- The commands that act on one die: which one; none for a command or event of the package, or one whose
effect reaches the other die too. -/
def State.only (id : DieId) (s t : State) : Prop :=
  (t.die id.peer).core = (s.die id.peer).core ∧ t.pending = s.pending

/-- An engine is about to carry out an instruction: its unit is ACTIVE or DRAINING, a run is in progress and
does not wait (R296, R311, R459), the operands are no reserved combination and the instruction word reads
without an uncorrectable error (R323, R327). -/
def Die.issues (d : Die) (e : Fin 80) (op : EngOp) : Bool :=
  d.engRuns e && decide ((d.engine e).wait = .none) && op.valid &&
    !inEccWord d.eccBad (progBase e + 4 * (d.engine e).pc.toNat)

/-! Loop engines -/

/-- An exact result lies in a signed field of `w` bits. -/
def inField (w : Nat) (r : Int) : Bool := decide (-(2 ^ (w - 1) : Int) ≤ r) && decide (r < 2 ^ (w - 1))

/-- The field's value for an exact result: the result if it fits, the nearest end of the range with
EMODE.SAT, the low bits without (R330). -/
def EngRegs.fitted (w : Nat) (r : Int) (g : EngRegs) : BitVec w :=
  if inField w r then BitVec.ofInt w r
  else if g.sat then (if r < 0 then BitVec.intMin w else BitVec.intMax w) else BitVec.ofInt w r

/-- Z and N of a result (R300). -/
def Flg.zn {w : Nat} (v : BitVec w) (f : Flg) : Flg := { f with z := decide (v = 0), n := v.msb }

/-- V of an exact result, and S with saturation (R300). -/
def EngRegs.vs (w : Nat) (r : Int) (g : EngRegs) : Flg :=
  { g.flg with v := !inField w r, s := g.flg.s || (!inField w r && g.sat) }

/-- Register `xd` takes a word, with Z and N. -/
def EngRegs.withZN (xd : Fin 16) (v : W32) (g : EngRegs) : EngRegs := { g with x := vset g.x xd v, flg := g.flg.zn v }

/-- Register `xd` takes an exact result fitted to 32 bits, with Z, N, V and S. -/
def EngRegs.withFit (xd : Fin 16) (r : Int) (g : EngRegs) : EngRegs :=
  { g with x := vset g.x xd (g.fitted 32 r), flg := (g.vs 32 r).zn (g.fitted 32 r) }

/-- Accumulator `a` takes an exact result fitted to 72 bits, with V and S, and with Z and N if `zn`. -/
def EngRegs.withAcc (zn : Bool) (a : Fin 4) (r : Int) (g : EngRegs) : EngRegs :=
  { g with acc := vset g.acc a (g.fitted 72 r),
           flg := if zn then (g.vs 72 r).zn (g.fitted 72 r) else g.vs 72 r }

/-- The flag C. -/
def EngRegs.withC (c : Bool) (g : EngRegs) : EngRegs := { g with flg := { g.flg with c := c } }

/-- No hardware loop is active. -/
def Engine.noLoop (g : Engine) : Bool := g.loop0.isNone && g.loop1.isNone

/-- A die but for its engines, its error log and its SRAM. -/
def Die.exceptEng (d : Die) : Die := { d.core with eng := Vector.replicate 80 {}, err := {}, sram := ⟨[]⟩ }

/-- An engine but for its registers, control, ports, snapshot, hazards and counters. -/
def Engine.rest (g : Engine) : Engine :=
  { g with regs := {}, pc := 0, loop0 := none, loop1 := none, stack := [], ports := Vector.replicate 16 {},
           wait := .none, snapshot := none, hz := {}, cnt := Vector.replicate 6 0, eccRec := none }

/-- The return stack, the ports and the snapshot of the run are as before, and the engine does not wait. -/
def Engine.still (g g' : Engine) : Prop :=
  g'.stack = g.stack ∧ g'.ports = g.ports ∧ g'.snapshot = g.snapshot ∧ g'.wait = .none

/-- An instruction of engine `e` of a die leaves every other engine, every other unit of the die, and of
engine `e` what is no register, control state or counter; the error log only takes a record of a correctable
error of the instruction word or of the words it reads (R321, R326). -/
def Die.engFrame (e : Fin 80) (d d' : Die) : Prop :=
  d'.exceptEng = d.exceptEng ∧ (∀ k, k ≠ e → d'.engine k = d.engine k) ∧
    (d'.engine e).rest = (d.engine e).rest ∧ (d.eccSoft = [] → d'.err = d.err)

/-- Engine `e` goes on to the next index where no loop is active (R317). -/
def Die.goesOn (e : Fin 80) (d d' : Die) : Prop :=
  (d.engine e).noLoop = true → (d'.engine e).pc = (d.engine e).pc + 1 ∧ (d'.engine e).noLoop = true

/-- Engine `e` has the registers `g` after an instruction, but that the end of a loop counts LC, and goes on. -/
def Die.regsBecome (e : Fin 80) (g : EngRegs) (d d' : Die) : Prop :=
  Die.goesOn e d d' ∧ (d'.engine e).regs = { g with lc := (d'.engine e).regs.lc } ∧
    ((d.engine e).noLoop = true → (d'.engine e).regs = g)

/-- The same for an instruction that touches no port, stack or snapshot. -/
def Die.takesRegs (e : Fin 80) (g : EngRegs) (d d' : Die) : Prop :=
  Engine.still (d.engine e) (d'.engine e) ∧ Die.regsBecome e g d d'

/-- The command of an instruction, where `hyp` holds of the die: `post` relates the die before and after,
and nothing else of the machine changes. -/
def EngStep (i : Instr) (d : DieId) (e : Fin 80) (op : EngOp) (hyp : Die → Prop) (post : Die → Die → Prop) : Prop :=
  ∀ s : State, (s.die d).issues e op = true → hyp (s.die d) → Answers i s fun t =>
    State.only d s t ∧ Die.engFrame e (s.die d) (t.die d) ∧ post (s.die d) (t.die d)

/-- The command of an instruction on registers: they become `res` of the engine, and memory stays. -/
def EngResultOf (i : Instr) (d : DieId) (e : Fin 80) (op : EngOp) (res : Engine → EngRegs) : Prop :=
  EngStep i d e op (fun _ => True) fun u v => v.sram = u.sram ∧ Die.takesRegs e (res (u.engine e)) u v

/-- The same for an instruction that sees registers alone. -/
def EngResult (i : Instr) (d : DieId) (e : Fin 80) (op : EngOp) (res : EngRegs → EngRegs) : Prop :=
  EngResultOf i d e op fun g => res g.regs

/-- The narrowing of R305 before its last step: toward minus infinity, or convergent. -/
def narrowed (trunc : Bool) (a : Int) (s : Nat) : Int :=
  let r := a / 2 ^ s
  let rem := a % 2 ^ s
  if !trunc && decide (0 < s) && (decide (2 ^ (s - 1) < rem) || (decide (rem = 2 ^ (s - 1)) && decide (r % 2 = 1))) then r + 1
  else r

/-- Truncation is in force in an engine that runs instructions (R305, R306). -/
def Engine.truncates (g : Engine) : Bool := g.regs.rnd || g.replay

/-- The registers after an access through a memory operand: CRV, and the pointer as R307 modifies it. -/
def EngRegs.used (m : MemOp) (g : EngRegs) : EngRegs :=
  { g with p := match g.postOfs m with
             | none => g.p
             | some o => vset g.p m.pk (postmod (vget g.p m.pk) (vget g.b m.pk) (vget g.l m.pk) o),
           flg := { g.flg with crv := g.flg.crv || g.outside m.pk } }

/-- Where a data access of engine `e` lies in BAR2 (R294, R568). -/
def Engine.cell (g : Engine) (e : Fin 80) (m : MemOp) : Nat := dataBase e + (g.regs.address m).toNat

/-- The access of a memory operand is legal and its word reads without an uncorrectable error (R294, R323). -/
def Die.readable (d : Die) (e : Fin 80) (m : MemOp) : Prop :=
  addrOk ((d.engine e).regs.address m) = true ∧ inEccWord d.eccBad ((d.engine e).cell e m) = false

/-- Four bytes from `a` on take a word, the least significant one first (R6), and every other byte is kept. -/
def Die.storesWord (a : Nat) (v : W32) (d d' : Die) : Prop :=
  (∀ b, b < a ∨ a + 4 ≤ b → d'.sram.get 0 b = d.sram.get 0 b) ∧
    (d.sram.wf 0 = true → d'.sram.wf 0 = true ∧ ∀ i, i < 4 → d'.sram.get 0 (a + i) = BitVec.ofNat 8 (v.toNat / 256 ^ i))

/-- Every byte of SRAM outside the `n` bytes from `a` on is kept, and memory keeps its form. -/
def Die.storesIn (a n : Nat) (d d' : Die) : Prop :=
  (∀ b, b < a ∨ a + n ≤ b → d'.sram.get 0 b = d.sram.get 0 b) ∧ (d.sram.wf 0 = true → d'.sram.wf 0 = true)

/-- The four words of a bus access are legal and read without an uncorrectable error (R303, R335). -/
def Die.busReadable (d : Die) (e : Fin 80) (m : MemOp) : Prop :=
  ∀ a ∈ (d.engine e).regs.busAddrs m, addrOk a = true ∧ inEccWord d.eccBad (dataBase e + a.toNat) = false

/-- Word `i` of a bus access, signed (R303). -/
def Die.busWord (d : Die) (e : Fin 80) (m : MemOp) (i : Nat) : Int :=
  match ((d.engine e).regs.busAddrs m)[i]? with
  | some a => (d.sram.word (dataBase e + a.toNat)).toInt
  | none => 0

/-- Accumulators take exact sums fitted to 72 bits: V and S if any of them does not fit (R335). -/
def EngRegs.accSums (l : List (Fin 4 × Int)) (g : EngRegs) : EngRegs :=
  { g with acc := l.foldl (fun v p => vset v p.1 (g.fitted 72 p.2)) g.acc,
           flg := { g.flg with v := l.any (fun p => !inField 72 p.2),
                               s := g.flg.s || (l.any (fun p => !inField 72 p.2) && g.sat) } }

/-- An accumulator, or 0 with the suffix .Z, plus or minus a sum of products (R302). -/
def EngRegs.plus (z neg : Bool) (a : Fin 4) (v : Int) (g : EngRegs) : Int :=
  (if z then 0 else (g.ga a).toInt) + if neg then -v else v

/-- A taken branch: control goes to `t`, and every loop whose body does not hold `t` has ended (R317). -/
def Die.branches (e : Fin 80) (t : BitVec 12) (d d' : Die) : Prop :=
  d'.sram = d.sram ∧ (d'.engine e).pc = t ∧
    (d'.engine e).loop0 = ((d.engine e).loop0.filter fun r => r.first.toNat ≤ t.toNat && t.toNat ≤ r.last.toNat) ∧
    (d'.engine e).loop1 = ((d.engine e).loop1.filter fun r => r.first.toNat ≤ t.toNat && t.toNat ≤ r.last.toNat)

/-- The condition codes of R340, 0 to 14, on the flags. -/
def Flg.conds (f : Flg) : List Bool :=
  [true, f.z, !f.z, f.n, !f.n, f.v, !f.v, f.c, !f.c, f.n == f.v, f.n != f.v, !f.z && f.n == f.v, f.z || f.n != f.v, f.q, !f.q]

/-- A die but for its engines, its error log and the queues it holds. -/
def Die.exceptQueue (d : Die) : Die := { d.core with eng := Vector.replicate 80 {}, err := {}, qrc := {} }

/-- An engine but for registers, control, hazards, counters, the tick of a stall and port `qp`. -/
def Engine.portRest (qp : Fin 16) (g : Engine) : Engine :=
  { g with regs := {}, pc := 0, loop0 := none, loop1 := none, wait := .none, hz := {}, cnt := Vector.replicate 6 0,
           eccRec := none, stallAt := 0, ports := vset g.ports qp {} }

/-- An instruction on port `qp` of engine `e`, bound to queue `q`, leaves every other engine, port and queue,
the rest of the engine, and every other unit of the die. -/
def Die.portFrame (e : Fin 80) (qp : Fin 16) (q : Nat) (d d' : Die) : Prop :=
  d'.exceptQueue = d.exceptQueue ∧ (∀ k, k ≠ e → d'.engine k = d.engine k) ∧
    (d'.engine e).portRest qp = (d.engine e).portRest qp ∧ (∀ k : Fin 1024, k.val ≠ q → d'.queue k = d.queue k)

/-- A command that acts on die `d` from the state `u`, which is the state found or that state with the clocks run
on: `post` relates the die before and after, and the other die and the queue stay. -/
def Acts (i : Instr) (d : DieId) (s u : State) (post : Die → Die → Prop) : Prop :=
  Answers i s fun t => State.only d u t ∧ post (u.die d) (t.die d)

/-- The host interface after a management access that is carried out, and after one that is refused with
STATE_CONFLICT (R32): nothing of it changes but how the access ended. -/
def Die.okHost (d : Die) : HostIf := { d.core.host with access := .ok }
def Die.refusedHost (d : Die) : HostIf := { d.core.host with access := .stateConflict }

/-- A management command on a register of domain `dom` of die `d`, where it reaches the die and the domain is ON. -/
def OnReg (i : Instr) (d : DieId) (dom : Nat) (s : State) (post : Die → Die → Prop) : Prop :=
  (s.die d).reached dom = true → Acts i d s s post

/-- Every unit, table and queue of a die, and its SRAM, stand as after a reset of the die `u`; the sensors' keys and
sequence numbers outlast every reset but a cold one (R8, R139, R143, R434, R641). -/
def Die.blank (cold : Bool) (u d : Die) : Prop :=
  let z : Die := { id := d.id }
  d.eng = z.eng ∧ d.qrc = z.qrc ∧ d.joints = z.joints ∧ d.regions = z.regions ∧ d.axes = z.axes ∧
    d.sep = (if cold then {} else { sensors := vmap u.sep.sensors fun _ x =>
      { lastSeq := x.lastSeq, seqSeen := x.seqSeen, keyWords := x.keyWords, key := x.key } }) ∧
    d.encs = z.encs ∧ d.lanes = z.lanes ∧ d.cans = z.cans ∧ d.trig = z.trig ∧ d.capt = z.capt ∧ d.eth = z.eth ∧
    d.core.red = z.core.red ∧ d.core.img = z.core.img ∧ d.sram = z.sram

end Sys2Proof.Machine
end

