-- ==== Sys2Proof/Certificates/Slice0/Obligations.lean ====
section
/-! DEFINITION. What is to be proved of the model: the obligations of this block. Rules are those of the spec;
where a clause rests on a choice of the model, the docstring names the entry of the assumption log. -/

open Sys2Proof Sys2Proof.Machine

/-- Register instructions of the ALU group give their results and flags (R299, R300, R330, R331). -/
def Obligations.EngineAluRegister : Prop :=
  ∀ (d : DieId) (e : Fin 80) (xd xa xb : Fin 16),
    EngResult (.add d e xd xa xb) d e (.add xd xa xb) (fun g =>
      (g.withFit xd ((g.gx xa).toInt + (g.gx xb).toInt)).withC (decide (2 ^ 32 ≤ (g.gx xa).toNat + (g.gx xb).toNat))) ∧
    EngResult (.sub d e xd xa xb) d e (.sub xd xa xb) (fun g =>
      (g.withFit xd ((g.gx xa).toInt - (g.gx xb).toInt)).withC (decide ((g.gx xb).toNat ≤ (g.gx xa).toNat))) ∧
    EngResult (.and d e xd xa xb) d e (.and xd xa xb) (fun g => g.withZN xd (g.gx xa &&& g.gx xb)) ∧
    EngResult (.or d e xd xa xb) d e (.or xd xa xb) (fun g => g.withZN xd (g.gx xa ||| g.gx xb)) ∧
    EngResult (.xor d e xd xa xb) d e (.xor xd xa xb) (fun g => g.withZN xd (g.gx xa ^^^ g.gx xb)) ∧
    EngResult (.cmp d e xa xb) d e (.cmp xa xb) (fun g =>
      { g with flg := { g.flg.zn (g.gx xa - g.gx xb) with v := !inField 32 ((g.gx xa).toInt - (g.gx xb).toInt),
                                                          c := decide ((g.gx xb).toNat ≤ (g.gx xa).toNat) } }) ∧
    EngResult (.min d e xd xa xb) d e (.min xd xa xb) (fun g =>
      g.withZN xd (if (g.gx xa).toInt ≤ (g.gx xb).toInt then g.gx xa else g.gx xb)) ∧
    EngResult (.max d e xd xa xb) d e (.max xd xa xb) (fun g =>
      g.withZN xd (if (g.gx xa).toInt ≤ (g.gx xb).toInt then g.gx xb else g.gx xa)) ∧
    EngResult (.abs d e xd xa) d e (.abs xd xa) (fun g => g.withFit xd (g.gx xa).toInt.natAbs) ∧
    EngResult (.neg d e xd xa) d e (.neg xd xa) (fun g => g.withFit xd (-(g.gx xa).toInt)) ∧
    EngResult (.mov d e xd xa) d e (.mov xd xa) (fun g => g.withZN xd (g.gx xa))

/-- Shifts, EXPX, NORM and the immediate instructions give their results and flags (R300, R304, R330, R331, R332). -/
def Obligations.EngineShiftImmediate : Prop :=
  ∀ (d : DieId) (e : Fin 80) (xd xa xb xc : Fin 16) (sh : BitVec 6) (imm : BitVec 18) (imm22 : BitVec 22)
    (imm16 : BitVec 16),
    EngResult (.sll d e xd xa xb) d e (.sll xd xa xb) (fun g =>
      g.withFit xd ((g.gx xa).toInt * 2 ^ ((g.gx xb).toNat % 64))) ∧
    EngResult (.sra d e xd xa xb) d e (.sra xd xa xb) (fun g =>
      g.withZN xd (BitVec.ofInt 32 ((g.gx xa).toInt / 2 ^ ((g.gx xb).toNat % 64)))) ∧
    EngResult (.srl d e xd xa xb) d e (.srl xd xa xb) (fun g =>
      g.withZN xd (BitVec.ofNat 32 ((g.gx xa).toNat / 2 ^ ((g.gx xb).toNat % 64)))) ∧
    EngResult (.slli d e xd xa sh) d e (.slli xd xa sh) (fun g => g.withFit xd ((g.gx xa).toInt * 2 ^ sh.toNat)) ∧
    EngResult (.srai d e xd xa sh) d e (.srai xd xa sh) (fun g =>
      g.withZN xd (BitVec.ofInt 32 ((g.gx xa).toInt / 2 ^ sh.toNat))) ∧
    EngResult (.srli d e xd xa sh) d e (.srli xd xa sh) (fun g =>
      g.withZN xd (BitVec.ofNat 32 ((g.gx xa).toNat / 2 ^ sh.toNat))) ∧
    EngResult (.expx d e xd xa) d e (.expx xd xa) (fun g => { g with x := vset g.x xd (BitVec.ofNat 32 (rsb (g.gx xa))) }) ∧
    EngResult (.norm d e xd xc xa) d e (.norm xd xc xa) (fun g =>
      { g with x := vset (vset g.x xd (g.gx xa <<< rsb (g.gx xa))) xc (BitVec.ofNat 32 (rsb (g.gx xa))),
               flg := g.flg.zn (g.gx xa <<< rsb (g.gx xa)) }) ∧
    EngResult (.addi d e xd xa imm) d e (.addi xd xa imm) (fun g =>
      (g.withFit xd ((g.gx xa).toInt + imm.toInt)).withC
        (decide (2 ^ 32 ≤ (g.gx xa).toNat + (imm.signExtend 32).toNat))) ∧
    EngResult (.andi d e xd xa imm) d e (.andi xd xa imm) (fun g => g.withZN xd (g.gx xa &&& imm.setWidth 32)) ∧
    EngResult (.ori d e xd xa imm) d e (.ori xd xa imm) (fun g => g.withZN xd (g.gx xa ||| imm.setWidth 32)) ∧
    EngResult (.xori d e xd xa imm) d e (.xori xd xa imm) (fun g => g.withZN xd (g.gx xa ^^^ imm.setWidth 32)) ∧
    EngResult (.cmpi d e xa imm) d e (.cmpi xa imm) (fun g =>
      { g with flg := { g.flg.zn (g.gx xa - imm.signExtend 32) with
                          v := !inField 32 ((g.gx xa).toInt - imm.toInt),
                          c := decide ((imm.signExtend 32).toNat ≤ (g.gx xa).toNat) } }) ∧
    EngResult (.movi d e xd imm22) d e (.movi xd imm22) (fun g => { g with x := vset g.x xd (BitVec.ofInt 32 imm22.toInt) }) ∧
    EngResult (.movh d e xd imm16) d e (.movh xd imm16) (fun g =>
      { g with x := vset g.x xd (BitVec.ofNat 32 (imm16.toNat * 65536 + (g.gx xd).toNat % 65536)) })

/-- MULN, MAC, MSU and the accumulator group give their results and flags (R334). -/
def Obligations.EngineAccumulate : Prop :=
  ∀ (d : DieId) (e : Fin 80) (xd xa xb : Fin 16) (acc accs : Fin 4) (z : Bool) (sh : BitVec 6),
    EngResultOf (.muln d e xd xa xb sh) d e (.muln xd xa xb sh) (fun g =>
      g.regs.withFit xd (narrowed g.truncates ((g.regs.gx xa).toInt * (g.regs.gx xb).toInt) sh.toNat)) ∧
    EngResult (.mac d e z acc xa xb) d e (.mac false z acc xa xb) (fun g =>
      g.withAcc true acc (g.plus z false acc ((g.gx xa).toInt * (g.gx xb).toInt))) ∧
    EngResult (.msu d e z acc xa xb) d e (.mac true z acc xa xb) (fun g =>
      g.withAcc true acc (g.plus z true acc ((g.gx xa).toInt * (g.gx xb).toInt))) ∧
    EngResult (.clra d e acc) d e (.clra acc) (fun g => { g with acc := vset g.acc acc 0 }) ∧
    EngResult (.mova d e acc xa sh) d e (.mova false acc xa sh) (fun g =>
      g.withAcc false acc ((g.gx xa).toInt * 2 ^ sh.toNat)) ∧
    EngResult (.movna d e acc xa sh) d e (.mova true acc xa sh) (fun g =>
      g.withAcc false acc (-((g.gx xa).toInt * 2 ^ sh.toNat))) ∧
    EngResult (.adda d e acc accs) d e (.adda false acc accs) (fun g =>
      g.withAcc true acc ((g.ga acc).toInt + (g.ga accs).toInt)) ∧
    EngResult (.suba d e acc accs) d e (.adda true acc accs) (fun g =>
      g.withAcc true acc ((g.ga acc).toInt - (g.ga accs).toInt)) ∧
    EngResult (.shra d e acc sh) d e (.shra acc sh) (fun g =>
      { g with acc := vset g.acc acc (BitVec.ofInt 72 ((g.ga acc).toInt / 2 ^ sh.toNat)),
               flg := g.flg.zn (BitVec.ofInt 72 ((g.ga acc).toInt / 2 ^ sh.toNat)) }) ∧
    EngResult (.shla d e acc sh) d e (.shla acc sh) (fun g => g.withAcc true acc ((g.ga acc).toInt * 2 ^ sh.toNat)) ∧
    EngResult (.cpya d e acc accs) d e (.cpya acc accs) (fun g => { g with acc := vset g.acc acc (g.ga accs) }) ∧
    EngResult (.expxAcc d e xd acc) d e (.expxAcc xd acc) (fun g =>
      { g with x := vset g.x xd (BitVec.ofNat 32 (rsb (g.ga acc))) }) ∧
    EngResult (.normAcc d e acc xd) d e (.normAcc acc xd) (fun g =>
      { g with acc := vset g.acc acc (g.ga acc <<< rsb (g.ga acc)), x := vset g.x xd (BitVec.ofNat 32 (rsb (g.ga acc))),
               flg := g.flg.zn (g.ga acc <<< rsb (g.ga acc)) }) ∧
    EngResultOf (.nrw d e xd acc sh) d e (.nrw xd acc sh) (fun g =>
      g.regs.withFit xd (narrowed g.truncates (g.regs.ga acc).toInt sh.toNat))

/-- LD, ST, PMOD and NST read, store and post-modify as the address modes say (R6, R294, R305, R307, R330, R333,
R337). -/
def Obligations.EngineMemory : Prop :=
  ∀ (d : DieId) (e : Fin 80) (xd : Fin 16) (acc : Fin 4) (sh : BitVec 6) (m : MemOp),
    EngStep (.ld d e xd m) d e (.ld xd m) (fun u => u.readable e m) (fun u v =>
      v.sram = u.sram ∧ Die.takesRegs e { (u.engine e).regs.used m with
        x := vset (u.engine e).regs.x xd (u.sram.word ((u.engine e).cell e m)) } u v) ∧
    EngStep (.st d e xd m) d e (.st xd m) (fun u => addrOk ((u.engine e).regs.address m) = true) (fun u v =>
      Die.storesWord ((u.engine e).cell e m) ((u.engine e).regs.gx xd) u v ∧
      Die.takesRegs e ((u.engine e).regs.used m) u v) ∧
    EngResult (.pmod d e m) d e (.pmod m) (fun g => { g with p := (g.used m).p }) ∧
    EngStep (.nst d e acc sh m) d e (.nst acc sh m) (fun u => addrOk ((u.engine e).regs.address m) = true) (fun u v =>
      let g := u.engine e
      let r := narrowed g.truncates (g.regs.ga acc).toInt sh.toNat
      Die.storesWord (g.cell e m) (g.regs.fitted 32 r) u v ∧
      Die.takesRegs e { g.regs.used m with flg := { g.regs.vs 32 r with crv := (g.regs.used m).flg.crv } } u v)

/-- QMAC, QMSU, DMAC and DMSU accumulate four products of a bus access (R302, R303, R307, R335). -/
def Obligations.EngineVector : Prop :=
  ∀ (d : DieId) (e : Fin 80) (z hi : Bool) (xa : Fin 16) (pair : Fin 8) (m : MemOp),
    let quad (neg : Bool) (u : Die) : EngRegs :=
      let g := (u.engine e).regs
      let sums := [0, 1, 2, 3].map fun i => (Fin.ofNat 4 i, g.plus z neg (Fin.ofNat 4 i) ((g.gx xa).toInt * u.busWord e m i))
      { g.used m with acc := (g.accSums sums).acc, flg := { (g.accSums sums).flg with crv := (g.used m).flg.crv } }
    let pairs (neg : Bool) (u : Die) : EngRegs :=
      let g := (u.engine e).regs
      let x0 := (g.gx (Fin.ofNat 16 (2 * pair.val))).toInt
      let x1 := (g.gx (Fin.ofNat 16 (2 * pair.val + 1))).toInt
      let a : Fin 4 := if hi then 2 else 0
      let sums := [(a, g.plus z neg a (x0 * u.busWord e m 0 + x1 * u.busWord e m 1)),
                   (a + 1, g.plus z neg (a + 1) (x0 * u.busWord e m 2 + x1 * u.busWord e m 3))]
      { g.used m with acc := (g.accSums sums).acc, flg := { (g.accSums sums).flg with crv := (g.used m).flg.crv } }
    let leaves (f : Die → EngRegs) (u v : Die) : Prop := v.sram = u.sram ∧ Die.takesRegs e (f u) u v
    EngStep (.qmac d e z xa m) d e (.qmac false z xa m) (fun u => u.busReadable e m) (leaves (quad false)) ∧
    EngStep (.qmsu d e z xa m) d e (.qmac true z xa m) (fun u => u.busReadable e m) (leaves (quad true)) ∧
    EngStep (.dmac d e z hi pair m) d e (.dmac false z hi pair m) (fun u => u.busReadable e m) (leaves (pairs false)) ∧
    EngStep (.dmsu d e z hi pair m) d e (.dmac true z hi pair m) (fun u => u.busReadable e m) (leaves (pairs true))

/-- AMOV, MFS, MTS, SIG, NOP and TIME act on special registers (R318, R319, R339, R343). Choices of the model: That
cycle is counted from the tick in which the run started, or from the present one where that is later (log entry
25). -/
def Obligations.EngineSpecial : Prop :=
  ∀ (d : DieId) (e : Fin 80) (k : Fin 8) (xd xa : Fin 16) (imm : BitVec 20) (imm16 : BitVec 16),
    EngResult (.amov d e .p k imm) d e (.amov .p k imm) (fun g => { g with p := vset g.p k imm }) ∧
    EngResult (.amov d e .m k imm) d e (.amov .m k imm) (fun g => { g with m := vset g.m k imm }) ∧
    EngResult (.amov d e .b k imm) d e (.amov .b k imm) (fun g => { g with b := vset g.b k imm }) ∧
    EngResult (.amov d e .l k imm) d e (.amov .l k imm) (fun g => { g with l := vset g.l k imm }) ∧
    (let reads (c : Nat) (f : EngRegs → W32) : Prop :=
       EngResult (.mfs d e xd (BitVec.ofNat 6 c)) d e (.mfs xd (BitVec.ofNat 6 c)) (fun g => { g with x := vset g.x xd (f g) })
     reads k.val (fun g => (vget g.p k).setWidth 32) ∧
     reads (8 + k.val) (fun g => BitVec.ofInt 32 (vget g.m k).toInt) ∧
     reads (16 + k.val) (fun g => (vget g.b k).setWidth 32) ∧
     reads (24 + k.val) (fun g => (vget g.l k).setWidth 32) ∧
     reads 0x20 (fun g => (vget g.lc 0).setWidth 32) ∧
     reads 0x21 (fun g => (vget g.lc 1).setWidth 32) ∧
     reads 0x22 (fun g => BitVec.ofNat 32 g.flg.byte) ∧
     reads 0x23 (fun g => BitVec.ofNat 32 (g.rnd.toNat + 2 * g.sat.toNat)) ∧
     reads 0x24 (fun g => g.qage.setWidth 32) ∧
     reads 0x25 (fun g => g.cfs.setWidth 32) ∧
     reads 0x26 (fun g => g.rcyc) ∧
     reads 0x27 (fun g => BitVec.ofNat 32 (g.first.toNat + 2 * g.resumed.toNat))) ∧
    (let writes (c : Nat) (f : W32 → EngRegs → EngRegs) : Prop :=
       EngResult (.mts d e (BitVec.ofNat 6 c) xa) d e (.mts (BitVec.ofNat 6 c) xa) (fun g => f (g.gx xa) g)
     writes k.val (fun v g => { g with p := vset g.p k (v.setWidth 20) }) ∧
     writes (8 + k.val) (fun v g => { g with m := vset g.m k (v.setWidth 20) }) ∧
     writes (16 + k.val) (fun v g => { g with b := vset g.b k (v.setWidth 20) }) ∧
     writes (24 + k.val) (fun v g => { g with l := vset g.l k (v.setWidth 20) }) ∧
     writes 0x20 (fun v g => { g with lc := vset g.lc 0 (v.setWidth 16) }) ∧
     writes 0x21 (fun v g => { g with lc := vset g.lc 1 (v.setWidth 16) }) ∧
     writes 0x22 (fun v g => { g with flg := { z := v.getLsbD 0, n := v.getLsbD 1, v := v.getLsbD 2, c := v.getLsbD 3,
                                               s := v.getLsbD 4, crv := v.getLsbD 5, q := v.getLsbD 6 } }) ∧
     writes 0x23 (fun v g => { g with rnd := v.getLsbD 0, sat := v.getLsbD 1 })) ∧
    EngResult (.sig d e imm16) d e (.sig imm16) (fun g => { g with cfs := g.cfs ^^^ imm16 }) ∧
    EngResult (.nop d e) d e .nop id ∧
    -- the counter 3 CLK_ENG cycles after the issue cycle, 4 of them a tick, counted from the start of the run or from now
    EngStep (.time d e xd) d e (.time xd) (fun _ => True) (fun u v =>
      let issue := (v.engine e).hz.now - 1
      let at' := max ((u.engine e).startPer + (issue + 3) / 4) (u.time.per + (issue % 4 + 3) / 4)
      v.sram = u.sram ∧ (u.eccSoft = [] → issue = (u.engine e).hz.issueAt (.time xd)) ∧
      Die.takesRegs e { (u.engine e).regs with x := vset (u.engine e).regs.x xd (u.elapse (at' - u.time.per)).time.ns } u v)

/-- Branches, calls, returns and hardware loops go where the program says (R340). -/
def Obligations.EngineFlow : Prop :=
  ∀ (d : DieId) (e : Fin 80) (cond : BitVec 4) (target cnt : BitVec 12) (lvl : Fin 2)
    (rest : List (BitVec 12)),
    let free (u : Die) (last : BitVec 12) : Prop :=
      ((u.engine e).loopAt lvl).isNone = true ∧ (u.engine e).pc.toNat < last.toNat ∧
        ∀ r, (u.engine e).loopAt (1 - lvl) = some r → r.last ≠ (u.engine e).pc
    let enters (n : W16) (u v : Die) : Prop :=
      v.sram = u.sram ∧ Engine.still (u.engine e) (v.engine e) ∧ (v.engine e).pc = (u.engine e).pc + 1 ∧
        (v.engine e).loopAt lvl = some { first := (u.engine e).pc + 1, last := target } ∧
        (v.engine e).loopAt (1 - lvl) = (u.engine e).loopAt (1 - lvl) ∧
        (v.engine e).regs = { (u.engine e).regs with lc := vset (u.engine e).regs.lc lvl n }
    let skips (n : W16) (u v : Die) : Prop :=
      Die.branches e (target + 1) u v ∧ Engine.still (u.engine e) (v.engine e) ∧
        (v.engine e).regs = { (u.engine e).regs with lc := vset (u.engine e).regs.lc lvl n }
    EngStep (.branch d e cond target) d e (.branch cond target)
      (fun u => (u.engine e).regs.flg.conds[cond.toNat]? = some true) (fun u v =>
        Die.branches e target u v ∧ Engine.still (u.engine e) (v.engine e) ∧ (v.engine e).regs = (u.engine e).regs) ∧
    EngStep (.branch d e cond target) d e (.branch cond target)
      (fun u => (u.engine e).regs.flg.conds[cond.toNat]? = some false) (fun u v =>
        v.sram = u.sram ∧ Die.takesRegs e (u.engine e).regs u v) ∧
    EngStep (.call d e target) d e (.call target) (fun u => (u.engine e).stack.length < 4) (fun u v =>
      Die.branches e target u v ∧ (v.engine e).regs = (u.engine e).regs ∧
        (v.engine e).stack = ((u.engine e).pc + 1) :: (u.engine e).stack) ∧
    EngStep (.ret d e) d e .ret (fun u => (u.engine e).stack = target :: rest) (fun u v =>
      Die.branches e target u v ∧ (v.engine e).regs = (u.engine e).regs ∧ (v.engine e).stack = rest) ∧
    EngStep (.loop d e lvl target) d e (.loop lvl target)
      (fun u => ((u.engine e).loopAt lvl).isNone = true ∧ vget (u.engine e).regs.lc lvl = 0) (skips 0) ∧
    EngStep (.loop d e lvl target) d e (.loop lvl target)
      (fun u => free u target ∧ vget (u.engine e).regs.lc lvl ≠ 0)
      (fun u v => enters (vget (u.engine e).regs.lc lvl) u v) ∧
    EngStep (.loopi d e lvl 0 target) d e (.loopi lvl 0 target)
      (fun u => ((u.engine e).loopAt lvl).isNone = true) (skips 0) ∧
    (cnt ≠ 0 → EngStep (.loopi d e lvl cnt target) d e (.loopi lvl cnt target) (fun u => free u target)
      (enters (cnt.setWidth 16)))

/-- The end of a loop body counts LC and returns or goes on (R317, R342). -/
def Obligations.EngineLoopEnd : Prop :=
  ∀ (d : DieId) (e : Fin 80) (lvl : Fin 2) (r : LoopRec),
    let atEnd (u : Die) : Prop :=
      (u.engine e).loopAt lvl = some r ∧ (u.engine e).pc = r.last ∧ (lvl = 0 → (u.engine e).loop1 = none)
    EngStep (.nop d e) d e .nop (fun u => atEnd u ∧ 1 < (vget (u.engine e).regs.lc lvl).toNat) (fun u v =>
      let g := u.engine e
      (v.engine e).regs = { g.regs with lc := vset g.regs.lc lvl (vget g.regs.lc lvl - 1) } ∧ (v.engine e).pc = r.first ∧
        (v.engine e).loop0 = g.loop0 ∧ (v.engine e).loop1 = g.loop1) ∧
    EngStep (.nop d e) d e .nop (fun u => atEnd u ∧ (vget (u.engine e).regs.lc lvl).toNat ≤ 1) (fun u v =>
      let g := u.engine e
      (v.engine e).regs = { g.regs with lc := vset g.regs.lc lvl 0 } ∧ (v.engine e).pc = g.pc + 1 ∧
        (v.engine e).loopAt lvl = none ∧ (v.engine e).loopAt (1 - lvl) = g.loopAt (1 - lvl))

/-- END with the right constant ends the run (R312, R318, R325, R343). -/
def Obligations.EngineEnd : Prop :=
  ∀ (d : DieId) (e : Fin 80) (imm : BitVec 16) (s : State),
    let u := s.die d
    (u.issues e (.endRun imm) = true →
    (u.engine e).regs.cfs = imm → (u.red.takes.find? fun t => t.drain && t.fromEng = e.val) = none →
    Acts (.endRun d e imm) d s s (fun u v =>
      let g := v.engine e
      g.running = false ∧ g.wait = .none ∧ g.regs = (u.engine e).regs ∧ g.pc = (u.engine e).pc ∧
      g.stickyS = ((u.engine e).stickyS || (u.engine e).regs.flg.s) ∧
      g.stickyCrv = ((u.engine e).stickyCrv || (u.engine e).regs.flg.crv) ∧
      vget g.cnt 0 = satInc (vget (u.engine e).cnt 0) ∧
      g.runMax.toNat = max (u.engine e).runMax.toNat g.runCyc.toNat ∧
      ((∀ q : Fin 1024, (u.queue q).stalled = false) → (∀ k, k ≠ e → v.engine k = u.engine k) ∧ v.joints = u.joints) ∧
      v.time = u.time ∧ v.axes = u.axes ∧
      v.red.units = u.red.units ∧ v.regions = u.regions ∧ v.sep = u.sep ∧ v.lanes = u.lanes ∧ v.cans = u.cans))

/-- Illegal, misaddressed, late and port faults stop the run with their cause (R294, R317, R318, R323, R339, R340,
R341, R344). -/
def Obligations.EngineStops : Prop :=
  ∀ (d : DieId) (e : Fin 80) (x : Fin 16) (m : MemOp) (sreg : BitVec 6) (t : BitVec 12) (imm : BitVec 16) (qp : Fin 16)
    (s : State),
    let faults (i : Instr) (u : State) (cause : BitVec 3) : Prop :=
      Answers i s fun t => (t.die d.peer).core = (u.die d.peer).core ∧
        ((t.die d).engine e).running = false ∧ ((t.die d).engine e).wait = .none ∧
        ((t.die d).engine e).faultPc = ((u.die d).engine e).pc ∧ ((t.die d).engine e).faultCause = cause
    let g := (s.die d).engine e
    let runs : Prop := (s.die d).engRuns e = true ∧ g.wait = .none ∧
      inEccWord (s.die d).eccBad (progBase e + 4 * g.pc.toNat) = false
    let u := s.reach d (Die.dueOverrun e)
    (runs → faults (.branch d e 15 t) s 1) ∧
    (runs → 0x27 < sreg.toNat → faults (.mfs d e x sreg) s 1) ∧
    (runs → 0x23 < sreg.toNat → faults (.mts d e sreg x) s 1) ∧
    (runs → 4 ≤ g.stack.length → faults (.call d e t) s 1) ∧
    (runs → g.stack = [] → faults (.ret d e) s 1) ∧
    (runs → g.loop0.isSome = true → faults (.loop d e 0 t) s 1 ∧ faults (.loopi d e 0 3 t) s 1) ∧
    (runs → addrOk (g.regs.address m) = false → faults (.ld d e x m) s 2 ∧ faults (.st d e x m) s 2) ∧
    (runs → addrOk (g.regs.address m) = true → inEccWord (s.die d).eccBad (g.cell e m) = true →
      faults (.ld d e x m) s 3) ∧
    (runs → g.regs.cfs ≠ imm → faults (.endRun d e imm) s 4) ∧
    ((u.die d).engRuns e = true →
     (if (u.die d).red.tk = .shadow then (u.die d).img.cell.tc - 500 else ((u.die d).engine e).dl.toNat * 16) ≤
       (u.die d).sinceStart → faults (.engineOverrun d e) u 5) ∧
    (runs → (s.die d).bind e qp = none →
      faults (.waitq d e qp) s 6 ∧ faults (.getq d e x qp) s 6 ∧ faults (.putq d e x qp false) s 6)

/-- ENG_CLR_CNT, CAIRN and SPARE_LOAD_DONE have their effect (R313, R314, R324, R467, R469). Choices of the model:
That a spare serves from SPARE_LOAD_DONE on is a reading of the model (log entry 67). -/
def Obligations.EngineService : Prop :=
  ∀ (d : DieId) (e : Fin 80) (t : EngTake) (s : State),
    OnReg (.engClrCnt d e) d (2 + e.val / 5) s (fun u v =>
        v.engine e = { u.engine e with cnt := Vector.replicate 6 0, runMax := 0 } ∧
        (∀ k, k ≠ e → v.engine k = u.engine k) ∧ v.core = { u.core with eng := v.eng, host := u.okHost }) ∧
    EngStep (.cairn d e) d e .cairn (fun _ => True) (fun u v =>
      v.sram = u.sram ∧ (v.engine e).regs = { (u.engine e).regs with lc := (v.engine e).regs.lc } ∧
      (v.engine e).snapshot = some (u.cairnRecord e ++
        match (u.engine e).roleNum with | some r => u.axisBlocks r | none => []) ∧ Die.goesOn e u v) ∧
    ((s.die d).red.takes.find? (fun t => t.toEng = e.val) = some t → t.drain = false →
      (t.cross = true → (s.die d).time.cyc ≠ t.cyc) → t.fromEng < 80 → t.fromEng ≠ e.val → t.role < 80 →
      ((s.die d).red.cairnCyc[t.role]?).getD none = none →
      Acts (.spareLoadDone d e) d s s (fun u v =>
        (v.engine e).role = u.uid 0 t.role ∧ (v.unit 0 e).state = .active ∧ (v.unit 0 e).role = u.uid 0 t.role ∧
        (v.engine e).entry = (u.roleProg t.role).entry ∧ (v.engine e).dl = (u.roleProg t.role).dl ∧
        (∀ k, k ≠ e → k.val ≠ t.fromEng → v.engine k = u.engine k) ∧
        v.red.takes = u.red.takes.filter (fun x => x ≠ t) ∧ v.time = u.time))

/-- WAITQ, GETQ and PUTQ, their waits and their ends, act on the bound queue (R153, R156, R310, R311, R312, R344,
R345). -/
def Obligations.EnginePorts : Prop :=
  ∀ (d : DieId) (e : Fin 80) (qp xr : Fin 16) (last : Bool) (w : W32) (b : PortBind) (s : State),
    let u := s.die d
    let g := u.engine e
    let p := vget g.ports qp
    let q := u.queue b.queue
    let tgt := tgtOf (g.regs.rcyc + BitVec.ofNat 32 b.tofs)
    let group := q.ring.filter fun x => x.commit && decide (x.tgt = tgtOf g.regs.rcyc)
    let does (i : Instr) (post : Die → Die → Prop) : Prop :=
      Acts i d s s fun u v => Die.portFrame e qp b.queue u v ∧ post u v
    let bound (consumer : Bool) : Prop :=
      u.bind e qp = some b ∧ b.queue < 1024 ∧ b.consumer = consumer ∧ g.replay = false
    -- WAITQ with its group there
    (bound true → u.issues e (.waitq qp) = true → p.waited = false → q.ready g.regs.rcyc = true →
      b.fStart.getD 0 ≤ u.sinceStart → does (.waitq d e qp) fun u v =>
        Die.regsBecome e { g.regs with qage := 0, flg := { g.regs.flg with q := false } } u v ∧
        vget (v.engine e).ports qp =
          { p with waited := true, sub := false, age := 0, next := 0, words := group.flatMap (·.payload) } ∧
        (v.queue b.queue).port = group) ∧
    -- WAITQ with neither its group nor the wait limit reached
    (bound true → u.issues e (.waitq qp) = true → p.waited = false → q.ready g.regs.rcyc = false →
      u.sinceStart < max b.waitNs (b.fStart.getD 0) → does (.waitq d e qp) fun u v =>
        (v.engine e).wait = .group qp ∧ (v.engine e).pc = g.pc ∧ (v.engine e).regs = g.regs ∧ v.qrc = u.qrc) ∧
    -- GETQ
    (bound true → u.issues e (.getq xr qp) = true → p.waited = true → p.words[p.next]? = some w →
      does (.getq d e xr qp) fun u v => Die.regsBecome e { g.regs with x := vset g.regs.x xr w } u v ∧
        vget (v.engine e).ports qp = { p with next := p.next + 1 } ∧ v.qrc = u.qrc) ∧
    -- PUTQ of a word that is not the last of its entry
    (bound false → u.issues e (.putq xr qp false) = true → p.build.length + 1 ≠ q.words →
      (p.credit.isSome = true ∨ 0 < q.free) → does (.putq d e xr qp false) fun u v => Die.regsBecome e g.regs u v ∧
        (vget (v.engine e).ports qp).build = p.build ++ [g.regs.gx xr] ∧
        (vget (v.engine e).ports qp).credit = some (p.credit.getD q.epoch) ∧
        (v.engine e).wait = .none ∧ (v.queue b.queue).ring = q.ring) ∧
    -- PUTQ of the last word: the entry enters the queue
    (bound false → u.issues e (.putq xr qp last) = true → p.build.length + 1 = q.words → p.credit = some q.epoch →
      q.judge q.epoch tgt u.time.cyc = .done → does (.putq d e xr qp last) fun u v => Die.regsBecome e g.regs u v ∧
        (vget (v.engine e).ports qp).build = [] ∧ (vget (v.engine e).ports qp).credit = none ∧
        (v.queue b.queue).ring.map (·.payload) = q.ring.map (·.payload) ++ [p.build ++ [g.regs.gx xr]] ∧
        (v.queue b.queue).lastTgt = tgt) ∧
    -- PUTQ without a credit stalls
    (bound false → u.issues e (.putq xr qp false) = true → p.credit = none → q.free = 0 →
      does (.putq d e xr qp false) fun _ v =>
        (v.engine e).wait = .credit xr qp false ∧ (v.engine e).stallAt = u.time.per ∧ (v.engine e).pc = g.pc ∧ (v.engine e).regs = g.regs ∧
        (v.queue b.queue).ring = q.ring ∧ (q.stalled = false → (v.queue b.queue).cntStall = satInc q.cntStall)) ∧
    -- a wait for a group ends with it
    (let w := s.reach d (Die.dueWaitq e)
     (w.die d).bind e qp = some b → b.queue < 1024 → (w.die d).engRuns e = true → ((w.die d).engine e).wait = .group qp →
     ((w.die d).queue b.queue).ready ((w.die d).engine e).regs.rcyc = true → b.fStart.getD 0 ≤ (w.die d).sinceStart →
     Acts (.waitqResume d e 50) d s w fun u v => Die.portFrame e qp b.queue u v ∧ (v.engine e).wait = .none ∧
       vget (v.engine e).cnt 1 = satAdd 50 (vget (u.engine e).cnt 1) ∧
       (vget (v.engine e).ports qp).waited = true ∧ (vget (v.engine e).ports qp).words =
         ((u.queue b.queue).ring.filter fun x => x.commit && decide (x.tgt = tgtOf (u.engine e).regs.rcyc)).flatMap (·.payload)) ∧
    -- a credit that has returned ends a stall
    (bound false → u.engRuns e = true → g.wait = .credit xr qp false → 0 < q.free → p.credit = none →
      p.build.length + 1 ≠ q.words → does (.putqStallEnd d e) fun u v => Die.regsBecome e g.regs u v ∧
        (v.engine e).wait = .none ∧ (vget (v.engine e).ports qp).build = p.build ++ [g.regs.gx xr] ∧
        (vget (v.engine e).ports qp).credit = some q.epoch ∧ (v.queue b.queue).taken = q.taken + 1) ∧
    -- an entry that waited for the lookout window enters the queue
    (bound false → u.engRuns e = true → g.wait = .lookout qp last → p.credit = some q.epoch →
      q.judge q.epoch tgt u.time.cyc = .done → does (.lookoutWaitEnd d e) fun u v => Die.regsBecome e g.regs u v ∧
        (v.engine e).wait = .none ∧ (vget (v.engine e).ports qp).build = [] ∧
        (v.queue b.queue).ring.map (·.payload) = q.ring.map (·.payload) ++ [p.build])

/-- Post-modify is linear mod 2^20, or keeps a pointer inside its circular buffer (R307). -/
def Obligations.EnginePointer : Prop :=
  ∀ (p b l : BitVec 20) (o : Int),
    (l = 0 → ((postmod p b l o).toNat : Int) = (p.toNat + o) % 2 ^ 20) ∧
    (l ≠ 0 → b.toNat + l.toNat ≤ 2 ^ 20 →
      b.toNat ≤ (postmod p b l o).toNat ∧ (postmod p b l o).toNat < b.toNat + l.toNat ∧
      ((postmod p b l o).toNat - b.toNat : Int) % l.toNat = (p.toNat - b.toNat + o) % l.toNat)

/-- The time counter advances by 4 ns and the rate at every tick, and idles with the block (R434, R436, R440).
Choices of the model: That an empty queue lets the clocks run on by a tick is the model's choice (log entry 1). -/
def Obligations.TimeTicks : Prop :=
  (∀ (t : TimeUnit) (n : Nat), t.remaining = 0 → 0 ≤ 4 * 2 ^ 32 + t.rate.toInt →
    let v := t.ns.toNat * 2 ^ 32 + t.frac.toNat + n * (4 * 2 ^ 32 + t.rate.toInt).toNat
    (t.ticks n).ns.toNat = v / 2 ^ 32 % 2 ^ 32 ∧ (t.ticks n).frac.toNat = v % 2 ^ 32 ∧
      (t.ticks n).wrap8.toNat = (t.wrap8.toNat + v / 2 ^ 64) % 256 ∧ (t.ticks n).remaining = 0 ∧
      (t.ticks n).cyc = t.cyc ∧ (t.ticks n).nominal = t.nominal) ∧
  (∀ (d : Die) (n : Nat), d.clkPer = false → d.elapse n = d) ∧
  (∀ (d : Die) (n : Nat), d.clkPer = true → (d.elapse n).time.ns = (d.time.ticks n).ns ∧
    (d.elapse n).time.wrap8 = (d.time.ticks n).wrap8 ∧
    (d.elapse n).core = { d.core with time := (d.elapse n).time, err := (d.elapse n).err }) ∧
  (∀ s : State, s.pending = [] → ∃ t, step s = .next t ∧ t.pending = [] ∧
    ∀ d, (t.die d).core = ((s.die d).pass 1).core)

/-- Corrections, rates, the step token and counters of the time unit (R434, R435, R437, R438, R439, R452, R453). -/
def Obligations.TimeCorrections : Prop :=
  ∀ (d : DieId) (o v : BitVec 32) (s : State),
    let u := s.die d
    let t := u.time
    let frame (u w : Die) : Prop := w.core = { u.core with time := w.time, trig := w.trig, err := w.err, host := u.okHost }
    (t.token = true → OnReg (.timeCorrWrite d o) d 1 s fun u w => frame u w ∧
      w.time.ns = t.ns + o ∧ w.time.frac = t.frac ∧ w.time.nominal = t.nominal + o ∧ w.time.start = t.start + o ∧
      w.time.remaining = 0 ∧ w.time.token = false ∧ w.time.locked = true ∧ w.time.qual = t.corrQual ∧
      w.time.cyc = t.cyc ∧ vget w.time.cnt 2 = satInc (vget t.cnt 2)) ∧
    (t.token = false → t.jumpTh ≠ 0 → o.toInt.natAbs ≤ t.jumpTh.toNat → OnReg (.timeCorrWrite d o) d 1 s fun u w =>
      frame u w ∧ w.trig = u.trig ∧ w.time.ns = t.ns ∧ w.time.frac = t.frac ∧ w.time.nominal = t.nominal ∧
      w.time.remaining = o.toInt * 2 ^ 32 ∧ w.time.qual = t.corrQual ∧ w.time.token = false ∧
      vget w.time.cnt 0 = satInc (vget t.cnt 0)) ∧
    (t.token = false → (t.jumpTh = 0 ∨ t.jumpTh.toNat < o.toInt.natAbs) → OnReg (.timeCorrWrite d o) d 1 s fun u w =>
      frame u w ∧ w.trig = u.trig ∧ w.time = { t with jumpRefused := true, cnt := vupd t.cnt 1 satInc }) ∧
    OnReg (.timeRateWrite d v) d 1 s (fun u w => frame u w ∧ w.trig = u.trig ∧
      w.time.rate = BitVec.ofInt 32 (max (-8589934) (min 8589934 v.toInt)) ∧
      (v.toInt < -8589934 ∨ 8589934 < v.toInt → w.time.rateClamp = true ∧ vget w.time.cnt 3 = satInc (vget t.cnt 3)) ∧
      w.time = { t with rate := w.time.rate, rateClamp := w.time.rateClamp, cnt := vset t.cnt 3 (vget w.time.cnt 3) }) ∧
    OnReg (.grantStep d) d 1 s (fun u w => w.core = { u.core with time := { t with token := true }, host := u.okHost }) ∧
    OnReg (.timeClrCnt d) d 1 s (fun u w =>
      w.core = { u.core with time := { t with cnt := Vector.replicate 6 0 }, host := u.okHost })

/-- Reads of TIME_NS latch the wrap, epoch tags commit or are refused, and wraps make epochs stale (R440, R441,
R452). Choices of the model: That the clocks run on to the time of such an event is the model's choice (log
entry 40). -/
def Obligations.TimeEpoch : Prop :=
  ∀ (d : DieId) (tag : BitVec 8) (n : Nat) (s : State),
    let u := s.die d
    let t := u.time
    let usable (x : Option Epoch) (w : TimeUnit) : Bool :=
      match x with
      | none => false
      | some e => decide (e.tag = w.wrap8) || (decide (e.tag + 1 = w.wrap8) && decide (w.ns.toNat < 1000000000))
    OnReg (.timeNsRead d) d 1 s (fun u w =>
      w.core = { u.core with time := { t with wrapLatch := t.wrap8 }, host := u.okHost } ∧
        .read (leBytes 4 t.ns.toNat) ∈ w.out) ∧
    (tag = t.wrap8 ∨ tag + 1 = t.wrap8 → OnReg (.timeEpochTagWrite d tag) d 1 s fun u w =>
      let e : Epoch := { sec := t.epochSecLo.toNat + t.epochSecHi.toNat * 2 ^ 32, ns := t.epochNs.toNat, tag := tag }
      w.time = { t with epoch := some e, epochStale := !usable (some e) t, cnt := w.time.cnt } ∧
        w.core = { u.core with time := w.time, err := w.err, host := u.okHost }) ∧
    (tag ≠ t.wrap8 → tag + 1 ≠ t.wrap8 → OnReg (.timeEpochTagWrite d tag) d 1 s fun u w =>
      w.core = { u.core with host := u.refusedHost }) ∧
    (u.ticksToWrap = some n → Acts (.timeWrap d) d s (s.elapse n) fun u w =>
      w.core = { u.core with time := w.time, err := w.err } ∧ w.time.ns = u.time.ns ∧ w.time.wrap8 = u.time.wrap8 ∧
        w.time.epochStale = !usable u.time.epoch u.time) ∧
    (u.ticksToStale = some n → Acts (.epochStale d) d s (s.elapse n) fun u w =>
      w.core = { u.core with time := w.time, err := w.err } ∧ w.time.ns = u.time.ns ∧
        w.time.epochStale = !usable u.time.epoch u.time)

/-- Trigger compares arm, fire late or are refused; captures store edges (R448, R449, R450, R451, R455, R456).
Choices of the model: The levels at the pin and how long they stand are operands of the command (log entries 41
and 46); which trigger writes are refused is a reading of the model (log entry 124). -/
def Obligations.TriggersCaptures : Prop :=
  ∀ (d : DieId) (k : Fin 8) (v : BitVec 32) (la : Bool) (n : Nat) (g : InEdge) (s : State),
    let u := s.die d
    let x := vget u.trig k
    let others (u w : Die) : Prop := ∀ j, j ≠ k → vget w.trig j = vget u.trig j
    let late : Bool := decide (0 ≤ diff32 u.time.ns v)
    let c := vget u.capt k
    let idle : Prop := u.trigReached k = false
    let at' (w : Die) : Prop := ∀ j, j ≠ k → vget w.capt j = vget u.capt j
    let calm : Prop := (u.pending.all fun i => decide (u.time.per < i.due)) = true
    let due : Prop := bit u.captPins k = la ∧ u.awake domKeep = true ∧ u.pending = [g] ∧ c.pend = [g] ∧ u.clkPer = true ∧ u.time.per ≤ g.due ∧
      g.due ≤ u.time.per + n
    let after := ((u.elapse (g.due - u.time.per)).elapse (n - (g.due - u.time.per))).aged n
    let takes : Prop := bit c.edge (if g.level then 0 else 1) = true
    let ends := (x.onAt + x.pw.toNat) - u.time.per
    (idle → (x.mode = 1 ∧ late = false ∨ x.mode = 2 ∧ late = false ∧ 100 ≤ x.period.toNat ∧ 8 * x.pw.toNat ≤ x.period.toNat) →
      OnReg (.trigCmpWrite d k v) d 1 s fun u w => others u w ∧
        w.core = { u.core with trig := w.trig, host := u.okHost } ∧ vget w.trig k = { x with cmp := v, armed := true }) ∧
    (idle → x.mode = 1 → late = true → OnReg (.trigCmpWrite d k v) d 1 s fun u w => others u w ∧
        w.core = { u.core with trig := w.trig, err := w.err, host := u.okHost } ∧
        vget w.trig k = { x with cmp := v, armed := false, active := true, onAt := u.time.per, late := true, cntLate := satInc x.cntLate }) ∧
    (idle → x.mode = 2 → (x.period.toNat < 100 ∨ x.period.toNat < 8 * x.pw.toNat) → OnReg (.trigCmpWrite d k v) d 1 s fun u w =>
        w.core = { u.core with host := u.refusedHost }) ∧
    -- a compare reached at this tick: its firing completes, and the write is what follows
    (x.mode = 1 → x.armed = true → late = false → 0 ≤ diff32 u.time.ns x.cmp → OnReg (.trigCmpWrite d k v) d 1 s fun u w => others u w ∧
        w.core = { u.core with trig := w.trig, host := u.okHost } ∧
        vget w.trig k = { x with cmp := v, armed := true, active := true, onAt := u.time.per, onCyc := some u.time.cyc }) ∧
    (idle → x.mode = 3 → u.img.cell.tc ≤ v.toNat → OnReg (.trigCmpWrite d k v) d 1 s fun u w => w.core = { u.core with host := u.refusedHost }) ∧
    (u.ticksToTrigger k = some n → Acts (.triggerFire d k) d s (s.elapse n) fun u w =>
      let y := vget u.trig k
      others u w ∧ w.core = { u.core with trig := w.trig } ∧
        (y.mode = 1 → vget w.trig k = { y with active := true, onAt := u.time.per, onCyc := some u.time.cyc, armed := false }) ∧
        (y.mode = 2 → vget w.trig k = { y with active := true, onAt := u.time.per, onCyc := some u.time.cyc, cmp := y.cmp + y.period }) ∧
        (y.mode = 3 → vget w.trig k = { y with active := true, onAt := u.time.per, onCyc := some u.time.cyc })) ∧
    (u.time.cycRun = true → x.mode = 3 → x.onCyc ≠ some u.time.cyc → u.time.cyc.toNat % max 1 x.cdiv.toNat = 0 →
      u.ticksAhead (diff32 (u.time.start + x.cmp) u.time.ns).toNat = some n → Acts (.triggerFire d k) d s (s.elapse n) fun u w =>
        others u w ∧ w.core = { u.core with trig := w.trig } ∧
        vget w.trig k = { vget u.trig k with active := true, onAt := u.time.per, onCyc := some u.time.cyc }) ∧
    (x.active = true → u.ticksIn ends = some ends → Acts (.triggerPulseEnd d k) d s (s.elapse ends) fun u w => others u w ∧
      w.core = { u.core with trig := w.trig } ∧ vget w.trig k = { x with active := false }) ∧
    (calm → u.ballUsed (.capt k) = true → u.awake domKeep = true → bit u.captPins k ≠ la → c.pend = [] →
      Answers (.captureEdge k la 0) s fun t => t.pending = s.pending ∧ bit (t.die d).captPins k = la ∧ at' (t.die d) ∧
        vget (t.die d).capt k = { c with pend := [{ due := u.time.per + c.filt.toNat + 3, ch := 0, level := la, ns := u.time.ns }] } ∧
        (t.die d).core = { ((u.elapse 0).aged 0).core with capt := (t.die d).capt, captPins := (t.die d).captPins }) ∧
    (due → takes → c.fifo.length < 4 → Answers (.captureEdge k la n) s fun t => t.pending = s.pending ∧ at' (t.die d) ∧
      (t.die d).core = { after.core with capt := (t.die d).capt } ∧
      vget (t.die d).capt k = { c with pend := [], fifo := c.fifo ++ [(g.ns, g.level)] }) ∧
    (due → takes → 4 ≤ c.fifo.length → Answers (.captureEdge k la n) s fun t => t.pending = s.pending ∧ at' (t.die d) ∧
      (t.die d).core = { after.core with capt := (t.die d).capt, err := (t.die d).err } ∧ vget (t.die d).capt k = { c with pend := [], ovf := true }) ∧
    (due → ¬ takes → Answers (.captureEdge k la n) s fun t => t.pending = s.pending ∧ at' (t.die d) ∧
      (t.die d).core = { after.core with capt := (t.die d).capt } ∧ vget (t.die d).capt k = { c with pend := [] }) ∧
    OnReg (.captPop d k) d 1 s (fun u w => (∀ j, j ≠ k → vget w.capt j = vget u.capt j) ∧
      w.core = { u.core with capt := w.capt, host := u.okHost } ∧
      vget w.capt k = { vget u.capt k with fifo := (vget u.capt k).fifo.drop 1 })

/-- A cell cycle starts at its nominal start, or the standby adopts the duty die's (R436, R446, R447). Choices of
the model: When the standby follows is a reading of the model (log entry 12). -/
def Obligations.CellCycleStart : Prop :=
  ∀ (d : DieId) (s : State),
    let u := s.die d
    let w := s.elapse (u.time.ticksTo u.time.nominal)
    (u.time.cycRun = true → u.clkPer = true → u.img.state ≠ .place →
      u.led (s.die d.peer) = false → Answers (.cellCycleStart d) s fun t =>
      (t.die d).time.cyc = (if u.time.cycFirst then 0 else u.time.cyc + 1) ∧
      (t.die d).time.start = (w.die d).time.ns ∧ (t.die d).time.ns = (w.die d).time.ns ∧
      (t.die d).time.nominal = u.time.nominal + BitVec.ofInt 32 (u.img.cell.tc -
        max (-(u.time.cycSlew.toNat : Int)) (min u.time.cycSlew.toNat ((w.die d).time.phase u.img.cell.tc))) ∧
      (t.die d).time.cycFirst = false ∧ (t.die d.peer).time = (w.die d.peer).time ∧
      (t.die d).boot = u.boot ∧ (t.die d).pwr = u.pwr ∧ (t.die d).clk = u.clk ∧ t.pending = s.pending) ∧
    (u.led (s.die d.peer) = true → u.follows (s.die d.peer) = false → Acts (.cellCycleStart d) d s s fun u v => v.core = u.core) ∧
    (u.time.cycRun = true → u.clkPer = true → u.img.state ≠ .place →
     u.follows (s.die d.peer) = true → Answers (.cellCycleStart d) s fun t =>
      (t.die d).time.cyc = (s.die d.peer).time.cyc ∧ (t.die d).time.nominal = (s.die d.peer).time.nominal ∧
      (t.die d).time.start = (s.die d.peer).time.start ∧ (t.die d.peer).core.time = (s.die d.peer).core.time ∧
      t.pending = s.pending)

/-- Time ports stamp PTP event messages, pop stamps and follow the link (R429, R430, R432, R442, R443, R444, R457).
Choices of the model: The time of a message is the command's (log entry 41); which port is the source is free
(log entry 29). -/
def Obligations.TimePorts : Prop :=
  ∀ (d : DieId) (p : Fin 2) (m frame : List (BitVec 8)) (ofs n : Nat) (udp rx tx : Bool) (s : State),
    let u := s.die d
    let e := s.elapse n
    let z := e.die d
    let x := vget z.eth p
    let y := frame.drop ofs
    let others' (u w : Die) : Prop := ∀ j, j ≠ p → vget w.eth j = { vget u.eth j with roleSrc := (vget w.eth j).roleSrc }
    let others (u w : Die) : Prop := ∀ j, j ≠ p → vget w.eth j = vget u.eth j
    (z.portOn p = true → fieldAt m 4 1 = z.img.pins.ptpDomain → fieldAt m 0 1 % 16 < 2 → x.host = false →
      x.rxFifo.length < 16 → Acts (.ptpEventRx d p m n) d s e fun u w => others' u w ∧
        (u.red.grant = true → (vget w.eth 0).roleSrc = false ∨ (vget w.eth 1).roleSrc = false) ∧
        w.core = { u.core with eth := w.eth, fresh := w.fresh } ∧
        vget w.eth p = { x with roleSrc := (vget w.eth p).roleSrc, rxFifo := x.rxFifo ++
          [{ ns := u.time.ns - x.rxLat.setWidth 32,
             wrap8 := if u.time.ns.toNat < x.rxLat.toNat then u.time.wrap8 - 1 else u.time.wrap8,
             messageType := BitVec.ofNat 4 (fieldAt m 0 1), oneStep := false,
             sequenceId := BitVec.ofNat 16 (fieldAt m 30 1 * 256 + fieldAt m 31 1) }] }) ∧
    (z.portOn p = true → fieldAt m 4 1 = z.img.pins.ptpDomain → fieldAt m 0 1 % 16 < 2 → x.host = false →
      16 ≤ x.rxFifo.length → Acts (.ptpEventRx d p m n) d s e fun u w => others' u w ∧
        w.core = { u.core with eth := w.eth, fresh := w.fresh, err := w.err } ∧ vget w.eth p = { x with tsOvf := true, roleSrc := (vget w.eth p).roleSrc }) ∧
    (z.portOn p = true → fieldAt y 0 1 % 16 < 2 → x.host = false → x.txFifo.length < 16 →
      Acts (.ptpEventTx d p frame ofs udp n) d s e fun u w => others u w ∧ w.core = { u.core with eth := w.eth } ∧
        vget (vget w.eth p).cnt 3 = satInc (vget x.cnt 3) ∧
        (vget w.eth p).txFifo.dropLast = x.txFifo ∧
        (vget w.eth p).txFifo.getLast?.map (fun q => (q.ns, q.oneStep)) = some (u.time.ns + x.txLat.setWidth 32,
          decide (fieldAt y 0 1 % 16 = 0) && !(bit (BitVec.ofNat 8 (fieldAt y 6 1)) 1) && u.time.epochUsed.isSome) ∧
        vget w.eth p = { x with txFifo := (vget w.eth p).txFifo, cnt := (vget w.eth p).cnt }) ∧
    OnReg (.ethTsPop d p rx tx) d (30 + p.val) s (fun u w => others u w ∧
      w.core = { u.core with eth := w.eth, host := u.okHost } ∧
      vget w.eth p = { vget u.eth p with rxFifo := (vget u.eth p).rxFifo.drop (if rx then 1 else 0),
                                         txFifo := (vget u.eth p).txFifo.drop (if tx then 1 else 0) }) ∧
    (u.portOn p = true → (vget u.eth p).link = true → Acts (.ethLinkDown d p) d s s fun u w => others u w ∧
      w.core = { u.core with eth := w.eth, err := w.err } ∧ vget w.eth p = { vget u.eth p with link := false, roleSrc := false }) ∧
    (u.portOn p = true → (vget u.eth p).link = false → Acts (.ethLinkUp d p) d s s fun u w => others u w ∧
      w.core = { u.core with eth := w.eth, err := w.err } ∧ vget w.eth p = { vget u.eth p with link := true })

/-- Frames that no receiver takes are counted; a node announce with our id sets NODE_DUP (R430, R431, R432). Choices
of the model: Which parts of a frame are checked beyond those named is a choice (log entry 29). -/
def Obligations.TimeFrames : Prop :=
  ∀ (d : DieId) (p : Fin 2) (frame src payload : List (BitVec 8)) (n : Nat) (s : State),
    let u := s.die d
    let e := s.elapse n
    let z := e.die d
    let x := vget z.eth p
    let body := frame.drop (if sliceBytes frame 12 2 = [0x81, 0x00] then 16 else 12)
    let counts (i : Fin 5) (u w : Die) : Prop := (∀ j, j ≠ p → vget w.eth j = vget u.eth j) ∧
      w.core = { u.core with eth := w.eth } ∧ vget w.eth p = { x with cnt := vupd x.cnt i satInc }
    (z.portOn p = true → Acts (.ethFrameRx d p frame false n) d s e (counts 2)) ∧
    (z.portOn p = true →
      body.take 2 ∉ [[0x88, 0xF7], [0x88, 0xB5], [0x08, 0x00], [0x08, 0x06]] →
      Acts (.ethFrameRx d p frame true n) d s e (counts 1)) ∧
    (z.portOn p = true → body.take 2 = [0x88, 0xF7] → fieldAt (body.drop 2) 0 1 % 16 = 9 →
      Acts (.ethFrameRx d p frame true n) d s e fun u w =>
        (∀ j, j ≠ p → vget w.eth j = { vget u.eth j with roleSrc := (vget w.eth j).roleSrc }) ∧
        w.core = { u.core with eth := w.eth, fresh := w.fresh } ∧
        vget w.eth p = { x with cnt := vupd x.cnt 0 satInc, roleSrc := (vget w.eth p).roleSrc }) ∧
    (u.portOn p = true → fieldAt payload 0 1 = 0x81 → u.img.isEmpty = false →
      fieldAt payload 2 2 % 4096 = u.host.nodeId.toNat → u.img.pins.macs.contains src = false →
      Acts (.nodeAnnounceRx d p src payload) d s s fun u w =>
        w.core = { u.core with host := { u.core.host with nodeDup := true }, err := w.err })

/-- ARM_SOLVE, HOST_REQ, RESUME and HOST_COMMIT act or are refused by the region's state (R82, R83, R84, R99, R105,
R106, R108). Choices of the model: RESUME outside TAIL is ignored (log entry 34). -/
def Obligations.RegionCommands : Prop :=
  ∀ (d : DieId) (w : Fin 4) (spec refactor vbank on : Bool) (period : BitVec 16) (s : State),
    let u := s.die d
    let r := u.region w
    let same (u v : Die) : Prop := v.core = { u.core with regions := v.regions, host := u.okHost } ∧
      ∀ k : Fin 4, k ≠ w → v.region k = u.region k
    let lead : Nat := (u.time.ns - r.tj).toNat + r.act.specLead.toNat
    (r.state = .idle → r.run = none → u.red.grant = true → period = BitVec.ofNat 16 (r.period + 1).toNat →
      (spec = true → r.act.specLead ≠ 0 ∧ lead < 1000000) →
      OnReg (.armSolve d w spec refactor vbank period) d (18 + w.val) s fun u v => same u v ∧
        v.region w = { r with
          state := .armed, cmdSpec := spec, cmdRefactor := refactor, cmdVbank := vbank, cmdPeriod := period
          run := some { period := r.period + 1, spec := spec, refactorCmd := refactor, vbank := vbank } }) ∧
    (r.state = .idle → r.run = none → u.red.grant = true → u.mon.capOver = false →
      period = BitVec.ofNat 16 r.period.toNat → r.published = false → r.noSolve = false →
      (spec = true → r.act.specLead ≠ 0 ∧ r.verifyDone = false ∧ (u.time.ns - r.tj).toNat < r.act.specVmax.toNat) →
      u.badBounds w = false →
      OnReg (.armSolve d w spec refactor vbank period) d (18 + w.val) s fun u v =>
        v.core = { u.core with regions := v.regions, host := u.okHost, sram := v.sram } ∧
        (∀ k : Fin 4, k ≠ w → v.region k = u.region k) ∧ Die.storesIn (storeBase w) 0x400000 u v ∧
        (v.region w).state = .solving ∧ vget (v.region w).cnt 0 = satInc (vget r.cnt 0) ∧
        (v.region w).run.map (fun q => (q.period, q.spec, q.started, q.ended, q.nsStart)) = some (r.period, spec, true, false, u.time.ns)) ∧
    (r.state = .off ∨ r.state = .tail ∨ r.state = .host ∨ r.run.isSome = true ∨
      (period ≠ BitVec.ofNat 16 r.period.toNat ∧ period ≠ BitVec.ofNat 16 (r.period + 1).toNat) ∨
      (period = BitVec.ofNat 16 r.period.toNat ∧ r.published = true) ∨ (spec = true ∧ r.act.specLead = 0) ∨
      (spec = true ∧ period = BitVec.ofNat 16 r.period.toNat ∧
        (r.verifyDone = true ∨ r.act.specVmax.toNat ≤ (u.time.ns - r.tj).toNat)) ∨ u.red.grant = false →
      OnReg (.armSolve d w spec refactor vbank period) d (18 + w.val) s fun u v =>
        v.core = { u.core with host := u.refusedHost, err := v.err, fresh := v.fresh }) ∧
    (r.state = .off → OnReg (.hostReq d w on) d (18 + w.val) s fun u v => v.core = { u.core with host := u.refusedHost }) ∧
    (r.state ≠ .off → OnReg (.hostReq d w on) d (18 + w.val) s fun u v => same u v ∧
      v.region w = { r with regs := { r.regs with hostReq := on } }) ∧
    (r.state = .tail → (∀ j : Fin 128, (u.jnt j).used = true ∧ (u.jnt j).region = w.val → (u.jnt j).atRest = true) →
      OnReg (.resume d w) d (18 + w.val) s fun u v => same u v ∧
        v.region w = { r with missConsec := 0, warmWritten := false, state := if r.regs.hostReq then .host else .idle }) ∧
    (r.state = .off → OnReg (.resume d w) d (18 + w.val) s fun u v => v.core = { u.core with host := u.refusedHost }) ∧
    (r.state = .tail → (∃ j : Fin 128, (u.jnt j).used = true ∧ (u.jnt j).region = w.val ∧ (u.jnt j).atRest = false) →
      OnReg (.resume d w) d (18 + w.val) s fun u v => v.core = { u.core with host := u.refusedHost }) ∧
    (r.state ≠ .off → r.state ≠ .tail → period = BitVec.ofNat 16 r.period.toNat → r.deadlineDone = false →
      (u.time.ns - r.tj).toNat < (u.tmpl w).deadlineNs → r.sigLo.toNat + r.sigHi.toNat * 2 ^ 32 = (u.tmpl w).sig →
      r.published = false → OnReg (.hostCommit d w period) d (18 + w.val) s fun u v =>
        v.core = { u.core with regions := v.regions, sram := v.sram, host := u.okHost } ∧
        (∀ k : Fin 4, k ≠ w → v.region k = u.region k) ∧ Die.storesIn (storeBase w + 0x3F6000) 64 u v ∧
        v.region w = { r with published := true, toPublish := some (r.nextBuf, false) }) ∧
    (r.state ≠ .off →
      (period ≠ BitVec.ofNat 16 r.period.toNat ∨ (u.tmpl w).deadlineNs ≤ (u.time.ns - r.tj).toNat ∨
        r.sigLo.toNat + r.sigHi.toNat * 2 ^ 32 ≠ (u.tmpl w).sig ∨ r.published = true) →
      OnReg (.hostCommit d w period) d (18 + w.val) s fun u v =>
        v.core = { u.core with regions := v.regions, err := v.err, host := if r.state = .tail then u.refusedHost else u.okHost } ∧
        (∀ k : Fin 4, k ≠ w → v.region k = u.region k) ∧ (v.region w).commitErr ≠ 0 ∧
        v.region w = { r with commitErr := (v.region w).commitErr })

/-- Solves start, end, miss, verify, squash and publish (R72, R79, R82, R84, R86, R87, R88, R94, R99, R105). Choices
of the model: The solve is computed at its end (log entry 33); phase and iterations are operands (log entry 36);
the second miss of a period see log entry 34. -/
def Obligations.RegionSolves : Prop :=
  ∀ (d : DieId) (w : Fin 4) (q : SolveRun) (phase : SolvePhase) (iters : Nat) (s : State),
    let u := s.die d
    let r := u.region w
    let frame (u v : Die) : Prop :=
      v.core = { u.core with regions := v.regions, err := v.err, sram := v.sram, sep := v.sep, fresh := v.fresh } ∧
      (∀ k : Fin 4, k ≠ w → v.region k = u.region k) ∧ Die.storesIn (storeBase w) 0x400000 u v
    let nobodyWaits (u : Die) : Prop := ∀ k : Fin 4, (u.region k).run.all (fun x => x.started || !x.due) = true
    let begins (u v : Die) : Prop := frame u v ∧ (v.region w).state = .solving ∧
      vget (v.region w).cnt 0 = satInc (vget (u.region w).cnt 0) ∧
      (v.region w).run.map (fun x => (x.period, x.spec, x.started, x.ended, x.failed, x.nsStart)) =
        some (q.period, q.spec, true, q.ended, q.failed, u.time.ns)
    let x := s.reach d (Die.dueSpec w)
    let y := s.reach d (Die.dueDeadline w)
    let ry := (y.die d).region w
    let due : Prop := ry.deadlineDone = false ∧ ry.state ≠ .off ∧ ry.state ≠ .tail ∧ (y.die d).red.grant = true ∧
      ((y.die d).tmpl w).deadlineNs ≤ ((y.die d).time.ns - ry.tj).toNat ∧ nobodyWaits (y.die d)
    let miss (u v : Die) : Prop := vget (v.region w).cnt 6 = satInc (vget (u.region w).cnt 6) ∧
      (v.region w).missConsec = satInc (u.region w).missConsec
    let ends : SolveRes := u.solve w q
    let running : Prop := u.red.grant = true ∧ r.run = some q ∧ q.started = true ∧ q.ended = false ∧ nobodyWaits u
    let z := s.reach d (Die.dueVerify w)
    let rz := (z.die d).region w
    let checks : Prop := rz.state ≠ .off ∧ rz.verifyDone = false ∧ (z.die d).verifyDue w = true ∧ (z.die d).red.grant = true ∧
      rz.run = some q ∧ q.spec = true ∧ q.started = true ∧ q.verified = false ∧ q.period = rz.period ∧ nobodyWaits (z.die d)
    let agrees : Prop := ∀ p ∈ ((z.die d).regionJoints w).zipIdx, (rz.tjState.find? (·.1 = p.1)).all (fun m => decide (
      (m.2.1.toInt - ((rz.pred[p.2]?).getD (0, 0)).1.toInt).natAbs ≤ rz.act.tolPos.toNat ∧
      (m.2.2.toInt - ((rz.pred[p.2]?).getD (0, 0)).2.toInt).natAbs ≤ rz.act.tolVel.toNat)) = true
    (((x.die d).region w).state = .armed → ((x.die d).region w).run = some q → q.spec = true → q.started = false →
      1000000 ≤ ((x.die d).time.ns - ((x.die d).region w).tj).toNat + ((x.die d).region w).act.specLead.toNat →
      (x.die d).red.grant = true → (x.die d).mon.capOver = false → (x.die d).badBounds w = false →
      Acts (.specSolveStart d w) d s x begins) ∧
    (r.state = .armed → r.run = some q → q.spec = false → q.started = false → q.period = r.period →
      u.red.grant = true → u.mon.capOver = false → u.badBounds w = false → Acts (.solveStart d w) d s s begins) ∧
    (running → u.pastDeadline w q = false → q.failed = false → (u.tmpl w).iterCap ≠ 0 → ends.valid = true →
      Acts (.solveEnd d w) d s s fun u v => frame u v ∧ (v.region w).warmPeriod = q.period ∧
        (v.region w).nextBuf = r.nextBuf ∧ (v.region w).plan = r.plan ∧
        (if q.verified then (v.region w).state = .idle ∧ (v.region w).run = none ∧ (v.region w).published = true ∧
            (v.region w).toPublish = (if r.published then r.toPublish else some (r.outBuf, q.spec))
         else (v.region w).state = .held ∧
            (v.region w).run.map (fun x => (x.period, x.ended, x.verified)) = some (q.period, true, false) ∧
            (v.region w).toPublish = r.toPublish)) ∧
    (running → u.pastDeadline w q = false → q.failed = false → ends.pivot = true ∨ ends.range = true → ends.valid = false →
      Answers (.solveEnd d w) s fun t => miss u (t.die d) ∧ ((t.die d).region w).run = none ∧
        ((t.die d).region w).toPublish = (if ((t.die d).region w).state = .tail then none else r.toPublish) ∧
        ((t.die d).region w).plan = r.plan) ∧
    (running → u.pastDeadline w q = false → q.failed = false → (u.tmpl w).iterCap = 0 → ends.pivot = false → ends.range = false →
      Acts (.solveEnd d w) d s s fun u v => frame u v ∧ (v.region w).run = none ∧ (v.region w).state = .idle ∧
        (v.region w).toPublish = r.toPublish ∧ (v.region w).published = r.published ∧ (v.region w).missConsec = r.missConsec) ∧
    (running → u.pastDeadline w q = true → q.period = r.period → r.deadlineDone = false → r.published = false → r.state = .solving →
      Answers (.solveEnd d w) s fun t => miss u (t.die d) ∧ ((t.die d).region w).run = none ∧
        ((t.die d).region w).published = false ∧ ((t.die d).region w).plan = r.plan ∧
        vget ((t.die d).region w).cnt 7 = satInc (vget r.cnt 7)) ∧
    (due → ry.published = true → ry.run = none → Acts (.solveDeadline d w phase iters) d s y fun u v =>
        v.core = { u.core with regions := v.regions } ∧
        (∀ k : Fin 4, k ≠ w → v.region k = u.region k) ∧ v.region w = { (u.region w) with deadlineDone := true }) ∧
    (due → ry.published = false → ry.run = none →
      Answers (.solveDeadline d w phase iters) s fun t => miss (y.die d) (t.die d) ∧
        ((t.die d).region w).deadlineDone = true ∧ (t.die d).sram = (y.die d).sram ∧
        (((t.die d).region w).state = .tail ∨ ((t.die d).region w).state = ry.state)) ∧
    (due → ry.published = false → ry.run = some q → q.period = ry.period → q.started = true → q.ended = false → ry.state = .solving →
      Answers (.solveDeadline d w phase iters) s fun t => miss (y.die d) (t.die d) ∧
        ((t.die d).region w).run = none ∧ (((t.die d).region w).state = .tail ∨ ((t.die d).region w).state = .idle) ∧
        (phase = .factor ∨ phase = .update → vget ((t.die d).region w).cnt 8 = satInc (vget ry.cnt 8)) ∧
        (phase = .start ∨ phase = .iterate → vget ((t.die d).region w).cnt 7 = satInc (vget ry.cnt 7)) ∧
        (phase = .factor → q.refactor = true → ((t.die d).region w).validOf q.slot = false)) ∧
    (checks → agrees →
      Acts (.verifyCheck d w) d s z fun u v => frame u v ∧ v.sram = u.sram ∧ v.err = u.err ∧ (v.region w).verifyDone = true ∧
        (if q.ended then (v.region w).state = .idle ∧ (v.region w).published = true ∧
            (v.region w).toPublish = (if rz.published then rz.toPublish else some (rz.outBuf, true))
         else (v.region w).state = rz.state ∧ (v.region w).run = some { q with verified := true })) ∧
    (checks → ¬agrees → q.ended = true → (z.die d).pastDeadline w q = false →
      Acts (.verifyCheck d w) d s z fun u v => frame u v ∧ (v.region w).verifyDone = true ∧
        (v.region w).toPublish = rz.toPublish ∧ (v.region w).published = rz.published ∧
        (if q.ended then (v.region w).state = .idle ∧ (v.region w).run = none ∧ vget (v.region w).cnt 2 = satInc (vget rz.cnt 2)
         else (v.region w).run = some { q with failed := true })) ∧
    (r.run = some q → q.failed = true → u.pastDeadline w q = false → nobodyWaits u →
      Acts (.solveSquash d w phase iters) d s s fun u v => frame u v ∧
        (v.region w).state = .idle ∧ (v.region w).run = none ∧ vget (v.region w).cnt 2 = satInc (vget r.cnt 2) ∧
        (v.region w).toPublish = r.toPublish ∧ (v.region w).published = r.published) ∧
    (r.toPublish.isSome = true → u.time.ns = u.time.start → Acts (.planPublish d w) d s s fun u v =>
        v.core = { u.core with regions := v.regions, sep := v.sep, qrc := v.qrc, eng := v.eng, err := v.err } ∧
        (v.region w).plan.map (fun p => (p.period, p.tau)) = some (r.period, r.tauJ) ∧ (v.region w).toPublish = none ∧
        (v.region w).missConsec = 0 ∧ (v.region w).nextBuf = !(r.toPublish.elim false (·.1)) ∧
        vget (v.region w).cnt 1 = satInc (vget r.cnt 1) ∧ (∀ k : Fin 4, k ≠ w → v.region k = u.region k))

/-- Sensor frames count as bad, unauthentic, old or fresh; stale sensors are absent; keys load (R138, R139, R140,
R143, R147). Choices of the model: The time of a frame is the command's (log entry 41). -/
def Obligations.SepSensors : Prop :=
  ∀ (d : DieId) (k : Fin 16) (p : List (BitVec 8)) (word3 : BitVec 32) (n : Nat) (s : State),
    let e := s.elapse n
    let z := e.die d
    let x := z.sep.sensor k
    let npts := fieldAt p 2 1
    let seq : BitVec 32 := BitVec.ofNat 32 (fieldAt p 4 4)
    let frame : SensFrame := { ts := BitVec.ofNat 32 (fieldAt p 8 4), zones := BitVec.ofNat 32 (fieldAt p 12 4), pts := payloadPts p npts }
    let authentic : Bool := decide (p.length = 32 + 12 * npts) && decide (fieldAt p 0 1 = 1) && decide (npts ≤ 16) &&
      decide (x.state ≠ .unused) && (match x.key with
        | none => false
        | some key => decide (aesCmac key (p.take (16 + 12 * npts)) = p.drop (16 + 12 * npts)))
    let timely : Bool := (!x.seqSeen || decide (1 ≤ (seq - x.lastSeq).toNat ∧ (seq - x.lastSeq).toNat < 2 ^ 31)) &&
      decide (-1000 ≤ diff32 z.time.ns frame.ts) &&
      decide (diff32 z.time.ns frame.ts ≤ (((z.sep.geom.sensor k).map (·.maxAge)).getD 0 : Nat))
    let only (u v : Die) : Prop := v.core = { u.core with sep := v.sep, err := v.err } ∧
      v.sep = { u.sep with sensors := v.sep.sensors } ∧ ∀ j : Fin 16, j ≠ k → v.sep.sensor j = u.sep.sensor j
    (z.awake domSep = true → p.length < 2 ∨ 15 < fieldAt p 1 1 → Acts (.sensorFrame d p n) d s e fun u v =>
      v.core = { u.core with sep := { u.sep with cntSensBad := satInc u.sep.cntSensBad } }) ∧
    (z.awake domSep = true → 2 ≤ p.length → fieldAt p 1 1 = k.val → authentic = false → Acts (.sensorFrame d p n) d s e fun u v =>
      only u v ∧ v.err = u.err ∧ v.sep.sensor k = { x with cntAuth := satInc x.cntAuth }) ∧
    (z.awake domSep = true → 2 ≤ p.length → fieldAt p 1 1 = k.val → authentic = true → timely = false →
      Acts (.sensorFrame d p n) d s e fun u v => only u v ∧ v.err = u.err ∧ v.sep.sensor k = { x with cntOld := satInc x.cntOld }) ∧
    (z.awake domSep = true → 2 ≤ p.length → fieldAt p 1 1 = k.val → authentic = true → timely = true → fieldAt p 3 1 % 2 = 1 →
      Acts (.sensorFrame d p n) d s e fun u v => only u v ∧ v.err = u.err ∧
        v.sep.sensor k = { x with lastSeq := seq, seqSeen := true, frame := some frame, healthy := true, state := .fresh }) ∧
    (z.awake domSep = true → 2 ≤ p.length → fieldAt p 1 1 = k.val → authentic = true → timely = true → fieldAt p 3 1 % 2 = 0 →
      Acts (.sensorFrame d p n) d s e fun u v => only u v ∧
        v.sep.sensor k = { x with lastSeq := seq, seqSeen := true, frame := some frame, healthy := false, state := .absent,
                                  unhealthyDone := true }) ∧
    ((let r := s.reach d (Die.dueStale k); let y := (r.die d).sep.sensor k
      y.state = .fresh ∧ (match y.frame, (r.die d).sep.geom.sensor k with
        | some f, some g => decide ((g.maxAge : Int) < diff32 (r.die d).time.ns f.ts)
        | _, _ => false) = true) →
      Acts (.sensorStale d k) d s (s.reach d (Die.dueStale k)) fun u v => only u v ∧
        v.sep.sensor k = { (u.sep.sensor k) with state := .absent, unhealthyDone := false }) ∧
    OnReg (.sensorKeyLoad d k word3) d 26 s (fun u v => v.core = { u.core with sep := v.sep, host := u.okHost } ∧
      v.sep = { u.sep with sensors := v.sep.sensors } ∧ (∀ j : Fin 16, j ≠ k → v.sep.sensor j = u.sep.sensor j) ∧
      (v.sep.sensor k).key = some (((u.sep.sensor k).keyWords.set 3 word3).toList.flatMap fun w => leBytes 4 w.toNat) ∧
      (v.sep.sensor k).state = (if (u.sep.sensor k).state = .unused then .unused else .absent) ∧
      (v.sep.sensor k).lastSeq = (u.sep.sensor k).lastSeq ∧ (v.sep.sensor k).seqSeen = (u.sep.sensor k).seqSeen)

/-- The monitor's phases give targets and rows; a difference or an overrun stops; host scale and CLEAR (R124, R125,
R128, R129, R132, R133, R134, R136). Choices of the model: The difference is an operand (log entry 39). -/
def Obligations.SepMonitor : Prop :=
  ∀ (d : DieId) (a : Fin 16) (w : Fin 4) (differ : BitVec 16) (differR : BitVec 4) (v : BitVec 16) (s : State),
    let u := s.die d
    let p := u.sep
    let lowest (v : Die) (w : Nat) : Nat :=
      ((p.geom.arms.filter fun x => x.region = w).map fun x => (v.sep.arm x.arm).target.toNat).foldl min 32768
    (p.phaseS = true → differ = 0 → u.phaseSOutput.2 = [] → Acts (.phaseSEnd d differ) d s s fun u v =>
      v.core = { u.core with sep := v.sep } ∧ v.sep.phaseS = false ∧ v.sep.state = p.state ∧
      vget v.sep.cnt 0 = satInc (vget p.cnt 0) ∧ v.sep.sensors = p.sensors ∧ v.sep.sample = p.sample ∧
      (∀ r ∈ u.phaseSOutput.1, (v.sep.arm r.arm).dmin = r.dmin ∧
        (v.sep.arm r.arm).target.toNat = (if (p.arm r.arm).held then 0 else r.target)) ∧
      (∀ x ∈ p.geom.arms, x.region < 4 → (v.sepRegion x.region).target.toNat = lowest v x.region)) ∧
    (p.phaseS = true → bit differ a = true → (p.geom.arm a).isSome = true → Answers (.phaseSEnd d differ) s fun t =>
      let v := t.die d
      v.sep.state = .stopped ∧ v.sep.mismatch = true ∧ vget v.sep.cnt 1 = satInc (vget p.cnt 1) ∧ v.sep.phaseS = false ∧
      (v.sep.arm a).held = true ∧ (v.sep.arm a).target = 0 ∧ (v.sep.arm a).limKind = 6 ∧
      (∀ j : Fin 128, (u.jnt j).used = true ∧ (u.jnt j).cfg.arm = a.val → 2 ≤ (v.jnt j).stop.toNat) ∧
      State.only d s t) ∧
    (p.phaseR = true → p.phaseS = false → differR = 0 → (u.region w).state ≠ .off → Acts (.phaseREnd d differR) d s s fun u v =>
      v.core = { u.core with sep := v.sep, sram := v.sram } ∧ Die.storesIn 0x024C0000 0x28000 u v ∧
      v.sep.phaseR = false ∧ v.sep.state = p.state ∧ v.sep.arms = p.arms ∧ v.sep.sensors = p.sensors ∧
      (v.sepRegion w).valid = true ∧ (v.sepRegion w).buf = ((u.sepRegion w).valid && !(u.sepRegion w).buf)) ∧
    (p.phaseR = true → p.phaseS = false → (u.region w).state ≠ .off → bit differR w = true → u.regionArms w ≠ [] →
      Answers (.phaseREnd d differR) s fun t => let v := t.die d
      v.sep.state = .stopped ∧ v.sep.mismatch = true ∧ vget v.sep.cnt 1 = satInc (vget p.cnt 1) ∧ v.sep.phaseR = false ∧
      (v.sepRegion w).valid = (u.sepRegion w).valid ∧ (v.sepRegion w).buf = (u.sepRegion w).buf ∧
      (∀ x ∈ u.regionArms w, (v.sep.arm x).held = true) ∧ State.only d s t) ∧
    (p.phaseS = true ∨ p.phaseR = true → Answers (.sepOverrun d) s fun t => let v := t.die d
      v.sep.state = .stopped ∧ v.sep.overrun = true ∧ vget v.sep.cnt 2 = satInc (vget p.cnt 2) ∧
      v.sep.phaseS = false ∧ v.sep.phaseR = false ∧ v.sep.sensors = p.sensors ∧
      (∀ x ∈ u.usedArms, (v.sep.arm x).held = true ∧ (v.sep.arm x).target = 0 ∧
        ∀ j ∈ u.armJoints x, 2 ≤ (v.jnt j).stop.toNat) ∧ State.only d s t) ∧
    ((p.arm a).pairTarget.toNat ≥ min 0x8000 v.toNat → OnReg (.sepHostScaleWrite d a v) d 26 s fun u w =>
      w.core = { u.core with sep := { p with arms := w.sep.arms }, host := u.okHost } ∧
      (∀ k : Fin 16, k ≠ a → w.sep.arm k = p.arm k) ∧
      w.sep.arm a = { (p.arm a) with hostScale := BitVec.ofNat 16 (min 0x8000 v.toNat) }) ∧
    ((p.arm a).pairTarget.toNat < min 0x8000 v.toNat → OnReg (.sepHostScaleWrite d a v) d 26 s fun u w =>
      w.core = { u.core with
        sep := { p with arms := w.sep.arms, scaleConflict := true, cnt := vupd p.cnt 4 satInc }
        host := u.okHost
        err := w.err } ∧
      (p.scaleConflict = true → w.err = u.err) ∧ (∀ k : Fin 16, k ≠ a → w.sep.arm k = p.arm k) ∧
      w.sep.arm a = { (p.arm a) with hostScale := BitVec.ofNat 16 (min 0x8000 v.toNat) }) ∧
    (p.state = .stopped → (∀ j : Fin 128, (u.jnt j).used = true ∧ (p.arm (u.jnt j).cfg.arm).held = true → (u.jnt j).atRest = true) →
      OnReg (.sepClear d) d 26 s fun u w =>
        w.core = { u.core with sep := { p with arms := w.sep.arms, state := .run }, host := u.okHost } ∧
        ∀ k : Fin 16, w.sep.arm k = { (p.arm k) with held := false }) ∧
    (p.state ≠ .stopped ∨ (∃ j : Fin 128, (u.jnt j).used = true ∧ (u.jnt j).cfg.arm < 16 ∧
        (p.arm (u.jnt j).cfg.arm).held = true ∧ (u.jnt j).atRest = false) →
      OnReg (.sepClear d) d 26 s fun u w => w.core = { u.core with host := u.refusedHost })

/-- QUEUE_SQUASH, QUEUE_CLR_CNT and QUEUE_CAP act on one queue or are refused (R150, R163, R164, R165, R173, R174). -/
def Obligations.QueueCommands : Prop :=
  ∀ (d : DieId) (q : Fin 1024) (cap : BitVec 9) (s : State),
    let x := (s.die d).queue q
    let frame (u v : Die) : Prop := v.core = { u.core with qrc := v.qrc, host := u.okHost } ∧
      (∀ k : Fin 1024, k ≠ q → v.queue k = u.queue k) ∧ v.qrc = { u.qrc with queues := v.qrc.queues }
    (x.used = true → x.cls = .hs → OnReg (.queueSquash d q) d 27 s fun u v => frame u v ∧
      (v.queue q).epoch = x.epoch + 1 ∧ (v.queue q).ring = x.ring.filter (·.commit) ∧ (v.queue q).port = x.port ∧
      (v.queue q).taken = 0 ∧ (v.queue q).cntSquash = satInc x.cntSquash ∧ (v.queue q).grant = x.grant ∧
      (v.queue q).cap = x.cap ∧ (v.queue q).cntStall = x.cntStall ∧ (v.queue q).cntUnderrun = x.cntUnderrun ∧
      (v.queue q).cntLate = x.cntLate) ∧
    (x.cls ≠ .hs → OnReg (.queueSquash d q) d 27 s fun u v => v.core = { u.core with host := u.refusedHost }) ∧
    OnReg (.queueClrCnt d q) d 27 s (fun u v => frame u v ∧
      v.queue q = { x with cntStall := 0, cntSquash := 0, cntUnderrun := 0, cntLate := 0 }) ∧
    (cap.toNat ≤ x.depth → OnReg (.queueCapWrite d q cap) d 27 s fun u v => frame u v ∧
      v.queue q = { x with cap := cap, grant := min x.grant cap.toNat }) ∧
    (x.depth < cap.toNat → OnReg (.queueCapWrite d q cap) d 27 s fun u v => v.core = { u.core with host := u.refusedHost })

/-- Stops act on the whole arm with the higher category, and end as the manual says (R194, R201, R203, R209, R210,
R211, R212, R653). Choices of the model: When the STOP field returns to 0 is a reading of the model (log entry
51). -/
def Obligations.JointStops : Prop :=
  ∀ (d : DieId) (j : Fin 128) (s : State),
    let u := s.die d
    let x := u.jnt j
    let dom := 2 + x.cfg.cluster
    let frame (u v : Die) : Prop := v.core = { u.core with joints := v.joints, axes := v.axes, qrc := v.qrc, err := v.err, host := v.core.host }
    let others (u v : Die) : Prop := ∀ k : Fin 128, k ≠ j → v.jnt k = u.jnt k
    let stops (cat arm : Nat) (u v : Die) : Prop := ∀ k : Fin 128,
      if (u.jnt k).used = true ∧ (u.jnt k).cfg.arm = arm then
        (let b := u.jnt k; let z := v.jnt k
         vget z.cnt 7 = satInc (vget b.cnt 7) ∧ z.pos = b.pos ∧ z.vel = b.vel ∧ z.regs = b.regs ∧ z.act = b.act ∧
         (cat ≤ b.stop.toNat → b.stopDone = false → z = { b with cnt := z.cnt }) ∧
         (b.stop.toNat < cat → z.req = none ∧ z.blend = none) ∧
         (b.stop.toNat < cat → cat = 1 → b.atRest = false → z.stop = 1 ∧ z.mode = (b.blend.elim b.mode (·.mode))) ∧
         (b.stop.toNat < cat → cat = 1 → b.atRest = true → b.blend = none → b.source ≠ 3 → b.host = none → z.stop = 0 ∧ z.source = 0 ∧ z.mode = b.mode) ∧
         (2 ≤ cat → z.stop.toNat = max b.stop.toNat cat) ∧
         (b.stop.toNat < cat → 2 ≤ cat → z.stopped = true ∧ z.pgBusy = false ∧ z.en = (b.en && cat != 3) ∧
          ∀ q ∈ u.jointQueues k, q < 1024 → (v.queue q).faultSquash = true))
      else v.jnt k = u.jnt k
    (x.used = true → x.stopped = true → x.atRest = true → OnReg (.restart d j) d dom s fun u v =>
      frame u v ∧ others u v ∧ v.core.host = u.okHost ∧ v.axes = u.axes ∧ v.qrc = u.qrc ∧ v.err = u.err ∧
      (v.jnt j).stopped = false ∧ (v.jnt j).stop = 0 ∧ (v.jnt j).mode = 0 ∧ (v.jnt j).source = 0 ∧
      (v.jnt j).law.hold = x.pos.toInt ∧ (v.jnt j).regs = x.regs ∧ (v.jnt j).cnt = x.cnt ∧
      (x.stop = 3 → (v.jnt j).en = (x.en || x.fresh.isSome) ∧ (v.jnt j).law.integ = (u.lawPar j).holdPreload) ∧ (x.stop ≠ 3 → (v.jnt j).en = x.en)) ∧
    (x.used = true → (x.stopped = false ∨ x.atRest = false) → OnReg (.restart d j) d dom s fun u v =>
      v.core = { u.core with host := u.refusedHost }) ∧
    (x.used = true → OnReg (.pathStop d j) d dom s fun u v => frame u v ∧ v.core.host = u.okHost ∧ stops 1 x.cfg.arm u v) ∧
    (x.used = true → OnReg (.quickStop d j) d dom s fun u v => frame u v ∧ v.core.host = u.okHost ∧ stops 2 x.cfg.arm u v) ∧
    (x.used = true → OnReg (.offStop d j) d dom s fun u v => frame u v ∧ v.core.host = u.okHost ∧ stops 3 x.cfg.arm u v) ∧
    (let r := s.reach d (Die.dueQstop j); let y := (r.die d).jnt j
     y.stop = 2 ∧ y.atRest = false ∧ y.cfg.qsTmaxMs * 1000000 ≤ ((r.die d).time.ns - y.stopNs).toNat →
       Acts (.qstopTimeout d j) d s r fun u v => frame u v ∧ v.core.host = u.core.host ∧ stops 3 y.cfg.arm u v) ∧
    (5 ≤ x.lost → x.fbLostDone = false → x.used = true → Acts (.fbLost d j) d s s fun u v => frame u v ∧ v.core.host = u.core.host ∧
      (v.jnt j).fbLostDone = true ∧ (v.jnt j).mode = 0 ∧ (v.jnt j).source = 0 ∧ (v.jnt j).law.hold = x.pos.toInt ∧
      ∀ k : Fin 128, (u.jnt k).used = true ∧ (u.jnt k).cfg.arm = x.cfg.arm →
        (v.jnt k).stop.toNat = max (u.jnt k).stop.toNat 2 ∧ vget (v.jnt k).cnt 7 = satInc (vget (u.jnt k).cnt 7)) ∧
    (13 ≤ x.lost → x.stop ≠ 3 → x.used = true → Acts (.fbLostOffStop d j) d s s fun u v => frame u v ∧ v.core.host = u.core.host ∧
      others u v ∧ (v.jnt j).stop = 3 ∧ (v.jnt j).stopped = true ∧ (v.jnt j).en = false) ∧
    (x.act.persist ≠ 0 → x.plausDue = true → x.plausDone = false → x.used = true →
      Acts (.plausFault d j) d s s fun u v => frame u v ∧ v.core.host = u.core.host ∧ (v.jnt j).plausDone = true ∧
        vget (v.jnt j).cnt 3 = satInc (vget x.cnt 3) ∧ ∀ k : Fin 128, (u.jnt k).used = true ∧ (u.jnt k).cfg.arm = x.cfg.arm →
          (v.jnt k).stop.toNat = max (u.jnt k).stop.toNat 2 ∧ vget (v.jnt k).cnt 7 = satInc (vget (u.jnt k).cnt 7)) ∧
    (8 ≤ x.restCnt → x.atRest = false → Acts (.jointAtRest d j) d s s fun u v =>
      v.core = { u.core with joints := v.joints } ∧ others u v ∧ (v.jnt j).atRest = true ∧ (v.jnt j).cnt = x.cnt ∧
      (x.stop = 1 → (v.jnt j).stop = 0 ∧ (v.jnt j).source = 0 ∧ (v.jnt j).mode = x.mode) ∧
      (x.stop = 2 → (v.jnt j).stop = 2 ∧ (v.jnt j).stopped = x.stopped ∧ (v.jnt j).mode = 0 ∧ (v.jnt j).source = 0) ∧
      (x.stop = 0 ∨ x.stop = 3 → (v.jnt j).stop = x.stop ∧ (v.jnt j).mode = x.mode ∧ (v.jnt j).source = x.source)) ∧
    (x.host.map (·.sigma) = some 0 → x.stop = 1 → x.atRest = true → Acts (.hostPathStopEnd d j) d s s fun u v =>
      v.core = { u.core with joints := v.joints } ∧ others u v ∧
      v.jnt j = { x with
        source := 0, host := none, path := none, stop := 0, law := { x.law with hold := if x.source = 0 then x.law.hold else x.sp.q } }) ∧
    ((x.host.map (·.sigma) ≠ some 0 ∨ x.atRest = false) → x.stop = 1 → Acts (.hostPathStopEnd d j) d s s fun u v =>
      v.core = u.core ∧ ∀ k : Fin 128, v.jnt k = u.jnt k)

/-- Mode requests, checks, blends, contact, profile moves and class F latches (R190, R197, R203, R204, R205, R206,
R207, R213, R652). Choices of the model: When counters count and what a profile starts from is a reading of the
model (log entry 52); CNT_F_OVERRUN see log entry 54. -/
def Obligations.JointHandover : Prop :=
  ∀ (d : DieId) (j : Fin 128) (mode source : BitVec 2) (w : BitVec 5) (r : HoReq) (q : Fin 1024) (s : State),
    let u := s.die d
    let x := u.jnt j
    let dom := 2 + x.cfg.cluster
    let others (u v : Die) : Prop := ∀ k : Fin 128, k ≠ j → v.jnt k = u.jnt k
    let frame (u v : Die) : Prop := v.core = { u.core with joints := v.joints, qrc := v.qrc, err := v.err, host := v.core.host } ∧ others u v
    let allowed : Prop := ¬(mode = 0 ∧ source ≠ 0) ∧ ¬(mode = 3 ∧ source = 0) ∧ (source ≠ 0 → (u.srcQueue j source).isSome = true) ∧ w.toNat ≤ 16
    let quiet : Prop := x.stopped = false ∧ x.stop = 0 ∧ x.blending = false ∧ x.req = none
    let hc : Nat := if source ≠ 0 then u.queueHc (u.srcQueue j source)
      else if x.source ≠ 0 then u.queueHc (u.srcQueue j x.source) else 1
    let law (m : BitVec 2) (f : LawState → LawState) : LawState × LawOut :=
      lawStep (u.lawPar j) x.cfg x.act m u.img.cell.tc r.c (u.checkSetpoint j r) x.pos.toInt x.vel.toInt (f { x.law with
        integ := 0, voff := none, limCnt := 0, entry := x.pos.toInt
        hold := if r.source = 0 then (u.checkSetpoint j r).q else x.law.hold
        phase := if m = 3 then 0 else 3 })
    let dueOut := s.reach d (Die.dueFOut j)
    let y := (dueOut.die d).jnt j
    (x.used = true → allowed → quiet → OnReg (.modeReq d j mode source w) d dom s fun u v => frame u v ∧ v.core.host = u.okHost ∧
      (v.jnt j).req = some { mode := mode, source := source, w := w.toNat, c := u.time.cyc + BitVec.ofNat 32 hc } ∧
      (v.jnt j).reqMode = mode ∧ (v.jnt j).reqSource = source ∧ (v.jnt j).reqBlend = w ∧ (v.jnt j).mode = x.mode ∧
      (v.jnt j).source = x.source ∧ (v.jnt j).law = x.law ∧ (v.jnt j).cnt = x.cnt) ∧
    (x.used = true → ¬(allowed ∧ quiet) → OnReg (.modeReq d j mode source w) d dom s fun u v =>
      v.core = { u.core with joints := v.joints, host := u.refusedHost } ∧ others u v ∧
      v.jnt j = { x with cnt := vupd x.cnt 1 satInc }) ∧
    (x.req = some r → r.prep = none → diff32 (r.c - 1) u.time.cyc ≤ 0 → x.cfg.library = true → x.cfg.outVel = false → r.mode ≠ 3 →
      (x.out.u - (law r.mode id).2.u).natAbs ≤ (u.lawPar j).iLim.toNat → 0 ≤ (u.lawPar j).iLim → Acts (.handoverCheck d j) d s s fun u v =>
        v.core = { u.core with joints := v.joints } ∧ others u v ∧ (v.jnt j).mode = x.mode ∧ (v.jnt j).source = x.source ∧
        vget (v.jnt j).cnt 0 = satInc (vget x.cnt 0) ∧ (v.jnt j).handoverSat = x.handoverSat ∧
        ((v.jnt j).req.bind (·.prep)).map (·.integ) = some (x.out.u - (law r.mode id).2.u)) ∧
    (x.req = some r → r.prep = none → diff32 (r.c - 1) u.time.cyc ≤ 0 → x.cfg.library = true → x.cfg.outVel = false → r.mode ≠ 3 →
      (u.lawPar j).iLim < ((x.out.u - (law r.mode id).2.u).natAbs : Int) → Acts (.handoverCheck d j) d s s fun u v =>
        v.core = { u.core with joints := v.joints, qrc := v.qrc, err := v.err } ∧ others u v ∧
        v.jnt j = { x with cnt := vupd x.cnt 1 satInc, req := none, handoverSat := true }) ∧
    (x.blend.any (fun b => decide ((b.w : Int) ≤ diff32 u.time.cyc b.c)) = true → Acts (.blendEnd d j) d s s fun u v =>
      v.core = { u.core with joints := v.joints } ∧ others u v ∧ v.jnt j = { x with blend := none, blending := false }) ∧
    (x.mode = 3 → x.law.phase = 0 → 4 ≤ x.law.limCnt → Acts (.forceContact d j) d s s fun u v =>
      v.core = { u.core with joints := v.joints } ∧ others u v ∧
      v.jnt j = { x with contact := true, law := { x.law with phase := 1, uRef := x.out.u } }) ∧
    (x.used = true → x.source = 2 → 0 < x.regs.pgVmax.toInt → 0 < x.regs.pgAmax.toInt → 0 < x.regs.pgDmax.toInt →
      0 < x.regs.pgJmax.toInt → OnReg (.pgGo d j) d dom s fun u v => frame u v ∧ v.core.host = u.okHost ∧
        (let last := u.time.cyc + BitVec.ofNat 32 (u.queueHc (u.pgQueue j)) - 1
         let p := u.pgPresent j last
         v.jnt j = { x with
           pgBusy := true
           pgPrev := if 0 < x.pg.since p.2 then some x.pg else x.pgPrev
           pg := ProfGen.move p.1.1 p.1.2.1 p.1.2.2 p.2 x.regs })) ∧
    (x.used = true → x.source ≠ 2 → OnReg (.pgGo d j) d dom s fun u v => v.core = { u.core with host := u.refusedHost }) ∧
    (x.pgBusy = true → (x.pg.length : Int) ≤ x.pg.since (u.tauAt x.region u.time.cyc) → Acts (.pgMoveDone d j) d s s fun u v =>
      v.core = { u.core with joints := v.joints } ∧ others u v ∧ v.jnt j = { x with pgBusy := false }) ∧
    (y.used = true → y.cfg.classF = true → (dueOut.die d).driving = true → (dueOut.die d).txQueue y.cfg.lane y.roleNum = some q.val →
      (∀ t ∈ ((dueOut.die d).lane y.cfg.lane).taken, t.role = y.roleNum → t.cyc ≠ (dueOut.die d).time.cyc) →
      (((dueOut.die d).queue q).ring.any fun e => e.commit && decide (e.tgt = tgtOf (dueOut.die d).time.cyc)) = false →
      Acts (.fOutLatch d j) d s dueOut fun u v => v.core = { u.core with joints := v.joints, qrc := v.qrc, lanes := v.lanes, err := v.err } ∧
        others u v ∧ v.jnt j = { (u.jnt j) with cnt := vupd (u.jnt j).cnt 6 satInc } ∧
        (v.queue q).cntUnderrun = satInc (u.queue q).cntUnderrun ∧ ∀ k : Fin 1024, k ≠ q → v.queue k = u.queue k) ∧
    (y.used = true → y.cfg.classF = true → (dueOut.die d).driving = true → (dueOut.die d).txQueue y.cfg.lane y.roleNum = some q.val →
      (∀ t ∈ ((dueOut.die d).lane y.cfg.lane).taken, t.role = y.roleNum → t.cyc ≠ (dueOut.die d).time.cyc) →
      (((dueOut.die d).queue q).ring.any fun e => e.commit && decide (e.tgt = tgtOf (dueOut.die d).time.cyc)) = true →
      Acts (.fOutLatch d j) d s dueOut fun u v => v.core = { u.core with qrc := v.qrc, lanes := v.lanes } ∧
        (v.queue q).cntUnderrun = (u.queue q).cntUnderrun ∧
        (v.queue q).ring.all (fun e => !(e.commit && decide (e.tgt = tgtOf u.time.cyc))) = true ∧
        ∀ k : Fin 1024, k ≠ q → v.queue k = u.queue k)

/-- Small axes ramp, compare, brake and take commands or refuse them (R223, R225, R226, R238, R239, R243, R244,
R245, R246, R247). Choices of the model: GO on a standby die is refused (log entry 44). -/
def Obligations.AxisMoves : Prop :=
  ∀ (d : DieId) (a : Fin 16) (v : BitVec 32) (low : Bool) (s : State),
    let u := s.die d
    let x := u.axis a
    let one (u v : Die) : Prop := v.core = { u.core with axes := v.axes } ∧ ∀ k : Fin 16, k ≠ a → v.axis k = u.axis k
    let cmd (u v : Die) : Prop := v.core = { u.core with axes := v.axes, host := u.okHost } ∧ ∀ k : Fin 16, k ≠ a → v.axis k = u.axis k
    let refused (u v : Die) : Prop := v.core = { u.core with host := u.refusedHost }
    let t : Int := x.target.toInt
    let neg : Bool := if x.vt = 0 then decide (t < x.pint) else x.neg
    let dir : Int := if neg then -1 else 1
    let v0 : Nat := if x.vt = 0 then x.lim.vstart else x.vt
    let sq (n : Nat) : Rat := ((n * n : Nat) : Int)
    let dstop : Rat := if x.lim.v1 = 0 then (sq v0 - sq x.lim.floor) / (2 * x.lim.d2 : Nat)
      else if x.lim.v1 < v0 then (sq v0 - sq x.lim.v1) / (2 * x.lim.d2 : Nat) + (sq x.lim.v1 - sq x.lim.floor) / (2 * x.lim.d1 : Nat)
      else (sq v0 - sq x.lim.floor) / (2 * x.lim.d1 : Nat)
    let brake (fl : Nat) : Nat := max fl (v0 - if x.lim.v1 < v0 then x.lim.d2 else x.lim.d1)
    let rem : Int := (t * 2 ^ 48 - x.p) * dir
    let v1 : Nat := if rem < 0 then brake 0 else if (rem : Rat) ≤ dstop then brake x.lim.floor
      else if v0 < x.lim.vmax then min x.lim.vmax (v0 + if v0 < x.lim.v1 then x.lim.a1 else x.lim.a2) else v0
    let p1 : Int := Int.emod (x.p + dir * v1 + 2 ^ 79) (2 ^ 80) - 2 ^ 79
    let now : Int := Int.fdiv p1 (2 ^ 48)
    let crossed : Bool := (if neg then decide (now ≤ t ∧ t ≤ x.pint) else decide (x.pint ≤ t ∧ t ≤ now)) && decide (x.pint ≠ t ∨ now ≠ t)
    let arrives : Bool := crossed && decide (v1 ≤ x.lim.floor)
    let n := x.lastTick + 250 - u.time.per
    let f := s.elapse n
    let ticks : Prop := u.ticksIn n = some n ∧ u.red.grant = true ∧ x.inRaw = x.inFilt ∧ (∀ k : Fin 3, u.pinActive a k = bit x.inRaw k)
    let id (v : W16) : Prop := bits v 13 0 = bits (u.uidAxis a) 13 0
    let mine (q : Fin 1024) : Prop := (u.queue q).used = true ∧
      (((u.queue q).cls = .pw ∧ id (u.queue q).cons) ∨ ((u.queue q).cls = .hs ∧ ((u.queue q).feeds.elim false fun v => decide (id v)) = true))
    let squashes (w : Die) : Prop := ∀ q : Fin 1024, w.queue q = if mine q then { (u.queue q) with faultSquash := true } else u.queue q
    (ticks → x.state = .moving → x.motion = .target → (x.vt ≠ 0 ∨ x.pint ≠ t) → x.cmpWrite = false → x.armed = false →
      Acts (.seqTick d a) d s f fun u w => one u w ∧
        (w.axis a).p = (if arrives then t * 2 ^ 48 else p1) ∧ (w.axis a).vt = (if arrives then 0 else v1) ∧
        (w.axis a).neg = neg ∧ (w.axis a).target = x.target ∧
        (x.vt ≠ 0 → w.axis a = { x with
          p := (w.axis a).p, vt := (w.axis a).vt, phase := (w.axis a).phase, ampSel := (w.axis a).ampSel
          holdLeft := (w.axis a).holdLeft, stepOut := (w.axis a).stepOut, stepAt := (w.axis a).stepAt
          stepOwed := (w.axis a).stepOwed, lastTick := x.lastTick + 250 })) ∧
    (ticks → x.state ≠ .off → x.state ≠ .fault → x.motion = .none → x.vt = 0 → x.state ≠ .homing → x.cmpWrite = true → x.cmpPos.toInt = x.pint →
      Acts (.seqTick d a) d s f fun u w => one u w ∧ (w.axis a).fired = true ∧ (w.axis a).cmpTime = u.time.ns ∧
        vget (w.axis a).cnt 2 = satInc (vget x.cnt 2) ∧ (w.axis a).armed = (x.bothDir && x.cont) ∧
        (w.axis a).cmpOut = (x.cmpOut || x.pin) ∧ (w.axis a).p = x.p ∧ (w.axis a).vt = 0) ∧
    (u.ticksIn n = some n → x.state ≠ .off → x.state ≠ .homing → Acts (.seqTick d a) d s f fun u w => ∀ k : Fin 3, bit x.inRaw k ≠ u.pinActive a k → x.debounce ≠ 0 →
      bit (w.axis a).inRaw k = u.pinActive a k ∧ vget (w.axis a).rawAt k = u.time.per ∧ vget (w.axis a).rawEdge k = (w.axis a).pos ∧
        bit (w.axis a).inFilt k = bit x.inFilt k) ∧
    (x.state = .moving → x.motion = .target → x.vt = 0 → x.pint = t → Acts (.axMoveDone d a) d s s fun u w => one u w ∧
      w.axis a = { x with state := .rest, motion := .none, phase := 0 }) ∧
    (x.state = .stopping → x.vt = 0 → (x.motion = .brake true ∨ x.motion = .brake false) → Acts (.axBrakeDone d a) d s s fun u w => one u w ∧
      (x.stop = 2 → w.axis a = { x with state := .stopped, motion := .none, stop := 2, ampSel := 0 }) ∧
      (x.stop ≠ 2 → w.axis a = { x with state := .rest, motion := .none, stop := 0 })) ∧
    ((x.state = .rest ∨ x.state = .moving) → (x.targetReg.toInt = x.pint ∨ x.limActive (decide (x.targetReg.toInt < x.pint)) = false) →
      u.axLimitsOk a x.regs.vmax = true → u.red.grant = true → OnReg (.axGo d a) d 33 s fun u w => cmd u w ∧
        w.axis a = { x with
          state := .moving, motion := .target, target := x.targetReg, act := x.regs
          lim := x.regs.limits x.cfg.c60 x.regs.vmax
          cnt := vset (vset x.cnt 0 (satInc (vget x.cnt 0))) 1
            (if x.vt ≠ 0 ∧ (x.targetReg.toInt * 2 ^ 48 - x.p) * (if x.neg then -1 else 1) < 0 then satInc (vget x.cnt 1) else vget x.cnt 1) }) ∧
    (((x.state ≠ .rest ∧ x.state ≠ .moving) ∨ (x.targetReg.toInt ≠ x.pint ∧ x.limActive (decide (x.targetReg.toInt < x.pint)) = true) ∨
      u.axLimitsOk a x.regs.vmax = false ∨ u.red.grant = false) → OnReg (.axGo d a) d 33 s refused) ∧
    (x.state = .moving → x.vt ≠ 0 → x.stop = 0 → OnReg (.axPathStop d a) d 33 s fun u w => cmd u w ∧
      w.axis a = { x with state := .stopping, stop := 1, motion := .brake false, waitStep := false }) ∧
    ((x.state = .moving ∨ x.state = .stopping) → x.vt ≠ 0 → x.stop.toNat < 2 → OnReg (.axQuickStop d a) d 33 s fun u w =>
      w.core = { u.core with axes := w.axes, qrc := w.qrc, host := u.okHost } ∧ (∀ k : Fin 16, k ≠ a → w.axis k = u.axis k) ∧
      squashes w ∧
      w.axis a = { x with state := .stopping, stop := 2, motion := .brake true, waitStep := false }) ∧
    ((x.state = .rest ∨ x.state = .moving ∨ x.state = .stopping) → x.stop.toNat < 3 → OnReg (.axOffStop d a) d 33 s fun u w =>
      w.core = { u.core with axes := w.axes, qrc := w.qrc, host := u.okHost } ∧ (∀ k : Fin 16, k ≠ a → w.axis k = u.axis k) ∧
      squashes w ∧
      w.axis a = { x with
        state := .stopped, stop := 3, safe := true, vt := 0, motion := .none, phase := 0, waitStep := false, pausing := false
        ampSel := if x.vt = 0 then x.ampSel else 1, holdLeft := if x.vt = 0 then x.holdLeft else x.holdDelayUse.toNat * 1000
        homed := x.homed && decide (x.vt = 0) }) ∧
    (x.state = .stopped → x.vt = 0 → OnReg (.axRestart d a) d 33 s fun u w => cmd u w ∧
      w.axis a = { x with state := .rest, stop := 0, safe := false }) ∧
    (x.state ≠ .stopped ∨ x.vt ≠ 0 → OnReg (.axRestart d a) d 33 s refused) ∧
    (x.state = .rest → OnReg (.axPosSet d a v) d 33 s fun u w => cmd u w ∧
      w.axis a = { x with p := v.toInt * 2 ^ 48, homed := false } ∧ (w.axis a).pos = v) ∧
    (x.state ≠ .rest → OnReg (.axPosSet d a v) d 33 s refused) ∧
    (x.state = .fault → x.fltAsserted = false → OnReg (.axClrFault d a) d 33 s fun u w => cmd u w ∧
      w.axis a = { x with state := .rest, safe := false, stop := 0 }) ∧
    (x.state ≠ .fault ∨ x.fltAsserted = true → OnReg (.axClrFault d a) d 33 s refused) ∧
    (x.state ≠ .off → x.state ≠ .fault → x.inHoming = false → u.ballUsed (.saFlt a) = true → Answers (.bridgeFault a true) s fun t => t.pending = s.pending ∧
      (let w := t.die d
       w.core = { u.core with axes := w.axes, err := w.err, joints := w.joints, qrc := w.qrc } ∧
      w.axis a = { x with
        state := .fault, bridgeFlt := true, safe := true, homed := x.homed && decide (x.vt = 0), vt := 0, motion := .none
        ampSel := if x.vt = 0 then x.ampSel else 1, holdLeft := if x.vt = 0 then x.holdLeft else x.holdDelayUse.toNat * 1000
        phase := 0, waitStep := false, pausing := false, fltAsserted := true, cnt := vupd x.cnt 5 satInc } ∧
      (x.cfg.bind = true → ∀ j : Fin 128, (u.jnt j).used = true ∧ (u.jnt j).cfg.arm = x.cfg.arm.toNat →
        (w.jnt j).stop.toNat = max (u.jnt j).stop.toNat 2) ∧ (x.cfg.bind = false → w.joints = u.joints))) ∧
    (x.state = .off ∨ x.state = .fault ∨ low = false → u.ballUsed (.saFlt a) = true → Answers (.bridgeFault a low) s fun t => t.pending = s.pending ∧
      one u (t.die d) ∧ (t.die d).axis a = { x with fltAsserted := low })

/-- Homing searches, backs off, latches and fails as its state machine says (R237, R240, R241, R242, R251). Choices
of the model: The pause of a homing is a reading of the model (log entry 45); the levels of the inputs are
operands (log entry 43). -/
def Obligations.AxisHoming : Prop :=
  ∀ (d : DieId) (a : Fin 16) (k : Fin 3) (active level : Bool) (s : State),
    let u := s.die d
    let x := u.axis a
    let others (u v : Die) : Prop := ∀ k : Fin 16, k ≠ a → v.axis k = u.axis k
    let one (u v : Die) : Prop := v.core = { u.core with axes := v.axes, err := v.err } ∧ others u v
    let cmd (u v : Die) : Prop := v.core = { u.core with axes := v.axes, host := u.okHost } ∧ others u v
    let put (w : BitVec 3) : BitVec 3 := (w &&& ~~~BitVec.ofNat 3 (2 ^ k.val)) ||| if active then BitVec.ofNat 3 (2 ^ k.val) else 0
    let y : Axis := { x with inFilt := put x.inFilt }
    let n := vget x.rawAt k + 250 * x.debounce.toNat - u.time.per
    let f := s.elapse n
    let edge := vget x.rawEdge k
    let holds : Prop := (u.ballUsed (.saIn a k) && (level != bit x.inPol k)) = active ∧ bit x.inPin k = level ∧ bit x.inRaw k = active ∧ bit x.inFilt k ≠ active ∧
      u.ticksIn n = some n ∧ x.state ≠ .off
    let settles (post : Die → Die → Prop) : Prop := Answers (.axInputChange d a k level) s fun t => t.pending = s.pending ∧ post (f.die d) (t.die d) ∧
      (let p := f.die d.peer; let v := t.die d.peer; v.core = { p.core with axes := v.axes, err := v.err } ∧ others p v)
    let free : Prop := x.inFilt.toNat < 2
    let failed (w : Axis) (err : BitVec 3) (dstop : Bool) : Prop := w.homeSt = 7 ∧ w.homeErr = err ∧ w.homed = false ∧
      w.motion = .brake dstop ∧ w.p = x.p ∧ w.vt = x.vt ∧ w.waitStep = false
    let enters (w : Axis) (host : Bool) (st : BitVec 3) (m : AxMotion) : Prop := w.homeSt = st ∧ w.p = x.p ∧ w.vt = x.vt ∧
      (if host then w.heldMotion = m ∧ (if x.vt = 0 then w.waitStep = true ∧ w.motion = .none else w.pausing = true ∧ w.motion = .brake false)
       else w.motion = m)
    let homing : Prop := x.state = .homing
    let input (u w : Die) : Prop := one u w ∧ (w.axis a).inFilt = put x.inFilt ∧ (w.axis a).inRaw = x.inRaw ∧ (w.axis a).cnt = x.cnt
    (x.state = .rest → u.axLimitsOk a x.regs.vmax = true → u.red.grant = true → free →
      OnReg (.homeGo d a) d 33 s fun u w => cmd u w ∧ (w.axis a).state = .homing ∧ (w.axis a).act = x.regs ∧ (w.axis a).homed = false ∧
        (w.axis a).homeErr = 0 ∧ (w.axis a).homeStart = x.p ∧ enters (w.axis a) x.regs.hostStep (if bit x.inFilt 0 then 3 else 1)
          (.seek (x.regs.homeNeg != bit x.inFilt 0))) ∧
    (x.state ≠ .rest ∨ u.axLimitsOk a x.regs.vmax = false ∨ u.red.grant = false →
      OnReg (.homeGo d a) d 33 s fun u w => w.core = { u.core with host := u.refusedHost }) ∧
    (homing → x.waitStep = true → x.vt = 0 → x.homeSt ≠ 5 → x.homeSt ≠ 6 → free → OnReg (.homeStep d a) d 33 s fun u w => cmd u w ∧
      w.axis a = { x with waitStep := false, motion := x.heldMotion, heldMotion := .none }) ∧
    (x.waitStep = false → OnReg (.homeStep d a) d 33 s fun u w => w.core = { u.core with host := u.refusedHost }) ∧
    (holds → homing → k = 0 → active = true → (x.homeSt = 1 ∨ x.homeSt = 2) → free → settles fun u w => input u w ∧
      (w.axis a).state = .homing ∧ enters (w.axis a) x.act.hostStep 3 (.seek (!x.act.homeNeg))) ∧
    (holds → homing → k = 0 → active = true → x.homeSt = 4 → settles fun u w => input u w ∧
      (w.axis a).homeSt = 5 ∧ (w.axis a).edge = edge ∧ (w.axis a).motion = .brake false ∧ (w.axis a).p = x.p) ∧
    (holds → homing → k = 0 → active = false → x.homeSt = 3 → x.waitStep = false → x.pausing = false → settles fun u w => input u w ∧
      (w.axis a).homeSt = 3 ∧ (w.axis a).motion = .target ∧
      (w.axis a).target = (if x.act.homeNeg then edge + x.act.homeBackoff else edge - x.act.homeBackoff)) ∧
    (holds → homing → x.waitStep = false → k ≠ 0 → active = true → x.homeSt = 1 → (k = 1 ↔ x.act.homeNeg = true) → x.act.revOnLimit = true → x.act.hostStep = false →
      settles fun u w => input u w ∧ (w.axis a).homeSt = 2 ∧
        (w.axis a).motion = .brake true ∧ (w.axis a).afterBrake = .seek (!x.act.homeNeg)) ∧
    (holds → homing → x.waitStep = false → k ≠ 0 → active = true → (x.homeSt = 1 ∧ x.act.revOnLimit = false ∧ (k = 1 ↔ x.act.homeNeg = true)) ∨
        (x.homeSt = 2 ∧ ¬(k = 1 ↔ x.act.homeNeg = true)) ∨ x.homeSt = 3 ∨ x.homeSt = 4 →
      settles fun u w => input u w ∧ failed (w.axis a) 1 true) ∧
    (holds → x.state = .moving → active = true → x.limEn = true → x.vt ≠ 0 → (k = 1 ∧ x.neg = true ∨ k = 2 ∧ x.neg = false) →
      settles fun u w => one u w ∧
        w.axis a = { y with
          state := .stopping, motion := .brake true, cnt := vupd x.cnt 3 satInc
          limNegHit := x.limNegHit || x.neg, limPosHit := x.limPosHit || !x.neg }) ∧
    (holds → x.state ≠ .homing → (active = false ∨ x.limEn = false ∨ x.vt = 0) → settles fun u w => one u w ∧
      w.err = u.err ∧ w.axis a = y) ∧
    (bit x.inPin k ≠ level → bit x.inRaw k = bit x.inFilt k ∨ u.time.per < 250 * x.debounce.toNat + vget x.rawAt k →
      Answers (.axInputChange d a k level) s fun t => t.pending = s.pending ∧ one ((s.elapse 0).die d) (t.die d) ∧
        (t.die d).axis a = { x with inPin := (x.inPin &&& ~~~BitVec.ofNat 3 (2 ^ k.val)) ||| if level then BitVec.ofNat 3 (2 ^ k.val) else 0 }) ∧
    (x.chatN ≠ 0 → bit x.chatDue k = true → homing → x.homeSt ≠ 6 → x.homeSt ≠ 7 → Acts (.chatterDetect d a k) d s s fun u w => one u w ∧
      failed (w.axis a) 2 false ∧ vget (w.axis a).cnt 4 = satInc (vget x.cnt 4)) ∧
    (x.chatN ≠ 0 → bit x.chatDue k = true → x.state ≠ .homing → x.state ≠ .off → Acts (.chatterDetect d a k) d s s fun u w => one u w ∧
      (bit x.chatterDone k = true → w.err = u.err) ∧
      w.axis a = { x with chatDue := x.chatDue &&& ~~~BitVec.ofNat 3 (2 ^ k.val), chatter := true, chatterDone := x.chatterDone ||| BitVec.ofNat 3 (2 ^ k.val), cnt := vupd x.cnt 4 satInc }) ∧
    (homing → x.homeSt = 3 → free → x.vt = 0 → x.motion = .target → x.pint = x.target.toInt → Acts (.axMoveDone d a) d s s fun u w => one u w ∧
      (w.axis a).state = .homing ∧ enters (w.axis a) x.act.hostStep 4 (.seek x.act.homeNeg)) ∧
    (homing → x.homeSt = 5 → x.vt = 0 → x.motion = .brake false → x.waitStep = false → x.act.hostStep = false →
      Acts (.axBrakeDone d a) d s s fun u w => one u w ∧ (w.axis a).homed = true ∧ (w.axis a).state = .rest ∧ (w.axis a).homeSt = 6 ∧
        (w.axis a).p = x.p + (x.act.homeOffset.toInt - x.edge.toInt) * 2 ^ 48) ∧
    (homing → x.homeSt = 7 → x.vt = 0 → (x.motion = .brake false ∨ x.motion = .brake true) → Acts (.axBrakeDone d a) d s s fun u w => one u w ∧
      w.axis a = { x with state := .rest, motion := .none })

/-- PWM, drive sets, compare and step outputs of a small axis (R229, R230, R231, R232, R233, R236, R238, R239,
R246). Choices of the model: Sine and cosine are those of log entry 31; which die's counter leads see log entry
43. -/
def Obligations.AxisOutputs : Prop :=
  ∀ (d : DieId) (a : Fin 16) (v : BitVec 32) (q : Fin 1024) (s : State),
    let u := s.die d
    let x := u.axis a
    let one (u v : Die) : Prop := v.core = { u.core with axes := v.axes } ∧ ∀ k : Fin 16, k ≠ a → v.axis k = u.axis k
    let f := s.reach d (Die.dueDriveSet a)
    let fd := f.die d
    let group := fd.findQueue (fun q => decide (q.cls = .pw) && decide (bits q.cons 13 0 = bits (fd.uidAxis a) 13 0)) = some q.val
    let pwm : Prop := u.pwm.start ≤ u.time.per
    let mine (e : QEntry) : Bool := e.commit && decide (e.tgt = tgtOf fd.time.cyc)
    ((u.ticksToPeak a).isSome = true → pwm → Acts (.pwmPeak d a) d s (s.elapse ((u.ticksToPeak a).getD 0)) fun u w => one u w ∧
      u.pwmCount a = u.pwm.top.toNat ∧
      w.axis a = { x with
        ampHoldUse := x.ampHold, ampRunUse := x.ampRun, ampAccUse := x.ampAcc, keUse := x.ke, holdDelayUse := x.holdDelay, peakAt := some u.time.per
        peak := { angle := (x.pint % 64).toNat, v := (if x.neg then -1 else 1) * x.vt, hold := x.ampHold, ke := x.ke
                  amp := if x.ampSel = 0 then x.ampHold else if x.ampSel = 1 then x.ampRun else x.ampAcc } }) ∧
    (x.underrun = 0 → (u.ticksToValley a).isSome = true → pwm →
      Acts (.pwmValley d a) d s (s.elapse ((u.ticksToValley a).getD 0)) fun u w => one u w ∧ u.pwmCount a = 0 ∧
      (let amp : Rat := qv 15 x.peak.amp.toNat * qv 14 x.rkLatch.toNat
       let e : Rat := qv 15 x.peak.ke.toNat * mkRat (x.peak.v * 1000000) (2 ^ 48) / 65536
       let i := x.peak.angle
       w.axis a = { x with
         rk := x.rkLatch, en := x.enLatch, valleyAt := some u.time.per, homed := x.homed && (x.enLatch || decide (x.vt = 0))
         duty := (ratClamp 1 (amp * qv 15 (cosStep i) - e * qv 15 (sinStep i)), ratClamp 1 (amp * qv 15 (sinStep i) + e * qv 15 (cosStep i))) })) ∧
    (x.underrun = 1 → (u.ticksToValley a).isSome = true → pwm →
      Acts (.pwmValley d a) d s (s.elapse ((u.ticksToValley a).getD 0)) fun u w => one u w ∧
        w.axis a = { x with underrun := 2, valleyAt := some u.time.per }) ∧
    (x.underrun = 2 → (u.ticksToValley a).isSome = true → pwm →
      Acts (.pwmValley d a) d s (s.elapse ((u.ticksToValley a).getD 0)) fun u w => one u w ∧
      (let amp : Rat := qv 15 x.peak.hold.toNat
       let i := x.peak.angle
       w.axis a = { x with
         rk := 0x4000, valleyAt := some u.time.per, duty := (ratClamp 1 (amp * qv 15 (cosStep i)), ratClamp 1 (amp * qv 15 (sinStep i))) })) ∧
    (group → ((fd.queue q).ring.any mine) = true → Acts (.driveSetLatch d a) d s f fun u w =>
      let word := ((((u.queue q).ring.find? mine).bind fun e => e.payload[0]?).getD 0)
      let rk := bits word 15 0
      w.core = { u.core with axes := w.axes, qrc := w.qrc } ∧ (∀ k : Fin 16, k ≠ a → w.axis k = u.axis k) ∧
      (w.axis a).enLatch = bit word 16 ∧ (w.axis a).underrun = 0 ∧
      (w.axis a).rkLatch.toNat = max 0x4000 (min 0x7FFF rk) ∧
      (w.axis a).rkClamp = ((u.axis a).rkClamp || decide (rk < 0x4000 ∨ 0x8000 ≤ rk)) ∧
      ∀ k : Fin 1024, k ≠ q → w.queue k = u.queue k) ∧
    (group → ((fd.queue q).ring.any mine) = false → Acts (.driveSetLatch d a) d s f fun u w =>
      w.core = { u.core with axes := w.axes, qrc := w.qrc, err := w.err } ∧ (∀ k : Fin 16, k ≠ a → w.axis k = u.axis k) ∧
      w.axis a = { (u.axis a) with underrun := if (u.axis a).underrun = 0 then 1 else (u.axis a).underrun } ∧
      (w.queue q).cntUnderrun = satInc (u.queue q).cntUnderrun) ∧
    (x.vt = 0 → x.holdLeft = 0 → Acts (.ampHoldDelayEnd d a) d s s fun u w => one u w ∧ w.axis a = { x with ampSel := 0, holdLeft := 0 }) ∧
    OnReg (.axCmpArm d a v) d 33 s (fun u w =>
      w.core = { u.core with axes := w.axes, host := u.okHost } ∧ (∀ k : Fin 16, k ≠ a → w.axis k = u.axis k) ∧
      w.axis a = { x with
        cmpPos := v, cmpWrite := true
        behind := x.behind || (decide (x.vt ≠ 0) && decide ((v.toInt - x.pint) * (if x.neg then -1 else 1) < 0)) }) ∧
    ((u.ticksToCmpEnd a).isSome = true → Acts (.cmpPulseEnd d a) d s (s.elapse (x.cmpEnd - u.time.per)) fun u w => one u w ∧
      w.axis a = { x with cmpOut := false }) ∧
    ((u.ticksToStepEnd a).isSome = true → Acts (.stepPulseEnd d a) d s (s.elapse (x.stepAt + u.pwm.stepPw.toNat - u.time.per)) fun u w => one u w ∧
      w.axis a = { x with stepOut := false })

/-- Incremental ports count edges, judge the index, sample at the strobe and take commands (R255, R257, R260, R262,
R263, R265, R271, R274, R275, R276, R277, R278, R279, R281, R286). Choices of the model: When the writes act,
and at which strobe on a port that is behind, are readings of the model (log entries 46 and 118); levels and
their time are operands (log entry 41). -/
def Obligations.EncoderCounts : Prop :=
  ∀ (d : DieId) (k : Fin 16) (la lb : Bool) (n : Nat) (v : BitVec 32) (q : Fin 1024) (g : InEdge) (s : State),
    let u := s.die d
    let x := u.enc k
    let others (w : Die) : Prop := ∀ j : Fin 16, j ≠ k → w.enc j = u.enc j ∧ w.encPins[j.val]? = u.encPins[j.val]?
    let counts : Prop := x.state ≠ .off ∧ x.cfg.mode = 1
    let calm : Prop := (u.pending.all fun i => decide (u.time.per < i.due)) = true
    let kept : Prop := u.encRaw k 0 = la ∧ u.encRaw k 1 = lb
    let due : Prop := u.pending = [g] ∧ x.pend = [g] ∧ u.clkPer = true ∧ u.time.per ≤ g.due ∧ g.due ≤ u.time.per + n
    let then' := (u.elapse (g.due - u.time.per)).time.ns
    let after := ((u.elapse (g.due - u.time.per)).elapse (n - (g.due - u.time.per))).aged n
    let ran (w : Die) : Prop := w.core = { after.core with encs := w.encs, encPins := w.encPins, err := w.err } ∧ others w
    let a := if g.ch = 0 then g.level else x.a
    let b := if g.ch = 1 then g.level else x.b
    let step : Int := match x.a, x.b, a, b with
      | false, false, true, false => 1 | true, false, true, true => 1 | true, true, false, true => 1 | false, true, false, false => 1
      | true, false, false, false => -1 | true, true, true, false => -1 | false, true, true, true => -1 | false, false, false, true => -1
      | _, _, _, _ => 0
    let rev : Bool := x.hasDir && (x.dir != decide (step < 0))
    let set : Bool := (u.elapse (g.due - u.time.per)).encSetting k
    let c := if set then x.setTo.getD 0 else x.count
    let judged : Prop := x.idxLast.isSome = true ∧ x.act.lines ≠ 0 ∧ x.idxFirst = false ∧ x.idxFresh = false ∧ x.revRev = false ∧
      x.revPend = none ∧ set = false
    let err := (((x.count - x.idxLast.getD 0).toInt.natAbs : Int) - 4 * x.act.lines.toNat).natAbs
    let gate : Prop := x.cfg.idxGate = false ∨ (x.a = true ∧ x.b = true)
    let f := s.reach d (Die.dueSample k)
    let z := f.die d
    let y := z.enc k
    let one (w : Die) : Prop := w.core = { z.core with encs := w.encs, qrc := w.qrc, err := w.err, fresh := w.fresh } ∧ ∀ j : Fin 16, j ≠ k → w.enc j = z.enc j
    let gap : Nat := (z.time.ns - y.edgeNs).toNat
    let plain : Prop := y.state ≠ .off ∧ y.cfg.mode = 1 ∧ y.setTo = none ∧ y.clrFault = false ∧ y.clrCnt = false
    let p := s.die d.peer
    let linked : Prop := u.red.linkUp = true ∧ p.awake 33 = true
    let held (f : Enc → Enc) (v o : Die) : Enc := if (v.enc k).isInc && v.encBehind o k then (f (v.enc k).swapHeld).swapHeld else f (v.enc k)
    let told (f : Enc → Enc) (t : State) : Prop :=
      (t.die d).core = { u.core with encs := (t.die d).encs, host := u.okHost } ∧ others (t.die d) ∧ t.pending = s.pending ∧
      (linked → (t.die d).enc k = held f u p ∧ (t.die d.peer).core = { p.core with encs := (t.die d.peer).encs } ∧
          (t.die d.peer).enc k = held f p u ∧ ∀ j : Fin 16, j ≠ k → (t.die d.peer).enc j = p.enc j) ∧
      (¬ linked → (t.die d).enc k = f x ∧ (t.die d.peer).core = p.core)
    (counts → calm → u.ballUsed (.encIn k 0) = true → u.encRaw k 0 ≠ la → u.encRaw k 1 = lb →
      (x.pend.all fun i => decide (i.ch ≠ 0)) = true → Answers (.encCountEdge k la lb 0) s fun t => t.pending = s.pending ∧
        (t.die d).enc k = { x with pend := x.pend ++ [{ due := u.time.per + x.cfg.filt.toNat + 3, ch := 0, level := la, ns := u.time.ns }] } ∧
        (t.die d).core = { ((u.elapse 0).aged 0).core with encs := (t.die d).encs, encPins := (t.die d).encPins } ∧ others (t.die d)) ∧
    (counts → calm → u.ballUsed (.encIn k 0) = true → u.encRaw k 0 ≠ la → u.encRaw k 1 = lb → x.pend = [g] → g.ch = 0 →
      u.time.per + 2 < g.due → Answers (.encCountEdge k la lb 0) s fun t => t.pending = s.pending ∧
        (t.die d).enc k = { x with pend := [] } ∧ others (t.die d)) ∧
    (counts → kept → due → g.ch ≠ 2 → step ≠ 0 → Answers (.encCountEdge k la lb n) s fun t => t.pending = s.pending ∧
      (let w := t.die d
       ran w ∧ w.err = after.err ∧ (w.enc k).a = a ∧ (w.enc k).b = b ∧ (w.enc k).count = x.count + BitVec.ofInt 32 step ∧
       (w.enc k).dir = decide (step < 0) ∧ (w.enc k).edgeNs = then' ∧ (w.enc k).interval = then' - x.edgeNs ∧ (w.enc k).state = x.state ∧
       (w.enc k).cnt = (if rev then vupd x.cnt 5 satInc else x.cnt) ∧ (w.enc k).revFirst = rev ∧ (w.enc k).pos = x.pos ∧ (w.enc k).pend = [])) ∧
    (counts → u.encRaw k 2 = la → due → g.ch = 2 → g.level = true → x.i = false → gate →
      (x.idxLast = none ∨ x.act.lines = 0 ∨ x.idxFirst = true ∨ x.idxFresh = true ∨ x.revRev = true ∨ set = true) → Answers (.encIndex k la n) s fun t => t.pending = s.pending ∧
      (let w := t.die d
       ran w ∧ w.err = after.err ∧ (w.enc k).idxPos = c ∧ (w.enc k).idxSince = true ∧ (w.enc k).idxLast = some c ∧ (w.enc k).cnt = x.cnt ∧
       (w.enc k).idxFresh = false ∧ (w.enc k).idxFirst = (x.idxLast.isNone || x.idxFresh || set) ∧
       (w.enc k).count = x.count ∧ (w.enc k).state = x.state ∧ (w.enc k).idxDiff = (x.idxLast.elim x.idxDiff (c - ·)) ∧ (w.enc k).i = true)) ∧
    (counts → u.encRaw k 2 = la → due → g.ch = 2 → g.level = true → x.i = false → gate → judged → err ≤ x.act.tol.toNat →
      Answers (.encIndex k la n) s fun t => t.pending = s.pending ∧
      (let w := t.die d
       ran w ∧ w.err = after.err ∧ (w.enc k).idxPos = x.count ∧ (w.enc k).idxDiff = x.count - x.idxLast.getD 0 ∧ (w.enc k).cnt = x.cnt ∧
       (w.enc k).mismatch = x.mismatch ∧ (w.enc k).state = x.state)) ∧
    (counts → u.encRaw k 2 = la → due → g.ch = 2 → g.level = true → x.i = false → gate → judged → x.act.tol.toNat < err →
      Answers (.encIndex k la n) s fun t => t.pending = s.pending ∧
      (let w := t.die d
       ran w ∧ (w.enc k).idxPos = x.count ∧ (w.enc k).idxDiff = x.count - x.idxLast.getD 0 ∧ (w.enc k).mismatch = true ∧
       vget (w.enc k).cnt 3 = satInc (vget x.cnt 3) ∧ (w.enc k).count = x.count ∧
       (x.cfg.idxFault = true → x.state = .run → (w.enc k).state = .fault ∧ (w.enc k).cause = 3) ∧
       (x.cfg.idxFault = false → (w.enc k).state = x.state))) ∧
    (plain → y.state = .run → 2 ≤ y.edges → y.revFirst = false → gap < y.regs.tStop.toNat * 1000 → gap < 2 ^ 31 → y.revNow = false →
      y.method = false → y.edgesNow < y.regs.switchN.toNat → 30 ≤ y.interval.toNat → y.interval.toNat < 2 ^ 31 →
      z.red.grant = true → z.encQueue k = some q.val → 0 < (z.queue q).free → (z.queue q).port ++ (z.queue q).ring = [] → (z.queue q).taken = 0 →
      Acts (.encSampleStrobe d k) d s f fun _ w => one w ∧ w.err = z.err ∧
        (w.enc k).pos = y.count ∧ (w.enc k).time = z.time.ns ∧ (w.enc k).still = false ∧ vget (w.enc k).cnt 0 = satInc (vget y.cnt 0) ∧
        (w.enc k).speed = BitVec.ofInt 32 ((if y.dir then -1 else 1) *
          (min (64000000000 / y.interval.toNat) (if gap = 0 then 64000000000 / y.interval.toNat else 64000000000 / gap) : Nat)) ∧
        (w.queue q).ring.map (·.payload) = [[y.count, (w.enc k).speed, z.time.ns,
          BitVec.ofNat 32 ((if y.quadSince then 512 else 0) + if y.idxSince then 1024 else 0)]] ∧
        ∀ j : Fin 1024, j ≠ q → w.queue j = z.queue j) ∧
    (plain → y.edges = 0 → Acts (.encSampleStrobe d k) d s f fun _ w => one w ∧
        (w.enc k).pos = y.count ∧ (w.enc k).time = z.time.ns ∧ (w.enc k).still = true ∧ (w.enc k).speed = 0 ∧ (w.enc k).count = y.count ∧
        (w.enc k).state = y.state ∧ vget (w.enc k).cnt 0 = satInc (vget y.cnt 0) ∧ (y.state = .fault → w.qrc = z.qrc)) ∧
    (y.state ≠ .off → y.cfg.mode = 1 → y.setTo.isSome = true → y.edges = 0 → Acts (.encSampleStrobe d k) d s f fun _ w => one w ∧
        (w.enc k).count = y.setTo.getD 0 ∧ (w.enc k).pos = y.setTo.getD 0 ∧ (w.enc k).setTo = y.later.setTo ∧
        (w.enc k).idxLast = y.idxLast ∧ (y.idxNs ≠ some z.time.ns → (w.enc k).idxFresh = true)) ∧
    (x.cfg.mode = 1 → ((s.die d.peer).enc k).cfg = x.cfg → u.reached 33 = true →
      Answers (.encCntSet d k v) s (told fun y => { y with setTo := some v })) ∧
    (x.cfg.mode = 1 → ((s.die d.peer).enc k).cfg = x.cfg → u.reached 33 = true →
      Answers (.encClrFault d k) s (told fun y => { y with clrFault := true })) ∧
    (x.cfg.mode ≠ 1 → x.state = .fault → x.faultCyc ≠ some u.time.cyc → u.reached 33 = true → Answers (.encClrFault d k) s fun t =>
      (let w := t.die d
       w.core = { u.core with encs := w.encs, host := u.okHost } ∧ others w ∧ (w.enc k).state = .sync ∧ (w.enc k).cause = 0 ∧ (w.enc k).bad = 0 ∧
       (w.enc k).pos = x.pos ∧ (w.enc k).speed = x.speed ∧ (w.enc k).cnt = x.cnt)) ∧
    (x.cfg.mode ≠ 1 → ((s.die d.peer).enc k).cfg = x.cfg → u.reached 33 = true →
      Answers (.encClrCnt d k) s (told fun y => { y with cnt := Vector.replicate 6 0 })) ∧
    (x.cfg.mode = 1 → ((s.die d.peer).enc k).cfg = x.cfg → u.reached 33 = true →
      Answers (.encClrCnt d k) s (told fun y => { y with clrCnt := true }))

/-- SSI and listen frames give positions or errors; the emulation steps (R255, R266, R267, R268, R269, R270, R271,
R279, R281, R282, R283, R285, R287, R289, R290). Choices of the model: The word of a frame is an operand (log
entries 41 and 46). -/
def Obligations.EncoderFrames : Prop :=
  ∀ (d : DieId) (k : Fin 16) (ready hi : Bool) (word : BitVec 40) (edges : BitVec 8) (m0 : BitVec 32) (n : Nat) (s : State),
    let others (u w : Die) : Prop := ∀ j : Fin 16, j ≠ k → w.enc j = u.enc j
    let one (u w : Die) : Prop := w.core = { u.core with encs := w.encs } ∧ others u w
    let f := s.reach d (Die.dueSample k)
    let y := (f.die d).enc k
    let e := s.elapse n
    let x := (e.die d).enc k
    let c := (s.die d).enc k
    let sampled := c.frameAt.getD 0 + (c.cfg.len.toNat + if c.cfg.endChk then 1 else 0) * c.cfg.per.toNat + c.cfg.dly.toNat
    let clocked : Prop := c.frame = some m0 ∧ c.frameAt.isSome = true ∧ n = sampled - (s.die d).time.per ∧ (s.die d).ticksIn n = some n
    let free : Prop := y.state ≠ .off ∧ y.cfg.mode = 2 ∧ (f.die d).red.grant = true ∧ y.frame = none ∧
      (y.frameEnd.elim true fun t => decide (y.cfg.tm.toNat * 1000 ≤ ((f.die d).time.ns - t).toNat)) = true
    let w := word.toNat
    let status : Nat := w / (if x.cfg.parity then 2 else 1) % 2 ^ x.cfg.nstat.toNat
    let parityBad : Bool := x.cfg.parity && oddOnes x.cfg.len.toNat (w % 2 ^ x.cfg.len.toNat)
    let errBit : Bool := (List.range 4).any fun i => decide (i < x.cfg.nstat.toNat) && bit x.cfg.errMask i && (decide (status / 2 ^ i % 2 = 1) == x.cfg.errPol)
    let endBad : Bool := x.cfg.endChk && hi
    let good (m : BitVec 32) (u v : Die) : Prop := v.core = { u.core with encs := v.encs, qrc := v.qrc, err := v.err, fresh := v.fresh } ∧ others u v ∧
      (v.enc k).pos = BitVec.ofNat 32 (x.cfg.position w) ∧ (v.enc k).posHi = BitVec.ofNat 8 (x.cfg.position w / 2 ^ 32) ∧
      (v.enc k).time = m ∧ (v.enc k).bad = 0 ∧ (v.enc k).frame = none ∧ (v.enc k).state = (if x.state = .sync then .run else x.state) ∧
      (x.prev = none → (v.enc k).speed = 0 ∧ (v.enc k).still = true) ∧
      (x.entryCyc ≠ some u.time.cyc → vget (v.enc k).cnt 0 = satInc (vget x.cnt 0)) ∧
      (x.entryCyc = some u.time.cyc → vget (v.enc k).cnt 4 = satInc (vget x.cnt 4) ∧ v.qrc = u.qrc)
    let bad (u v : Die) : Prop := v.core = { u.core with encs := v.encs, err := v.err } ∧ others u v ∧ (v.enc k).pos = x.pos ∧
      (v.enc k).posHi = x.posHi ∧ (v.enc k).speed = x.speed ∧ vget (v.enc k).cnt 2 = satInc (vget x.cnt 2) ∧ vget (v.enc k).cnt 0 = vget x.cnt 0 ∧
      (x.bad + 1 < x.cfg.errLimit.toNat → (v.enc k).state = x.state ∧ v.err = u.err) ∧
      (x.cfg.errLimit.toNat ≤ x.bad + 1 → (x.state = .run ∨ x.state = .sync) → (v.enc k).state = .fault ∧ (v.enc k).cause = 1)
    let listens : Prop := x.state ≠ .off ∧ (x.cfg.mode = 3 ∨ (x.cfg.mode = 2 ∧ (e.die d).red.grant = false))
    let target := Int.fdiv (c.unwrapped * 4 * c.cfg.emuLines.toNat) (2 ^ c.cfg.st)
    let step : Int := if c.emuC < target then 1 else -1
    let tc := (s.die d).img.cell.tc
    let i := c.emuN + 1 - (target - c.emuC).natAbs
    let even := c.emuAt + if tc < 4 * (c.emuN * c.cfg.emuDiv.toNat) then i * c.cfg.emuDiv.toNat else i * (tc / 4) / max 1 c.emuN
    let stepAt := c.emuLast.elim even fun t => max even (t + c.cfg.emuDiv.toNat)
    let apart : Prop := x.cfg.mode = 3 → (x.frameEnd.elim true fun t => decide (x.cfg.lgap.toNat * 1000 ≤ (m0 - t).toNat)) = true
    let l := s.reach d (Die.dueListen k)
    let late := (l.die d).enc k
    (free → ready = true → Acts (.ssiFrameStart d k ready) d s f fun u v => one u v ∧ v.enc k = { (u.enc k) with frame := some u.time.ns, frameAt := some u.time.per }) ∧
    (free → ready = false → Acts (.ssiFrameStart d k ready) d s f fun u v => v.core = { u.core with encs := v.encs, err := v.err } ∧ others u v ∧
      (v.enc k).frameErr = true ∧ vget (v.enc k).cnt 2 = satInc (vget y.cnt 2) ∧ (v.enc k).frame = none ∧ (v.enc k).pos = y.pos ∧ (v.enc k).speed = y.speed) ∧
    (clocked → parityBad = false → endBad = false → errBit = false → Acts (.ssiFrameEnd d k word hi) d s e (good m0)) ∧
    (clocked → (parityBad = true ∨ endBad = true ∨ errBit = true) → Acts (.ssiFrameEnd d k word hi) d s e fun u v => bad u v ∧
      (v.enc k).frame = none ∧ (v.enc k).parityErr = (x.parityErr || parityBad) ∧
      (v.enc k).frameErr = (x.frameErr || (!parityBad && endBad)) ∧ (v.enc k).errBit = (x.errBit || (!parityBad && !endBad && errBit))) ∧
    (listens → apart → x.frame = none → edges.toNat = x.cfg.len.toNat + 1 → parityBad = false → endBad = false → errBit = false →
      Acts (.listenFrame d k word edges hi m0 n) d s e (good m0)) ∧
    (listens → (edges.toNat ≠ x.cfg.len.toNat + 1 ∨ ¬ apart) → Acts (.listenFrame d k word edges hi m0 n) d s e fun u v => bad u v ∧ (v.enc k).frameErr = true) ∧
    (late.cfg.mode = 3 → late.cfg.errLimit.toNat * (l.die d).img.cell.tc ≤ ((l.die d).time.ns - late.goodNs).toNat → late.state = .run →
      Acts (.listenTimeout d k) d s l fun u v => v.core = { u.core with encs := v.encs, err := v.err } ∧ others u v ∧
        (v.enc k).state = .fault ∧ (v.enc k).cause = 2 ∧ (v.enc k).stale = true ∧ (v.enc k).cnt = late.cnt) ∧
    (c.state ≠ .off → (s.die d).red.grant = true → c.cfg.pt = 2 → c.emuOn = true → c.emuC ≠ target → n = stepAt - (s.die d).time.per →
      (s.die d).ticksIn n = some n → Answers (.emuStep d k) s fun t => t.pending = s.pending ∧
        one (e.die d) (t.die d) ∧ (t.die d).enc k = { x with emuC := x.emuC + step, emuLast := some (e.die d).time.per } ∧
        one (e.die d.peer) (t.die d.peer) ∧
        (let p := (e.die d.peer).enc k
         p.state ≠ .off → p.cfg.pt = 2 → p.emuOn = true →
           (t.die d.peer).enc k = { p with emuC := p.emuC + step, emuLast := some (e.die d.peer).time.per }))

/-- A head lane sends beacons, polls, retries, acyclic requests and idle frames (R349, R351, R353, R354, R358, R361,
R364, R367, R368, R374, R378, R379, R380, R381, R383, R393). -/
def Obligations.MirradHead : Prop :=
  ∀ (d : DieId) (l : Fin 8) (i : Fin 64) (e : SchedEntry) (q : AcycReq) (pre more : List AcycReq) (j : Fin 128) (t word : BitVec 32) (s : State),
    let others (u w : Die) : Prop := ∀ j : Fin 8, j ≠ l → w.lane j = u.lane j
    let one (u w : Die) : Prop := w.core = { u.core with lanes := w.lanes } ∧ others u w
    let frame (type dest slot : Nat) (seq : BitVec 8) (flags : Nat) (epoch : BitVec 8) (p : List (BitVec 8)) : List (BitVec 8) :=
      let b := [BitVec.ofNat 8 (type + 16), BitVec.ofNat 8 dest, BitVec.ofNat 8 slot] ++ leBytes 2 p.length ++
        [seq, BitVec.ofNat 8 flags, epoch] ++ p
      b ++ leBytes 4 (crc32c b).toNat
    let sends (b : List (BitVec 8)) (w : Die) : Prop := .mirrad l b ∈ w.out
    let drives (u : Die) : Prop := u.red.grant = true ∧ u.red.gateOpen = true ∧ u.red.live = true ∧ (u.unit 6 l).state = .active
    let beacon (u : Die) (x : Lane) (c : BitVec 32) (epoch : BitVec 8) (extra : Nat) : List (BitVec 8) :=
      frame 1 0xFF 0 (c.setWidth 8) 0 epoch (leBytes 4 c.toNat ++ leBytes 4 u.time.start.toNat ++
        leBytes 2 (4 * x.cfg.beaconOfs + 40 * x.cfg.preN + extra) ++ [BitVec.ofNat 8 (tcCode u.img.cell.tc), x.cfg.rank.setWidth 8] ++
        leBytes 4 x.cfg.schedId.toNat)
    let b := s.reach d (Die.dueBeacon l)
    let x := (b.die d).lane l
    let c := (b.die d).time.cyc + x.laneOfs
    let r := s.reach d (Die.dueEntry l i)
    let z := r.die d
    let y := z.lane l
    let k := z.time.cyc + y.laneOfs
    let serves (cls : Nat) : Prop := drives z ∧ y.state = .head ∧ y.session = some t ∧ (y.full = true ∨ 2 ≤ (k - t).toNat) ∧ y.host = false ∧ y.sent.contains i.val = false ∧
      y.cfg.sched[i.val]? = some e ∧ e.cls = cls ∧ y.waiting = none
    let awaits (node : Nat) (seq : BitVec 8) (acyc : Bool) (len : Nat) : Option ReplyWait :=
      some { slot := i, seq := seq, node := node, acyc := acyc, queued := acyc, replyLen := e.replyLen, deadline := e.deadline,
             eof := z.time.ns + BitVec.ofNat 32 ((y.cfg.preN + 14 + len) * 40) }
    let seq := if q.sends = 0 then vget y.seqs (Fin.ofNat 17 q.node) + 1 else q.seq
    let ask : List (BitVec 8) := [BitVec.ofNat 8 q.op, 0] ++ leBytes 2 q.obj.toNat ++ [q.sub, 0] ++ leBytes 2 q.ofs.toNat ++
      (if q.op = 2 then q.data else leBytes 2 q.count)
    let g := z.jnt j
    let sent (b : List (BitVec 8)) : Lane :=
      { y with sent := i.val :: y.sent, full := true, tx := some { start := z.time.ns, bytes := b } }
    let puts (b : List (BitVec 8)) (u w : Die) : Prop := one u w ∧ sends b w ∧ w.lane l = sent b
    let fits (m : AcycReq) : Prop := e.node = 0 ∨ e.node = m.node
    let rank (m : AcycReq) : Nat := (if m.own then 0 else 2) + if m.sends = 0 then 1 else 0
    let told : Prop := ∀ p ∈ y.applyOfs, p.1 = g.cfg.node → p.2.1 = g.cfg.jidx → p.2.2 = 0
    (drives (b.die d) → x.state = .head → x.session = some t → x.startAfter = none → x.beaconCyc ≠ some c →
      Acts (.beaconSend d l) d s b fun u w => one u w ∧ sends (beacon u x c x.epoch 0) w ∧
        w.lane l = { x with
          beaconCyc := some c
          cnt := vupd x.cnt 0 satInc
          tx := some { start := u.time.ns, bytes := beacon u x c x.epoch 0 } }) ∧
    (x.beaconCyc = some c → Acts (.beaconSend d l) d s b fun u w => w.core = u.core) ∧
    (drives (b.die d) → x.state = .head → x.session = none → (x.startAfter.elim true fun t => decide (0 ≤ diff32 (b.die d).time.start t)) = true →
      x.beaconCyc ≠ some c → Acts (.beaconSend d l) d s b fun u w => one u w ∧
        (w.lane l).session = some c ∧ (w.lane l).epoch = (if x.epochFixed then x.epoch else x.epoch + 1) ∧
        (w.lane l).state = x.state ∧ vget (w.lane l).cnt 0 = satInc (vget x.cnt 0) ∧ sends (beacon u x c (w.lane l).epoch 0) w) ∧
    (serves 3 → Acts (.idleSend d l i) d s r (puts (frame 8 0xFF i 0 0 y.epoch (List.replicate e.pollLen 0)))) ∧
    -- an entry goes out once in a lane cycle
    (y.sent.contains i.val = true → ∀ m ∈ [Instr.pollSend d l i, .retpollSend d l i, .acycSend d l i, .idleSend d l i],
      Acts m d s r fun u w => w.core = u.core) ∧
    (serves 2 → (∀ m ∈ y.reqs, ¬ fits m) → Acts (.acycSend d l i) d s r (puts (frame 8 0xFF i 0 0 y.epoch []))) ∧
    -- the device's own requests go first, and of either kind one in progress
    (serves 2 → y.reqs = pre ++ q :: more → fits q → (∀ m ∈ pre, fits m → rank q < rank m) → (∀ m ∈ more, fits m → rank q ≤ rank m) →
      Acts (.acycSend d l i) d s r fun u w => one u w ∧
        sends (frame 6 q.node i seq (if q.sends = 0 then 0 else 4) y.epoch ask) w ∧
        w.lane l = { (sent (frame 6 q.node i seq (if q.sends = 0 then 0 else 4) y.epoch ask)) with
          reqs := { q with sends := q.sends + 1, seq := seq } :: (pre ++ more)
          seqs := vset y.seqs (Fin.ofNat 17 q.node) seq
          waiting := awaits q.node seq true ask.length }) ∧
    (serves 0 → z.nodeJoints l e.node = [] → Acts (.pollSend d l i) d s r fun u w => one u w ∧
      sends (frame 3 e.node i (k.setWidth 8) 1 y.epoch []) w ∧
      w.lane l = { (sent (frame 3 e.node i (k.setWidth 8) 1 y.epoch [])) with waiting := awaits e.node (k.setWidth 8) false 0 }) ∧
    (serves 0 → z.nodeJoints l e.node = [j.val] → g.cfg.classF = false → told → g.cfg.outVel = false → z.laneJoints l g.roleNum = [j.val] →
      (z.takeTx l g.roleNum).1 = some [[word]] → Acts (.pollSend d l i) d s r fun _ w =>
        sends (frame 3 e.node i (k.setWidth 8) 0 y.epoch (leBytes 4 (word).toNat ++ [0, 0,
          BitVec.ofNat 8 (g.cfg.jidx + if g.en then 8 else 0), k.setWidth 8])) w ∧
        others z w ∧ (w.lane l).waiting = awaits e.node (k.setWidth 8) false 8) ∧
    (serves 1 → z.nodeJoints l e.node = [] → Acts (.retpollSend d l i) d s r (puts (frame 5 e.node i (k.setWidth 8) 1 y.epoch []))) ∧
    (serves 1 → z.nodeJoints l e.node = [j.val] → g.cfg.classF = false → told → g.cfg.outVel = false → z.laneJoints l g.roleNum = [j.val] →
      z.peekTx l g.roleNum = some [[word]] → Acts (.retpollSend d l i) d s r (puts (frame 5 e.node i (k.setWidth 8) 0 y.epoch (leBytes 4 (word).toNat ++ [0, 0,
          BitVec.ofNat 8 (g.cfg.jidx + if g.en then 8 else 0), (k + 1).setWidth 8]))))

/-- A lane finds its head, backs off, takes over, restarts and posts acyclic requests (R364, R374, R383, R385, R386,
R387, R388, R389, R390, R391, R393, R394). Choices of the model: MB_RESTART outside STOPPED has no effect: log
entry 49; commands on an unused lane: log entry 113. -/
def Obligations.MirradLane : Prop :=
  ∀ (d : DieId) (l : Fin 8) (n : Nat) (on : Bool) (e : SchedEntry) (s : State),
    let others (u w : Die) : Prop := ∀ j : Fin 8, j ≠ l → w.lane j = u.lane j
    let one (u w : Die) : Prop := w.core = { u.core with lanes := w.lanes } ∧ others u w
    let logs (u w : Die) : Prop := w.core = { u.core with lanes := w.lanes, err := w.err } ∧ others u w
    let reg (u w : Die) : Prop := w.core = { u.core with lanes := w.lanes, host := u.okHost } ∧ others u w
    let drives (u : Die) : Prop := u.red.grant = true ∧ u.red.gateOpen = true ∧ u.red.live = true ∧ (u.unit 6 l).state = .active
    let u := s.die d
    let x := u.lane l
    let q := s.reach d (Die.dueSilence l)
    let z := q.die d
    let y := z.lane l
    let quiet : Int := diff32 z.time.ns y.lastSof
    let tc := z.img.cell.tc
    let epoch : BitVec 8 := match y.epochRx with
      | some v => v + 1
      | none => 1
    let startup : List (BitVec 8) :=
      let p := [y.cfg.rank.setWidth 8, BitVec.ofNat 8 (tcCode tc)] ++ leBytes 2 z.host.nodeId.toNat ++ leBytes 4 y.cfg.schedId.toNat
      let b := [0x12, 0xFF, 0] ++ leBytes 2 8 ++ [0, 0, epoch] ++ p
      b ++ leBytes 4 (crc32c b).toNat
    let starts (u w : Die) : Prop := one u w ∧ .mirrad l startup ∈ w.out ∧
      w.lane l = { y with state := .starting, epoch := epoch, tx := some { start := z.time.ns, bytes := startup } }
    let r := s.reach d (Die.dueReadback l true)
    let h := (r.die d).lane l
    let eof : BitVec 32 := match h.tx with
      | some t => t.start + BitVec.ofNat 32 ((h.cfg.preN + 2 + t.bytes.length) * 40)
      | none => (r.die d).time.ns
    let used : Prop := u.img.pins.lanes.contains l.val = true
    let posted : AcycReq :=
      { op := x.acOp.toNat
        node := x.acNode.toNat
        obj := x.acObj
        sub := x.acSub
        ofs := x.acOfs
        own := false
        count := x.acCount.toNat
        data := if x.acOp = 2 then x.acData.toList.take x.acCount.toNat else [] }
    let b := s.reach d (Die.dueBackup l)
    let g := (b.die d).lane l
    let next := g.lastStart + BitVec.ofNat 32 g.lastTc
    let need := (if x.acOp = 2 then e.pollLen else e.replyLen)
    (drives z → y.state = .silent → ((3 * tc + 4000 * y.cfg.rank.toNat : Nat) : Int) ≤ quiet → Acts (.silenceTimeout d l) d s q starts) ∧
    (drives z → y.state = .clash → (((y.cfg.rank.toNat + 1) * 8000 : Nat) : Int) ≤ quiet → Acts (.clashBackoffEnd d l) d s q starts) ∧
    (y.state = .backup → ((3 * tc : Nat) : Int) ≤ quiet → Acts (.backupSilence d l) d s q fun u w => one u w ∧
      w.lane l = { y with state := .silent, follows := false }) ∧
    (h.state = .starting → Acts (.startupReadback d l true) d s r fun u w => one u w ∧ (w.lane l).state = .head ∧
      (w.lane l).laneOfs = 0 ∧ (w.lane l).session = none ∧ (w.lane l).epoch = h.epoch ∧ (w.lane l).epochFixed = true ∧
      (w.lane l).startAfter = some (eof + 2000) ∧ (w.lane l).cnt = h.cnt ∧ (w.lane l).tx = h.tx) ∧
    (x.state = .starting → x.clashCnt.toNat ≤ 3 → u.red.grant = true → Acts (.startupReadback d l false) d s (s.elapse 0) fun u w => logs u w ∧
      (w.lane l).tx = x.tx.map (fun t => { t with cut := some u.time.ns }) ∧
      (w.lane l).clashCnt = x.clashCnt + 1 ∧ (w.lane l).cnt = vupd x.cnt 9 satInc ∧
      (w.lane l).state = (if x.clashCnt = 3 then .stopped else .clash) ∧ (x.clashCnt ≠ 3 → w.err = u.err)) ∧
    Acts (.sofDetected d l n) d s (s.elapse n) (fun u w => one u w ∧
      w.lane l = { (u.lane l) with
        lastSof := u.time.ns
        state := if (u.lane l).state = .clash then .silent else (u.lane l).state
        clashCnt := if (u.lane l).state = .clash then 0 else (u.lane l).clashCnt }) ∧
    (drives (b.die d) → g.state = .backup → g.missing = 2 → g.beaconOk = true → diff32 g.lastSof (next - 500) < 0 →
      0 ≤ diff32 (b.die d).time.ns (next + BitVec.ofNat 32 (4 * g.cfg.beaconOfs + 1000 * g.cfg.rank.toNat)) →
      Acts (.backupTakeover d l) d s b fun u w => logs u w ∧
        (w.lane l).state = .head ∧ (w.lane l).laneOfs = g.lastCyc + 3 - u.time.cyc ∧ (w.lane l).session = some (g.lastCyc + 3) ∧
        (w.lane l).epoch = g.epoch + 1 ∧ vget (w.lane l).cnt 10 = satInc (vget g.cnt 10) ∧ vget (w.lane l).cnt 0 = satInc (vget g.cnt 0)) ∧
    (g.state = .backup → (g.missing ≠ 2 ∨ g.beaconOk = false ∨ 0 ≤ diff32 g.lastSof (next - 500)) →
      Acts (.backupTakeover d l) d s b fun u w => w.core = u.core) ∧
    (drives u → x.state = .head → Acts (.beaconReadback d l true) d s s fun u w => one u w ∧ w.lane l = { x with unread := 0 }) ∧
    (drives u → x.state = .head → x.unread = 0 → Acts (.beaconReadback d l false) d s s fun u w => one u w ∧ w.lane l = { x with unread := 1 }) ∧
    (used → x.state = .stopped → OnReg (.mbRestart d l) d 28 s fun u w => reg u w ∧
      w.lane l = { x with state := .silent, clashCnt := 0, lastSof := u.time.ns }) ∧
    -- a lane that the image does not use has no register to write
    (¬ used → ∀ i ∈ [Instr.mbRestart d l, .mbHostReq d l on, .mbClrCnt d l, .acycGo d l],
      OnReg i d 28 s fun u w => w.core = { u.core with host := u.okHost }) ∧
    (x.state ≠ .stopped → OnReg (.mbRestart d l) d 28 s fun u w => w.core = { u.core with host := u.okHost }) ∧
    (used → OnReg (.mbHostReq d l on) d 28 s fun u w => reg u w ∧ w.lane l = { x with hostReq := on }) ∧
    (used → OnReg (.mbClrCnt d l) d 28 s fun u w => reg u w ∧ w.lane l = { x with cnt := Vector.replicate 13 0 }) ∧
    (used → (x.acBusy = true ∨ x.acOp = 0 ∨ x.acOp = 3) → OnReg (.acycGo d l) d 28 s fun u w => w.core = { u.core with host := u.refusedHost }) ∧
    (used → x.acBusy = false → (x.acOp = 1 ∨ x.acOp = 2) → e ∈ x.cfg.sched → e.cls = 2 → (e.node = 0 ∨ e.node = x.acNode.toNat) →
      x.acCount.toNat + 8 ≤ need → OnReg (.acycGo d l) d 28 s fun u w => reg u w ∧
        w.lane l = { x with
          acBusy := true
          acDone := false
          reqs := x.reqs ++ [posted] }) ∧
    (used → x.acBusy = false → (x.acOp = 1 ∨ x.acOp = 2) →
      (∀ e ∈ x.cfg.sched, e.cls = 2 → e.node = 0 ∨ e.node = x.acNode.toNat → (if x.acOp = 2 then e.pollLen else e.replyLen) < x.acCount.toNat + 8) →
      OnReg (.acycGo d l) d 28 s fun u w => reg u w ∧
        (w.lane l).acBusy = false ∧ (w.lane l).acDone = true ∧ (w.lane l).acResult = 7 ∧ (w.lane l).reqs = x.reqs)

/-- A head judges replies by window, check and contents, and counts what is missing (R351, R358, R364, R367, R368,
R369, R370, R374, R375, R393). Choices of the model: What the receiver gets is given as code groups with the
time of their SOF (log entry 48). -/
def Obligations.MirradReplies : Prop :=
  ∀ (d : DieId) (l : Fin 8) (sof : BitVec 32) (g : List (BitVec 10)) (f : MbFrame) (w : ReplyWait) (a : AcycReq) (more : List AcycReq) (j : Fin 128) (c : Fin 13) (s : State),
    let others (u v : Die) : Prop := ∀ j : Fin 8, j ≠ l → v.lane j = u.lane j
    let one (u v : Die) : Prop := v.core = { u.core with lanes := v.lanes } ∧ others u v
    let logs (u v : Die) : Prop := v.core = { u.core with lanes := v.lanes, err := v.err } ∧ others u v
    let drives (u : Die) : Prop := u.red.grant = true ∧ u.red.gateOpen = true ∧ u.red.live = true ∧ (u.unit 6 l).state = .active
    let whole : Prop := (received g).cut = 0
    let bad := (received g).codeErr
    let b := (received g).bytes
    let q := s.reach d (dueFrameEnd sof g)
    let x := (q.die d).lane l
    let n := Fin.ofNat 17 w.node
    let got : Option MbFrame := (x.receive bad b).toOption
    let bad1 : Option (Fin 13) := match x.receive bad b with
      | .error i => some i
      | .ok _ => none
    let inWindow : Prop := whole ∧ x.state = .head ∧ w.lapsed = false ∧ 320 ≤ diff32 sof w.eof ∧ diff32 sof w.eof ≤ 4 * w.deadline + 320
    let fits : Prop := f.type = (if w.acyc then 7 else 4) ∧ f.slot = w.slot ∧ f.seq = w.seq ∧ f.dest = 0 ∧ (w.acyc = false → f.payload.length = w.replyLen)
    let cause : Prop := if diff32 sof w.eof < 320 then c = 6
      else if w.lapsed = true ∨ 4 * w.deadline + 320 < diff32 sof w.eof then c = 7
      else bad1 = some c ∨ (c = 8 ∧ (got.map fun f => decide (f.type ≠ (if w.acyc then 7 else 4))) = some true)
    let misses (y z : Lane) : Prop := vget z.cnt 12 = satInc (vget y.cnt 12) ∧ (w.acyc = false → vget z.missed n = vget y.missed n + 1 ∧
        z.absent = (if 3 ≤ vget y.missed n + 1 then y.absent ||| BitVec.ofNat 17 (2 ^ w.node) else y.absent))
    let heard (z : Lane) : Prop := z.waiting = none ∧ z.cnt = x.cnt ∧ z.epochRx = some f.epoch ∧
      z.alarm = (if f.flags / 2 % 2 = 1 then x.alarm ||| BitVec.ofNat 17 (2 ^ w.node) else x.alarm)
    let present (z : Lane) : Prop := vget z.missed n = 0 ∧ z.absent = x.absent &&& ~~~ (BitVec.ofNat 17 (2 ^ w.node))
    let jt := (q.die d).jnt j
    let byte (i k : Nat) : BitVec 32 := BitVec.ofNat 32 (fieldAt f.payload i k)
    let m := s.reach d (Die.dueReply l)
    let y := (m.die d).lane l
    let u := s.die d
    let k := u.lane l
    let len := fieldAt b 3 2 % 1024
    let check : Prop := if bad then c = 1 else if b.length ≠ 12 + len ∨ 512 < len then c = 2
      else if leBytes 4 (crc32c (b.take (8 + len))).toNat ≠ b.drop (8 + len) then c = 3
      else if fieldAt b 0 1 / 16 ≠ 1 ∨ fieldAt b 0 1 % 16 = 0 ∨ 8 < fieldAt b 0 1 % 16 then c = 4
      else c = 5 ∧ k.state = .head ∧ (fieldAt b 0 1 % 16 = 4 ∨ fieldAt b 0 1 % 16 = 7) ∧ fieldAt b 7 1 ≠ k.epoch.toNat
    let calm : Prop := u.red.grant = true ∧ k.state ≠ .off ∧ k.state ≠ .node ∧ k.waiting = none
    (drives (q.die d) → x.waiting = some w → w.acyc = false → inWindow → got = some f → fits →
      x.host = false → (q.die d).nodeJoints l w.node = [] → Acts (.replyRx d l sof g) d s q fun u v => logs u v ∧
        heard (v.lane l) ∧ present (v.lane l)) ∧
    (drives (q.die d) → x.waiting = some w → w.acyc = false → inWindow → got = some f → fits →
      f.payload.length = 12 → (q.die d).nodeJoints l w.node = [j.val] → jt.cfg.jidx < 8 → fieldAt f.payload 11 1 % 8 = jt.cfg.jidx →
      fieldAt f.payload 10 1 / 64 % 2 = 0 → jt.cfg.classF = true → (q.die d).laneJoints l jt.roleNum = [j.val] →
      Acts (.replyRx d l sof g) d s q fun u v => others u v ∧ heard (v.lane l) ∧ present (v.lane l) ∧
        (v.jnt j).fbPos = byte 0 4 ∧ (v.jnt j).fbVel = byte 4 4 ∧ (v.jnt j).fresh = some u.time.cyc) ∧
    (whole → drives (q.die d) → x.state = .head → x.waiting = some w → w.acyc = false → w.lapsed = false → cause →
      Acts (.replyRx d l sof g) d s q fun u v => logs u v ∧ misses x (v.lane l) ∧ (v.lane l).waiting = none ∧
        vget (v.lane l).cnt c = satInc (vget x.cnt c) ∧ ∀ i, i ≠ c → i ≠ 12 → vget (v.lane l).cnt i = vget x.cnt i) ∧
    -- a SOF after the window has ended: the miss is counted, its cause is told
    (whole → drives (q.die d) → x.state = .head → x.waiting = some w → w.lapsed = true → cause →
      Acts (.replyRx d l sof g) d s q fun u v => one u v ∧ v.lane l = { x with waiting := none, cnt := vupd x.cnt c satInc }) ∧
    (drives (q.die d) → x.waiting = some w → w.acyc = true → w.queued = true → inWindow → got = some f → fits → x.host = false →
      x.reqs = a :: more → a.own = false → fieldAt f.payload 1 1 ≠ 4 → Acts (.acycReplyRx d l sof g) d s q fun u v => logs u v ∧
        heard (v.lane l) ∧ (v.lane l).reqs = more ∧ (v.lane l).acBusy = false ∧ (v.lane l).acDone = true ∧
        (v.lane l).acResult = BitVec.ofNat 3 (fieldAt f.payload 1 1) ∧
        (a.op = 1 → fieldAt f.payload 1 1 = 0 → ∀ i : Fin 512, i.val < f.payload.length - 8 →
          vget (v.lane l).acData i = (f.payload.drop 8).getD i 0)) ∧
    (drives (q.die d) → x.waiting = some w → w.acyc = true → w.queued = true → inWindow → got = some f → fits → x.host = false →
      x.reqs = a :: more → a.own = false → fieldAt f.payload 1 1 = 4 → Acts (.acycReplyRx d l sof g) d s q fun u v => logs u v ∧ heard (v.lane l) ∧
        (a.sends < 8 → (v.lane l).reqs = a :: more ∧ (v.lane l).acBusy = x.acBusy) ∧
        (8 ≤ a.sends → (v.lane l).reqs = more ∧ (v.lane l).acBusy = false ∧ (v.lane l).acDone = true ∧ (v.lane l).acResult = 6)) ∧
    (drives (m.die d) → y.waiting = some w → w.acyc = false → w.lapsed = false → 4 * w.deadline + 320 ≤ diff32 (m.die d).time.ns w.eof →
      Acts (.replyMissed d l) d s m fun u v => logs u v ∧ misses y (v.lane l) ∧ (v.lane l).waiting = some { w with lapsed := true } ∧
        ∀ i, i ≠ 12 → vget (v.lane l).cnt i = vget y.cnt i) ∧
    ((y.waiting.elim true (·.lapsed)) = true → Acts (.replyMissed d l) d s m fun u v => v.core = u.core) ∧
    (calm → whole → check → Acts (.frameRxInvalid d l g) d s s fun u v => one u v ∧ v.lane l = { k with cnt := vupd k.cnt c satInc }) ∧
    -- a SOF in a frame ends it as a code error
    (calm → (received g).cut = 1 → (k.receive bad b).toOption = some f → Acts (.frameRxInvalid d l g) d s s fun u v => one u v ∧
      v.lane l = { k with cnt := vupd k.cnt 1 satInc })

/-- A node joins, holds and leaves by beacons and answers polls and acyclic requests (R351, R371, R372, R373, R374,
R384, R385, R388, R391, R392). Choices of the model: A profile S node has IDENT alone: log entry 50; code groups
as operands: log entry 48; when the node answers within its turnaround: log entry 122. -/
def Obligations.MirradNode : Prop :=
  ∀ (d : DieId) (l : Fin 8) (sof : BitVec 32) (g : List (BitVec 10)) (f : MbFrame) (s : State),
    let others (u v : Die) : Prop := ∀ j : Fin 8, j ≠ l → v.lane j = u.lane j
    let one (u v : Die) : Prop := v.core = { u.core with lanes := v.lanes } ∧ others u v
    let logs (u v : Die) : Prop := v.core = { u.core with lanes := v.lanes, err := v.err } ∧ others u v
    let drives (u : Die) : Prop := u.red.grant = true ∧ u.red.gateOpen = true ∧ u.red.live = true ∧ (u.unit 6 l).state = .active
    let q := s.reach d (dueFrameEnd sof g)
    let x := (q.die d).lane l
    let u := s.die d
    let k := u.lane l
    let got (x : Lane) : Option MbFrame :=
      if (received g).cut = 0 then (x.receive (received g).codeErr (received g).bytes).toOption else none
    let start := sof - BitVec.ofNat 32 (fieldAt f.payload 8 2)
    let cyc := BitVec.ofNat 32 (fieldAt f.payload 0 4)
    let next := x.lastStart + BitVec.ofNat 32 x.lastTc
    let overlaps : Prop := x.nodeSt = .check ∧ diff32 ((q.die d).time.ns - 1280) x.lastEof < 0
    let onTime : Prop := (diff32 start next).natAbs ≤ 250
    let beacon : Prop := got x = some f ∧ f.type = 1 ∧ f.payload.length = 16
    let toMe : Prop := f.dest = x.cfg.addr.toNat ∨ f.dest = 255
    let takes (z : Lane) : Prop := z.lastCyc = cyc ∧ z.lastStart = start ∧ z.missing = 0
    let keeps (z : Lane) : Prop := z.nodeSt = x.nodeSt ∧ z.epoch = x.epoch ∧ z.lastCyc = x.lastCyc ∧ z.lastStart = x.lastStart
    let isNode (z : Lane) : Prop := z.state = .node ∧ z.cnt = x.cnt
    let m := s.reach d (Die.dueMissing l)
    let y := (m.die d).lane l
    let mine : Prop := got k = some f ∧ k.state = .node ∧ k.nodeSt = .joined
    let reply (type : Nat) (p : List (BitVec 8)) : List (BitVec 8) :=
      let h := [BitVec.ofNat 8 (type + 16), 0, BitVec.ofNat 8 f.slot] ++ leBytes 2 p.length ++ [f.seq, 0, f.epoch] ++ p
      h ++ leBytes 4 (crc32c h).toNat
    let read := fieldAt f.payload 0 1
    let obj := fieldAt f.payload 2 2
    let echo (status : BitVec 8) : List (BitVec 8) := [BitVec.ofNat 8 read, status] ++ sliceBytes f.payload 2 3 ++ [0] ++ sliceBytes f.payload 6 2
    (beacon → toMe → x.state = .node → (x.nodeSt = .listen ∨ f.epoch ≠ x.epoch) → Acts (.beaconRx d l sof g) d s q fun u v => logs u v ∧
      isNode (v.lane l) ∧ takes (v.lane l) ∧ (v.lane l).nodeSt = .check ∧ (v.lane l).epoch = f.epoch) ∧
    (beacon → toMe → x.state = .node → x.nodeSt ≠ .listen → f.epoch = x.epoch → ¬ overlaps → onTime → Acts (.beaconRx d l sof g) d s q fun u v => logs u v ∧
      isNode (v.lane l) ∧ takes (v.lane l) ∧ (v.lane l).epoch = x.epoch ∧
      (v.lane l).nodeSt = (if x.nodeSt = .check then .hold else .joined)) ∧
    (beacon → toMe → x.state = .node → x.nodeSt = .check → f.epoch = x.epoch → ¬ overlaps → ¬ onTime → Acts (.beaconRx d l sof g) d s q fun u v => logs u v ∧
      isNode (v.lane l) ∧ (v.lane l).epoch = x.epoch ∧ (v.lane l).lastCyc = x.lastCyc ∧ (v.lane l).lastStart = x.lastStart ∧
      (v.lane l).nodeSt = (if diff32 start next < 0 ∧ 0 < diff32 u.time.ns next then .listen else .check)) ∧
    (beacon → toMe → x.state = .node → f.epoch = x.epoch → overlaps → Acts (.beaconRx d l sof g) d s q fun u v => logs u v ∧
      isNode (v.lane l) ∧ (v.lane l).epoch = x.epoch ∧ (v.lane l).nodeSt = .listen ∧ (v.lane l).lastCyc = x.lastCyc) ∧
    (beacon → ¬ toMe → x.state = .node → x.nodeSt = .joined → Acts (.beaconRx d l sof g) d s q fun u v => logs u v ∧ isNode (v.lane l) ∧ keeps (v.lane l)) ∧
    (beacon → toMe → x.state = .node → (x.nodeSt = .hold ∨ x.nodeSt = .joined) → f.epoch = x.epoch → ¬ onTime →
      Acts (.beaconRx d l sof g) d s q fun u v => logs u v ∧ isNode (v.lane l) ∧ keeps (v.lane l)) ∧
    (beacon → (x.state = .silent ∨ x.state = .backup) → (x.follows = false ∨ f.epoch ≠ x.epoch ∨ (diff32 start next).natAbs ≤ 250) →
      Acts (.beaconRx d l sof g) d s q fun u v => logs u v ∧ (v.lane l).state = .backup ∧ takes (v.lane l) ∧ (v.lane l).epoch = f.epoch ∧
        (v.lane l).cnt = x.cnt ∧
        (v.lane l).schedMismatch = (x.schedMismatch || decide (BitVec.ofNat 32 (fieldAt f.payload 12 4) ≠ x.cfg.schedId)) ∧
        (v.lane l).tcMismatch = (x.tcMismatch || decide (fieldAt f.payload 10 1 ≠ tcCode u.img.cell.tc))) ∧
    (beacon → x.state = .head → drives (q.die d) → Acts (.beaconRx d l sof g) d s q fun u v => logs u v ∧
      (v.lane l).state = .backup ∧ (v.lane l).deposed = true ∧ (v.lane l).session = none ∧ (v.lane l).cnt = x.cnt) ∧
    (got k = some f → f.type = 2 → k.state = .head → drives u → Acts (.startupRx d l g) d s s fun u v => logs u v ∧
      (v.lane l).state = .backup ∧ (v.lane l).deposed = true ∧ (v.lane l).session = none ∧ (v.lane l).epochRx = some f.epoch) ∧
    (got k = some f → f.type = 2 → k.state = .node → (f.dest = k.cfg.addr.toNat ∨ f.dest = 255) → Acts (.startupRx d l g) d s s fun u v => one u v ∧
      (v.lane l).state = .node ∧ (v.lane l).nodeSt = .listen ∧ (v.lane l).epochRx = some f.epoch ∧ (v.lane l).cnt = k.cnt) ∧
    (y.state = .node → y.nodeSt ≠ .listen → 0 ≤ diff32 (m.die d).time.ns (y.lastStart + BitVec.ofNat 32 (y.lastTc + 5000)) →
      Acts (.beaconMissing d l) d s m fun u v => one u v ∧ (v.lane l).lastStart = y.lastStart + BitVec.ofNat 32 y.lastTc ∧
        (v.lane l).epoch = y.epoch ∧
        (v.lane l).nodeSt = (if y.nodeSt ≠ .joined ∨ 3 ≤ y.missing + 1 then .listen else .joined)) ∧
    (y.state = .backup → 0 ≤ diff32 (m.die d).time.ns (y.lastStart + BitVec.ofNat 32 (y.lastTc + 5000)) →
      Acts (.beaconMissing d l) d s m fun u v => one u v ∧
        v.lane l = { y with lastStart := y.lastStart + BitVec.ofNat 32 y.lastTc, missing := y.missing + 1 }) ∧
    (mine → f.type = 3 → f.flags % 2 = 1 → f.dest = k.cfg.addr.toNat → drives u → k.cfg.objs = [] → Acts (.pollRx d l g) d s s fun u v =>
      one u v ∧ .mirrad l (reply 4 []) ∈ v.out ∧ v.lane l = { k with
        epochRx := some f.epoch
        lastEof := u.time.ns
        tx := some { start := u.time.ns + BitVec.ofNat 32 (nodeTurn l), bytes := reply 4 [] } }) ∧
    (mine → f.type = 3 → f.flags % 2 = 1 → f.dest = k.cfg.addr.toNat → drives u → k.cfg.objs = [uidJoint 5] → Acts (.pollRx d l g) d s s fun u v =>
      one u v ∧ .mirrad l (reply 4 (leBytes 4 (u.jnt 5).pos.toNat ++ leBytes 4 (u.jnt 5).vel.toNat ++ leBytes 4 (u.jnt 5).status.toNat)) ∈ v.out) ∧
    (mine → f.type = 5 → f.flags % 2 = 1 → Acts (.retpollRx d l g) d s s fun u v => one u v ∧ v.lane l = { k with epochRx := some f.epoch, lastEof := u.time.ns }) ∧
    (mine → f.type = 6 → f.dest = k.cfg.addr.toNat → drives u → k.lastReply = none → obj ≠ 1 → Acts (.acycRx d l g) d s s fun u v => one u v ∧
      (v.lane l).lastReply = some (f.seq, echo 1) ∧ .mirrad l (reply 7 (echo 1)) ∈ v.out) ∧
    (mine → f.type = 6 → f.dest = k.cfg.addr.toNat → drives u → k.lastReply = none → obj = 1 → read = 2 → Acts (.acycRx d l g) d s s fun u v => one u v ∧
      .mirrad l (reply 7 (echo 2)) ∈ v.out) ∧
    (mine → f.type = 6 → f.dest = k.cfg.addr.toNat → drives u → k.lastReply = some (f.seq, [1, 2, 3]) → Acts (.acycRx d l g) d s s fun u v => one u v ∧
      (v.lane l).lastReply = k.lastReply ∧ .mirrad l (reply 7 [1, 2, 3]) ∈ v.out) ∧
    (k.state ≠ .off → k.state ≠ .node → got k = some f → Acts (.idleRx d l g) d s s fun u v => one u v ∧ v.lane l = { k with epochRx := some f.epoch }) ∧
    -- a lane in BACKUP notes a poll, on the die that holds the grant
    (k.state = .backup → got k = some f → f.type = 3 → k.watch = none → Acts (.pollRx d l g) d s s fun u v => one u v ∧
      v.lane l = { k with
        epochRx := some f.epoch
        watch := if u.red.grant then some (f.dest, BitVec.ofNat 8 f.slot) else none }) ∧
    (x.state = .backup → got x = some f → f.type = 4 → (q.die d).red.grant = true → x.watch = some (3, BitVec.ofNat 8 f.slot) → f.slot < 256 →
      Acts (.replyRx d l sof g) d s q fun u v => one u v ∧ v.lane l = { x with
        epochRx := some f.epoch
        watch := none
        missed := vset x.missed 3 0
        absent := x.absent &&& ~~~ 8
        alarm := if f.flags / 2 % 2 = 1 then x.alarm ||| 8 else x.alarm })

/-- CAN frames, errors, confinement and references of a controller (R405, R406, R407, R409, R410, R411, R412, R414,
R415, R416, R417, R418, R419, R420, R422, R423). Choices of the model: The offered frame is on the bus (log
entry 61), the standby follows (log entries 64 and 123), the steps of TEC and REC are the standard's (log entry
59), REC after a long error state is free (log entry 62), the count of recovery is an operand (log entry 60). -/
def Obligations.CanFrames : Prop :=
  ∀ (d : DieId) (n : Fin 4) (f : CanFrame) (sof : BitVec 32) (i : Fin 32) (b : Fin 3) (tdcv : BitVec 7) (e : CanErr) (td : Option (BitVec 7)) (m : BitVec 8) (s : State),
    let u := s.die d
    let c := u.can n
    let runsAt (z : State) (x : Instr) (post : Die → Can → Prop) : Prop := Answers x s fun t =>
      post (t.die d) ((t.die d).can n) ∧ t.pending = s.pending ∧ (∀ k : Fin 4, k ≠ n → (t.die d).can k = u.can k) ∧
      (t.die d.peer).core = { (z.die d.peer).core with cans := (t.die d.peer).cans } ∧
      ∀ k : Fin 4, (t.die d.peer).can k =
        if u.red.grant && u.red.linkUp then Can.mirror ((t.die d).can k) ((z.die d.peer).can k) else (z.die d.peer).can k
    let runs (x : Instr) (post : Die → Can → Prop) : Prop := runsAt s x post
    let missAt := c.refAt + c.cfg.refPeriod.toNat * u.img.cell.tc / 8 - u.time.per
    let f' := s.elapse missAt
    let drives : Prop := u.red.gateOpen = true ∧ (u.unit 7 n).state = .active
    let onBus : Prop := c.st = .active ∨ c.st = .passive
    let hit (k : Fin 32) : Bool := let g := vget c.cfg.filters k
      bit g.id 31 && (bit g.id 29 == bit f.id 29) && decide ((f.id ^^^ g.id) &&& g.mask &&& 0x1FFFFFFF = 0)
    let first : Prop := hit i = true ∧ ∀ k, k < i → hit k = false
    let got (v : Die) (w : Can) : Prop := vget w.cnt 1 = satInc (vget c.cnt 1) ∧ (c.offer = .none → w.bufs = c.bufs) ∧ w.tec = c.tec ∧
      (c.romOn = true → w.rec' = c.rec') ∧ (c.romOn = false → c.rec' ≤ 127 → w.rec' = c.rec' - 1) ∧
      (c.romOn = false → 127 < c.rec' → 119 ≤ w.rec' ∧ w.rec' ≤ 127) ∧
      v.core = { u.core with cans := v.cans, err := v.err, fresh := v.fresh }
    let entry : CanEntry :=
      { id := f.id &&& 0x7FFFFFFF
        fmt := (f.fmt &&& 0x7F) ||| BitVec.ofNat 32 (i.val * 256)
        time := sof
        data := sliceBytes (f.data.take (if bit f.id 30 then 0 else canLen (bit f.fmt 4) (bits f.fmt 3 0))) 0 64 }
    let x := c.buf b
    let ends (w : Can) (result : BitVec 3) : Prop := w.buf b = { x with pending := false, aborting := false, result := result, done := true } ∧
      ∀ k, k ≠ b → w.buf k = c.buf k
    let brokeOff (w : Can) (v : Die) : Prop := (∀ k, k ≠ b → w.buf k = c.buf k) ∧ v.core = { u.core with cans := v.cans, err := v.err } ∧
      (if bit x.fmt 6 then ends w 3 else if x.aborting then ends w 2 else w.buf b = x)
    let confined (w : Can) (tec rec' : Nat) : Prop := w.tec = tec ∧ w.rec' = rec' ∧
      w.st = (if 255 < tec then .busoff else if c.st = .active ∧ (127 < tec ∨ 127 < rec') then .passive
        else if c.st = .passive ∧ tec ≤ 127 ∧ rec' ≤ 127 then .active else c.st) ∧
      vget w.cnt 3 = (if 255 < tec then satInc (vget c.cnt 3) else vget c.cnt 3)
    (drives → onBus → first → bit (vget c.cfg.filters i).id 30 = false → c.cfg.refEn = false → c.fifo.length < 32 →
      runs (.canFrameRx d n f sof) fun v w => got v w ∧ w.fifo = c.fifo ++ [entry] ∧ w.ovf = c.ovf) ∧
    (drives → onBus → first → bit (vget c.cfg.filters i).id 30 = false → c.cfg.refEn = false → 32 ≤ c.fifo.length →
      runs (.canFrameRx d n f sof) fun v w => got v w ∧ w.fifo = c.fifo ∧ w.ovf = true ∧ vget w.cnt 5 = satInc (vget c.cnt 5)) ∧
    (drives → onBus → c.cfg.refEn = false → (c.cfg.acceptAll = false ∧ (∀ k, hit k = false) ∨ first ∧ bit (vget c.cfg.filters i).id 30 = true) →
      runs (.canFrameRx d n f sof) fun v w => got v w ∧ w.fifo = c.fifo ∧ w.ovf = c.ovf) ∧
    (¬ drives → onBus → runs (.canFrameRx d n f sof) fun v w => got v w ∧ w.fifo = c.fifo ∧ w.ovf = c.ovf) ∧
    (drives → onBus → c.cfg.refEn = true → c.directOn = false → c.ref = .follow → c.validRef f = true → (∀ k, hit k = false) → c.cfg.acceptAll = false →
      runs (.canFrameRx d n f sof) fun v w => got v w ∧
        w.refOfs = BitVec.ofNat 32 (fieldAt f.data 4 4) - sof - c.cfg.refDly.setWidth 32 ∧ vget w.cnt 8 = satInc (vget c.cnt 8) ∧
        w.refMissed = 0 ∧ w.refOpen = false ∧
        w.refSkew = (c.refSkew || decide (u.time.jumpTh.toNat < w.refOfs.toInt.natAbs))) ∧
    (drives → c.offer = .buf b → c.romOn = false → onBus → runs (.canTxDone d n sof tdcv) fun v w => ends w 1 ∧ w.tec = c.tec - 1 ∧
      vget w.cnt 0 = satInc (vget c.cnt 0) ∧ w.alone = false ∧ w.fifo = c.fifo ∧
      v.core = { u.core with cans := v.cans, err := v.err } ∧
      .can n x.id.toNat (BitVec.ofNat 32 (bits x.fmt 5 0 + if bit x.fmt 4 ∧ c.st = .passive then 64 else 0))
        (if bit x.id 30 then [] else x.data.take (canLen (bit x.fmt 4) (bits x.fmt 3 0))) ∈ v.out) ∧
    (drives → c.offer = .ref → c.refBus = some (c.seq, u.time.cyc.setWidth 16) → c.refDue = c.refBus → c.romOn = false → c.cfg.refEn = true → c.directOn = false →
      c.ref = .master → c.st = .active →
      runs (.canTxDone d n sof tdcv) fun v w => w.bufs = c.bufs ∧ w.seq = c.seq + 1 ∧ w.refDue = none ∧ w.refOpen = false ∧ w.refMissed = 0 ∧
        vget w.cnt 6 = satInc (vget c.cnt 6) ∧ vget w.cnt 0 = satInc (vget c.cnt 0) ∧
        .can n (canWithRank (c.cfg.refId.setWidth 32) c.cfg.refRank).toNat 8
          ([c.cfg.refRank.setWidth 8, c.seq] ++ leBytes 2 (u.time.cyc.setWidth 16).toNat ++ leBytes 4 sof.toNat) ∈ v.out) ∧
    (drives → c.offer = .buf b → runs (.canArbLost d n) fun v w => brokeOff w v ∧ w.offer = .none ∧ w.receiving = true ∧
      w.tec = c.tec ∧ w.rec' = c.rec' ∧ w.cnt = c.cnt ∧ w.fifo = c.fifo) ∧
    (onBus → c.romOn = false → c.tec ≤ 255 → c.offer = .none → (e = .rx ∨ e = .rxDominant) → runs (.canBusError d n e td) fun v w =>
      v.core = { u.core with cans := v.cans, err := v.err } ∧ w.bufs = c.bufs ∧ w.fifo = c.fifo ∧ w.ackRun = 0 ∧
      confined w c.tec (min 255 (c.rec' + if e = .rx then 1 else 8))) ∧
    (drives → onBus → c.romOn = false → c.rec' ≤ 255 → c.tec ≤ 255 → c.offer = .buf b → (e = .txOther ∨ e = .bit true ∨ e = .bit false) →
      runs (.canBusError d n e td) fun v w => brokeOff w v ∧ w.fifo = c.fifo ∧ w.ackRun = 0 ∧ confined w (min 256 (c.tec + 8)) c.rec') ∧
    (drives → onBus → c.offer = .buf b → bit x.fmt 4 = true → bit c.cfg.tdc 0 = true → td = some tdcv → (e = .txOther ∨ e = .ack true ∨ e = .bit false) →
      runs (.canBusError d n e td) fun _ w => w.tdcv = tdcv ∧ w.tdcRange = (c.tdcRange || decide (127 < tdcv.toNat + bits c.cfg.tdc 7 1))) ∧
    (¬ drives → (e = .txOther ∨ e = .bit true ∨ e = .bit false ∨ e = .ack true ∨ e = .ack false ∨ e = .arbStuff) →
      runs (.canBusError d n e td) fun v w => v.core = u.core ∧ w = c) ∧
    (drives → onBus → c.romOn = false → c.rec' ≤ 255 → c.tec ≤ 255 → c.offer = .buf b → (e = .ack true ∨ e = .ack false) →
      runs (.canBusError d n e td) fun v w => v.core = { u.core with cans := v.cans, err := v.err } ∧ w.ackRun = c.ackRun + 1 ∧
        vget w.cnt 2 = satInc (vget c.cnt 2) ∧ w.alone = (c.alone || decide (c.ackRun + 1 = 16)) ∧
        (c.alone = true → c.aloneSs = true → bit x.fmt 6 = false → x.aborting = false → ends w 4) ∧
        (c.aloneSs = false → bit x.fmt 6 = false → x.aborting = false → w.buf b = x) ∧
        confined w (if c.st = .passive ∧ e = .ack false then c.tec else min 256 (c.tec + 8)) c.rec') ∧
    (c.st = .busoff → 128 ≤ c.boCnt + m.toNat → runs (.canBusoffRecovery d n m) fun v w => v.core = { u.core with cans := v.cans } ∧ w.st = .active ∧
      w.tec = 0 ∧ w.rec' = 0 ∧ w.boCnt = 128 ∧ w.bufs = c.bufs ∧ w.fifo = c.fifo ∧ w.cnt = c.cnt) ∧
    (c.st = .busoff → c.boCnt + m.toNat < 128 → runs (.canBusoffRecovery d n m) fun v w => v.core = { u.core with cans := v.cans } ∧
      w = { c with boCnt := c.boCnt + m.toNat }) ∧
    (c.st = .integrate → runs (.canIntegrated d n) fun v w => v.core = { u.core with cans := v.cans, err := v.err } ∧
      w.st = (if 255 < c.tec then .busoff else if 127 < c.tec ∨ 127 < c.rec' then .passive else .active) ∧ w.tec = c.tec ∧ w.rec' = c.rec' ∧
      w.fifo = c.fifo ∧ (c.tec ≤ 255 → w.bufs = c.bufs ∧ w.cnt = c.cnt) ∧ (c.tec ≤ 127 → c.rec' ≤ 127 → v.err = u.err)) ∧
    (onBus → c.cfg.pxd = false → runs (.canProtocolExc d n) fun v w => v.core = { u.core with cans := v.cans, err := v.err } ∧
      w = { c with st := .integrate, receiving := false, offer := .none, refBus := none, bufs := w.bufs } ∧
      (c.offer = .none ∨ c.offer = .ref → w.bufs = c.bufs) ∧ (c.offer = .buf b → if x.aborting then ends w 2 else w.bufs = c.bufs)) ∧
    (drives → u.ticksIn missAt = some missAt → c.refOpen = true → c.ref = .follow → c.refMissed = 1 → c.cfg.refEn = true → c.directOn = false → c.st = .active → c.romOn = false → c.rom = false →
      runsAt f' (.canRefMissed d n) fun v w => v.core = { (f'.die d).core with cans := v.cans, err := v.err } ∧ w.ref = .master ∧ w.refMissed = 0 ∧ w.refOpen = false ∧
        (c.refHeard = false → v.err = (f'.die d).err) ∧ w.cnt = c.cnt) ∧
    (drives → u.ticksIn missAt = some missAt → c.refOpen = true → c.refMissed = 0 → runsAt f' (.canRefMissed d n) fun v w => v.core = { (f'.die d).core with cans := v.cans } ∧
      w = { c with refOpen := false, refMissed := 1 })

/-- TX_REQ, TX_ABORT, modes and RX_POP act on a controller; the best buffer is offered (R407, R408, R409, R413,
R421, R422, R424, R425, R426). Choices of the model: What the standby takes over is a reading of the model (log
entry 64); an unused controller: log entry 113. -/
def Obligations.CanCommands : Prop :=
  ∀ (d : DieId) (n : Fin 4) (b : Fin 3) (on : Bool) (k : Can) (s : State),
    let u := s.die d
    let c := u.can n
    let peer := s.die d.peer
    let inUse : Bool := u.img.pins.cans.contains n.val
    let gives (x : Instr) (post : Die → Can → Prop) : Prop := u.reached 29 = true → Answers x s fun t =>
      post (t.die d) ((t.die d).can n) ∧ t.pending = s.pending ∧ (∀ k : Fin 4, k ≠ n → (t.die d).can k = u.can k) ∧
      (t.die d.peer).core = { peer.core with cans := (t.die d.peer).cans } ∧
      ∀ k : Fin 4, (t.die d.peer).can k = if u.red.grant && u.red.linkUp then Can.mirror ((t.die d).can k) (peer.can k) else peer.can k
    let runs (x : Instr) (post : Die → Can → Prop) : Prop := inUse = true → gives x post
    let reg (v : Die) : Prop := v.core = { u.core with cans := v.cans, host := u.okHost }
    let refused (v : Die) (w : Can) : Prop := v.core = { u.core with host := u.refusedHost } ∧ w = c
    let x := c.buf b
    let noRef : Prop := c.cfg.refEn = false ∧ c.ref = .off ∧ c.refDue = none ∧ c.refOpen = false ∧ c.refMissed = 0
    let takesPart : Prop := c.st = .active ∨ c.st = .passive
    let wins (a b : TxBuf) : Bool := decide (canArb a.id < canArb b.id)
    (x.pending = false → (bit x.fmt 4 && bit x.id 30) = false → noRef → takesPart → c.offer = .none → c.receiving = false →
      c.rom = false → c.mon = false → (∀ j, j ≠ b → (c.buf j).pending = false) → runs (.txReq d n b false) fun v w => reg v ∧
        w = { c with
          bufs := vset c.bufs b { x with pending := true, result := 0, aborting := false }
          offer := .buf b
          romOn := false
          monOn := false }) ∧
    (x.pending = false → (bit x.fmt 4 && bit x.id 30) = false → noRef → c.offer ≠ .none → runs (.txReq d n b false) fun v w => reg v ∧
        w = { c with bufs := vset c.bufs b { x with pending := true, result := 0, aborting := false } }) ∧
    (on = true ∨ (bit x.fmt 4 && bit x.id 30) = true → runs (.txReq d n b on) refused) ∧
    (x.pending = true → (bit x.fmt 4 && bit x.id 30) = false → runs (.txReq d n b false) fun v w => reg v ∧ w = c) ∧
    (x.pending = true → c.offer ≠ .buf b → runs (.txAbort d n b) fun v w => reg v ∧
      w = { c with bufs := vset c.bufs b { x with pending := false, aborting := false, result := 2, done := true } }) ∧
    (x.pending = true → c.offer = .buf b → runs (.txAbort d n b) fun v w => reg v ∧
      w = { c with bufs := vset c.bufs b { x with aborting := true } }) ∧
    (x.pending = false → runs (.txAbort d n b) fun v w => reg v ∧ w = c) ∧
    runs (.canRxPop d n) (fun v w => reg v ∧ w = { c with fifo := c.fifo.drop 1 }) ∧
    (c.st = .busoff → runs (.canInit d n true) refused) ∧
    (takesPart → noRef → c.offer ≠ .none → runs (.canInit d n true) fun v w => reg v ∧
      w = { c with cfg := { c.cfg with init := true }, st := .init, tec := 0, rec' := 0 }) ∧
    (c.st = .init → noRef → c.offer = .none → c.receiving = false → runs (.canInit d n false) fun v w => reg v ∧
      w = { c with cfg := { c.cfg with init := false }, st := .integrate, romOn := c.rom, monOn := c.mon }) ∧
    (noRef → c.offer = .none → c.receiving = false → (∀ j, (c.buf j).pending = false) → runs (.canRom d n on) fun v w => reg v ∧
      w = { c with rom := on, romOn := on, monOn := c.mon }) ∧
    (noRef → (c.offer ≠ .none ∨ c.receiving = true) → runs (.canRom d n on) fun v w => reg v ∧ w = { c with rom := on }) ∧
    (noRef → c.offer = .none → c.receiving = false → (∀ j, (c.buf j).pending = false) → runs (.canMon d n on) fun v w => reg v ∧
      w = { c with mon := on, monOn := on, romOn := c.rom }) ∧
    (noRef → (c.offer ≠ .none ∨ c.receiving = true) → runs (.canMon d n on) fun v w => reg v ∧ w = { c with mon := on }) ∧
    runs (.canDirect d n on) (fun v w => reg v ∧ w = { c with direct := on }) ∧
    (c.ref = .stopped → c.cfg.refEn = true → c.directOn = false → runs (.refRestart d n) fun v w => reg v ∧
      w.ref = .follow ∧ w.refMissed = 0 ∧ w.refClash = 0 ∧ w.bufs = c.bufs ∧ w.st = c.st ∧ w.cnt = c.cnt) ∧
    (c.ref = .follow → c.cfg.refEn = true → c.directOn = false → runs (.refRestart d n) fun v w => reg v ∧
      w.ref = .follow ∧ w.refMissed = c.refMissed ∧ w.bufs = c.bufs ∧ w.st = c.st ∧ w.cnt = c.cnt) ∧
    (inUse = false → ∀ x ∈ [.txReq d n b on, .txAbort d n b, .canRxPop d n, .canInit d n on, .canRom d n on, .canMon d n on, .canDirect d n on,
        .refRestart d n], gives x fun v w => v.core = { u.core with host := u.okHost } ∧ w = c) ∧
    (k.offer = .none → k.receiving = false → (k.st = .active ∨ k.st = .passive) → k.rom = false → k.mon = false →
      k.select = { k with
        romOn := false
        monOn := false
        refBus := k.select.refBus
        offer := k.select.offer } ∧
      (∀ m ∈ k.refDue.toList, k.select.offer = .ref ∧ k.select.refBus = some m) ∧
      (k.refDue = none → k.select.refBus = k.refBus ∧
        (k.select.offer = .buf b ↔ (k.buf b).pending = true ∧ ∀ j, j ≠ b → (k.buf j).pending = true →
          (k.cfg.txord = true → b < j) ∧
          (k.cfg.txord = false → wins (k.buf b) (k.buf j) = true ∨ (wins (k.buf j) (k.buf b) = false ∧ b < j)))))

/-- Unit commands and events move units between their states or are refused (R459, R460, R461, R462, R463, R464,
R465, R469, R471, R488). Choices of the model: The second fault and the counts are readings of the model (log
entry 66). -/
def Obligations.RedUnits : Prop :=
  ∀ (d : DieId) (kind : Fin 16) (idx : Fin 1024) (pass : Bool) (e r : Fin 80) (f : Fin 80) (more : List (Fin 80)) (ticks : Nat) (s : State),
    let u := s.die d
    let x := u.unit kind idx
    let p := s.die d.peer
    let names (die : DieId) : Prop := u.red.sel = uid die.num kind idx ∧ idx.val < kindCount kind ∧ hasUnitState kind = true ∧
      unitSlot kind idx < 1189
    let others (u v : Die) : Prop := ∀ j : Fin 1189, j.val ≠ unitSlot kind idx → vget v.red.units j = vget u.red.units j
    let onUnit (u v : Die) (host : HostIf) : Prop := others u v ∧
      v.core = { u.core with red := { u.core.red with units := v.red.units }, host := host }
    let reset (v : Die) : Prop := (v.unit kind idx).state = .reset
    let engs (v : Die) : Prop := ∀ e : Fin 80, v.engine e =
      if kind = 0 ∧ e.val = idx.val ∧ reset v then { (u.engine e) with regs := {}, pc := 0 } else u.engine e
    let stopped (p : Joint → Bool) : Prop := ∀ j : Fin 128, (u.jnt j).used = true → p (u.jnt j) = true → (u.jnt j).stopped = true
    let released : Prop := if kind = 0 then x.released = true else stopped fun y => kind != 6 || decide (y.cfg.lane = idx.val)
    let refused (u v : Die) : Prop := v.core = { u.core with host := u.refusedHost }
    let idle : Prop := x.silent = false ∧ x.inTakeover = false
    let counted (v : Die) (n : Fin 8) : Prop := vget v.red.cnt n = satInc (vget u.red.cnt n) ∧ ∀ k, k ≠ n → vget v.red.cnt k = vget u.red.cnt k
    let retired (v : Die) : Prop :=
      if x.again = true ∨ x.quarantine = true then (v.unit kind idx).state = .quarantined ∧ counted v 6 ∧ (x.again = false → v.err = u.err)
      else (v.unit kind idx).state = .reset ∧ v.red.cnt = u.red.cnt ∧ v.err = u.err
    let silenced (i : Instr) : Prop := OnReg i d 27 s fun u v => others u v ∧ counted v 5 ∧
      v.unit kind idx = { x with conflictDone := true } ∧
      v.core = { u.core with red := { u.core.red with units := v.red.units, cnt := v.red.cnt }, host := u.refusedHost, err := v.err }
    (names d → x.silent = false → OnReg (.enable d) d 27 s refused) ∧
    (names d → x.silent = true → silenced (.enable d) ∧ silenced (.test d) ∧ silenced (.drain d) ∧ silenced (.release d)) ∧
    (names d → idle → x.state = .standby → OnReg (.test d) d 27 s fun u v => onUnit u v u.okHost ∧ v.unit kind idx = { x with state := .selftest }) ∧
    (names d.peer → u.red.linkUp = true → (p.unit kind idx).silent = false → (p.unit kind idx).inTakeover = false → (p.unit kind idx).state = .standby →
      (s.die d).reached 27 = true → Answers (.test d) s fun t => onUnit p (t.die d.peer) p.okHost ∧
        (t.die d.peer).unit kind idx = { (p.unit kind idx) with state := .selftest } ∧ (t.die d).core = { u.core with host := u.okHost } ∧ t.pending = s.pending) ∧
    (names d → idle → x.state ≠ .standby → OnReg (.test d) d 27 s refused) ∧
    (names d → x.inTakeover = false → x.state = .faulted → u.red.grant = true → released →
      OnReg (.recover d) d 27 s fun u v => others u v ∧ retired v ∧ engs v ∧
        v.core = { u.core with red := { u.core.red with units := v.red.units, cnt := v.red.cnt }, host := u.okHost, err := v.err, eng := v.eng }) ∧
    (names d → x.state ≠ .faulted ∨ ¬ released → OnReg (.recover d) d 27 s refused) ∧
    (names d → idle → x.state = .quarantined → u.red.grant = true → OnReg (.release d) d 27 s fun u v => others u v ∧ engs v ∧
      v.core = { u.core with red := { u.core.red with units := v.red.units }, host := u.okHost, eng := v.eng } ∧
      v.unit kind idx = { x with state := .reset, faultCnt := 0 }) ∧
    (names d → x.silent = false → x.state ≠ .quarantined → OnReg (.release d) d 27 s refused) ∧
    (names d → x.inTakeover = false → x.state ≠ .off → u.red.grant = true → (kind ≠ 0 ∨ x.state ≠ .active) →
      OnReg (.quarantine d) d 27 s fun u v => others u v ∧ counted v 6 ∧
      (v.unit kind idx).state = .quarantined ∧ (v.unit kind idx).faultCnt = x.faultCnt ∧
      v.core = { u.core with red := { u.core.red with units := v.red.units, cnt := v.red.cnt }, host := u.okHost }) ∧
    -- of a failed engine whose role is moving, it waits for the end of the takeover
    (names d → x.inTakeover = true → x.state = .faulted → u.red.grant = true → OnReg (.quarantine d) d 27 s fun u v => onUnit u v u.okHost ∧
      v.unit kind idx = { x with quarantine := true }) ∧
    -- an engine that holds a role gives it to the spare of its cluster first
    (names d → kind = 0 → idx.val = e.val → idle → x.state = .active → u.red.grant = true → u.red.takes = [] →
      (u.engine e).roleNum = some r.val → (u.spares true fun s => s.val / 5 = e.val / 5) = f :: more → f ≠ e →
      OnReg (.quarantine d) d 27 s fun u v =>
        v.red.takes = [{ role := r, fromEng := e, toEng := f, cyc := u.time.cyc, cross := false, drain := false }] ∧
        (v.engine e).role = 0xFFFF ∧ (v.engine e).running = false ∧ (v.unit 0 e).quarantine = true ∧ (v.unit 0 e).inTakeover = true ∧
        (v.unit 0 f).inTakeover = true ∧ v.core.host = u.okHost ∧ v.joints = u.joints ∧ v.lanes = u.lanes ∧ v.axes = u.axes) ∧
    (names d → x.state = .off → OnReg (.quarantine d) d 27 s refused) ∧
    (names d → x.silent = false → u.red.grant = false → OnReg (.recover d) d 27 s refused ∧ OnReg (.release d) d 27 s refused ∧
      OnReg (.quarantine d) d 27 s refused ∧ OnReg (.drain d) d 27 s refused) ∧
    (names d → kind = 0 → idx.val = e.val → idle → x.state = .active → u.red.grant = true → (u.engine e).roleNum = some r.val →
      (u.spares false (fun s => s.val / 5 = e.val / 5)) ++ (u.spares false fun s => s.val / 20 = e.val / 20) = f :: more → f ≠ e →
      (u.engine e).running = true → OnReg (.drain d) d 27 s fun u v =>
        (v.unit 0 e).state = .draining ∧ (v.unit 0 e).inTakeover = true ∧ v.unit 0 f = { (u.unit 0 f) with inTakeover := true } ∧
        (∀ j : Fin 1189, j.val ≠ e.val → j.val ≠ f.val → vget v.red.units j = vget u.red.units j) ∧
        v.core = { u.core with
          red := { u.core.red with
            units := v.red.units
            takes := u.red.takes ++ [{ role := r, fromEng := e, toEng := f, cyc := u.time.cyc, cross := decide (f.val / 5 ≠ e.val / 5), drain := true }] }
          host := u.okHost }) ∧
    (names d → x.silent = false → (kind ≠ 0 ∨ x.state ≠ .active ∨ (idx.val = e.val ∧
        (u.spares false (fun s => s.val / 5 = e.val / 5)) ++ (u.spares false fun s => s.val / 20 = e.val / 20) = [])) →
      OnReg (.drain d) d 27 s refused) ∧
    (unitSlot kind idx < 1189 → kind ≠ 0 → x.state = .selftest → u.red.grant = true → Acts (.selftestDone d kind idx true) d s s fun u v => onUnit u v u.core.host ∧
      v.unit kind idx = { x with state := .active, role := u.uid kind idx, passCyc := some u.time.cyc, silent := false, conflictDone := false }) ∧
    (unitSlot kind idx < 1189 → kind ≠ 0 → x.state = .selftest → u.red.grant = false → Acts (.selftestDone d kind idx true) d s s fun u v => others u v ∧
      v.core = { u.core with red := { u.core.red with units := v.red.units, noSpare := v.red.noSpare }, err := v.err } ∧
      v.unit kind idx = { x with state := .standby, passCyc := some u.time.cyc, silent := false, conflictDone := false }) ∧
    (unitSlot kind idx < 1189 → kind ≠ 0 → x.state = .selftest → Acts (.selftestDone d kind idx false) d s s fun u v => others u v ∧ counted v 7 ∧
      v.core = { u.core with red := { u.core.red with units := v.red.units, cnt := v.red.cnt }, err := v.err } ∧
      (v.unit kind idx).state = .quarantined) ∧
    (unitSlot kind idx < 1189 → x.state = .reset → Acts (.unitResetComplete d kind idx) d s s fun u v => onUnit u v u.core.host ∧
      v.unit kind idx = { x with state := if u.unitUsed kind idx then .selftest else .off }) ∧
    ((∀ k : Fin 80, u.freeSpare false k = true → k.val / 5 = u.red.bistNext → f ≤ k) →
      (u.freeSpare false f = true ∧ f.val / 5 = u.red.bistNext) → u.ticksToBist = some ticks →
      Acts (.bistSlotStart d) d s (s.elapse ticks) fun u v =>
        v.unit 0 f = { (u.unit 0 f) with state := .selftest } ∧ (∀ j : Fin 1189, j.val ≠ f.val → vget v.red.units j = vget u.red.units j) ∧
        v.core = { u.core with red := { u.core.red with units := v.red.units, bistNext := (u.red.bistNext + 1) % 16, bistAt := some u.time.per } }) ∧
    ((∀ k : Fin 80, k.val / 5 = u.red.bistNext → u.freeSpare false k = false) → u.ticksToBist = some ticks → Acts (.bistSlotStart d) d s (s.elapse ticks) fun u v =>
      v.core = { u.core with red := { u.core.red with bistNext := (u.red.bistNext + 1) % 16, bistAt := some u.time.per } }) ∧
    (u.red.grant = true → Acts (.blockTestStep d pass true) d s s fun u v => v.core = u.core) ∧
    (u.red.grant = false → Acts (.blockTestStep d pass false) d s s fun u v => v.core = { u.core with red := { u.core.red with
        blockNext := u.red.blockNext + 1
        blockOk := u.red.blockOk && pass } }) ∧
    (u.red.grant = false → Acts (.blockTestStep d pass true) d s s fun u v => let ok := u.red.blockOk && pass
      v.core = { u.core with red := { u.core.red with
        blockNext := 0
        blockOk := true
        rotationOk := ok
        dieHealth := if ok then u.time.cyc else u.red.dieHealth
        dieFail := if ok then u.red.dieFail else satInc u.red.dieFail } }) ∧
    ((kind = 5 ∨ kind = 6 ∨ kind = 7) → unitSlot kind idx < 1189 → x.state = .active → Acts (.dataPathSilent d kind idx) d s s fun u v => others u v ∧
      v.unit kind idx = { x with state := .faulted, silent := true, faultCnt := satInc x.faultCnt, again := x.faultCnt ≠ 0 && (x.passCyc.map fun c => decide ((u.time.cyc - c).toNat < 2 ^ 20)) == some true, released := false } ∧
      v.core = { u.core with red := { u.core.red with units := v.red.units }, err := v.err }) ∧
    (x.state ≠ .active → Acts (.dataPathSilent d kind idx) d s s fun u v => v.core = u.core)

/-- The grant, handover, restart of the peer, gate and safe-output hold (R24, R473, R474, R475, R476, R479, R488).
Choices of the model: That a closing gate drops the grant line is a reading of the model (log entry 63). -/
def Obligations.RedGrant : Prop :=
  ∀ (d : DieId) (on : Bool) (n : BitVec 32) (ticks : Nat) (s : State),
    let u := s.die d
    let p := s.die d.peer
    let refused (u v : Die) : Prop := v.core = { u.core with host := u.refusedHost }
    let blocked : Prop := (s.a.jtag.instr = .extest ∨ s.a.jtag.instr = .clamp)
    let taking (x : Die) : Prop := x.red.tk = .armed ∨ x.red.tk = .shadow ∨ x.red.tk = .waitoff
    let q := s.reach d Die.dueLiveStop
    let tie : Prop := d = .a ∧ s.b.red.grant = true ∧ s.b.red.grantAt = some s.b.real ∧ s.a.boot.phase = .complete ∧ s.a.red.latched = false ∧ ¬ blocked
    (u.reached 27 = true → u.id = d → p.id = d.peer → u.boot.phase = .complete → u.red.grant = false → p.red.grant = false → u.red.latched = false →
      (s.a.jtag.instr ≠ .extest ∧ s.a.jtag.instr ≠ .clamp) → u.host.unacked = [] → p.host.unacked = [] → Answers (.grantReq d) s fun t =>
        let v := t.die d
        v.red.grant = true ∧ v.red.tk = .duty ∧ v.jtag.grantReqSeen = true ∧
        (∀ k : Fin 14, k ≠ 0 → ∀ i : Fin 1024, hasUnitState k = true → v.unit k i =
          if (u.unit k i).state = .standby ∧ u.unitUsed k i then { (u.unit k i) with state := .active, role := u.uid k i } else u.unit k i) ∧
        v.core = { u.core with
          red := { u.core.red with grant := true, tk := .duty, units := v.red.units, grantAt := some u.real }
          jtag := { u.jtag with grantReqSeen := true }
          host := u.okHost
          eng := v.eng
          sram := v.sram
          eccBad := v.eccBad
          eccSoft := v.eccSoft } ∧
        (t.die d.peer).core = p.core ∧ t.pending = s.pending) ∧
    (u.reached 27 = true → u.id = d → p.id = d.peer → ¬ tie → (u.red.grant = true ∨ p.red.grant = true ∨ u.red.latched = true ∨ u.boot.phase ≠ .complete ∨ blocked) →
      Answers (.grantReq d) s fun t =>
        (t.die d).core = { u.core with jtag := { u.jtag with grantReqSeen := true }, host := u.okHost } ∧ (t.die d.peer).core = p.core ∧ t.pending = s.pending) ∧
    (u.reached 27 = true → s.a.id = .a → u.red.grant = false → tie → Answers (.grantReq d) s fun t => t.a.red.grant = true ∧ t.a.red.tk = .duty ∧
      t.a.red.grantAt = some s.a.real ∧ t.b.red.grant = false ∧ t.b.red.tk = .standby ∧ t.b.red.gateOpen = false ∧
      (∀ i : Fin 1024, ∀ k : Fin 14, (s.b.unit k i).state = .active → (t.b.unit k i).state = .standby) ∧ t.pending = s.pending) ∧
    OnReg (.hostConfirm d on) d 27 s (fun u v => v.core = { u.core with red := { u.core.red with confirmReq := on }, host := u.okHost }) ∧
    (u.red.grant = true → u.red.degraded = false → u.red.handingOver = none → OnReg (.handover d) d 27 s fun u v =>
      v.core = { u.core with red := { u.core.red with handingOver := some u.time.cyc, handoverCmd := true }, host := u.okHost } ∧
      (u.red.linkUp = true → .token true u.time.cyc (BitVec.ofNat 32 (fieldAt u.img.id 0 4)) ∈ v.out)) ∧
    ((u.red.grant = false ∨ u.red.degraded = true) → OnReg (.handover d) d 27 s refused) ∧
    ((u.red.grant = false ∨ taking u ∨ taking p ∨ u.red.takes ≠ []) → OnReg (.restartPeer d) d 27 s refused) ∧
    (u.reached 27 = true → p.id = d.peer → u.host.unacked = [] → u.red.grant = true → ¬ taking u → ¬ taking p → u.red.takes = [] →
      p.red.grant = false → Answers (.restartPeer d) s fun t =>
      (t.die d).core = { u.core with host := u.okHost } ∧ t.pending = s.pending ∧ Die.blank false p (t.die d.peer) ∧
      (t.die d.peer).boot.cause = 3 ∧ (t.die d.peer).boot.phase = .starting ∧ (t.die d.peer).boot.tries = p.boot.tries ∧
      (t.die d.peer).sec.fused = p.sec.fused ∧ (t.die d.peer).sec.keyHash = p.sec.keyHash) ∧
    OnReg (.redClrCnt d) d 27 s (fun u v => v.core = { u.core with red := { u.core.red with cnt := Vector.replicate 8 0 }, host := u.okHost }) ∧
    (taking u → OnReg (.redConfirm d) d 27 s fun u v => v.core = { u.core with red := { u.core.red with confirmed := true }, host := u.okHost }) ∧
    (¬ taking u → OnReg (.redConfirm d) d 27 s fun u v => v.core = { u.core with host := u.okHost }) ∧
    (u.red.live = false → u.red.gateOpen = true → s.ticksIn (125 - u.red.quiet) = some ticks →
      Acts (.gateClose d) d s (s.elapse ticks) fun u v => v.red.gateOpen = false ∧
        v.core = { u.core with red := { u.core.red with latched := true, grant := false, handingOver := none } }) ∧
    (u.red.live = true → Acts (.gateClose d) d s s fun u v => v.core = u.core) ∧
    ((q.die d).red.handingOver = some n → (q.die d).time.cyc = n + 1 → u.img.cell.tc ≤ (q.die d).sinceStart + 750 →
      Acts (.handoverLiveStop d) d s q fun u v => v.core = { u.core with red := { u.core.red with live := false } }) ∧
    (s.gatesOk = true → s.driven = false → s.ticksIn (max s.a.img.cell.tc s.b.img.cell.tc - s.pkg.undriven) = some ticks →
      Answers .safeOutHoldExpiry s fun t => t.pkg = { (s.elapse ticks).pkg with safeA := false, safeB := false } ∧
        t.a.core = (s.elapse ticks).a.core ∧ t.b.core = (s.elapse ticks).b.core ∧ t.pending = s.pending) ∧
    (s.safeOk = true → s.gatesOk = true → s.driven = true → Answers .safeOutHoldExpiry s fun t =>
      t.pkg = { s.pkg with undriven := 0 } ∧ t.a.core = s.a.core ∧ t.b.core = s.b.core ∧ t.pending = s.pending)

/-- Heartbeats, tokens and silence lead to a takeover or to its end (R475, R476, R477, R478, R479, R480, R481,
R482). Choices of the model: What counts as silence and confirmation is a reading of the model (log entry 69). -/
def Obligations.RedTakeover : Prop :=
  ∀ (d : DieId) (k sig : BitVec 32) (ticks : List Nat) (r : Fin 80) (s : State),
    let u := s.die d
    let p := s.die d.peer
    let taking : Bool := decide (u.red.tk = .armed ∨ u.red.tk = .shadow ∨ u.red.tk = .waitoff)
    let q := s.elapse ((s.ticksToSilent d).getD 0)
    let z := q.die d
    let o := q.die d.peer
    let silent : Prop := (s.ticksToSilent d).isSome = true ∧ z.red.grant = false ∧ z.red.tk = .standby ∧ (o.red.grant = true ∨ z.red.hbSeen = true) ∧
      ((z.red.hbLast ≠ z.time.cyc ∧ 2000 ≤ z.sinceStart) ∨ 250 ≤ o.red.quiet)
    let armed (u : Die) : Red := { u.core.red with tk := .armed, silentAt := u.time.cyc, hbSince := false, confirmed := false }
    let restarted (u : Die) (q : Fin 1024) : Queue := if (u.queue q).used then (u.queue q).restart else u.queue q
    let quiet : Prop := (∀ w : Fin 4, (z.region w).plan = none) ∧ ∀ j : Fin 128, (z.jnt j).source ≠ 2
    let period (u : Die) (w : Fin 4) : Region :=
      let k := (u.time.cyc - BitVec.ofNat 32 (w.val * u.np / 4)).toNat
      let j := BitVec.ofNat 32 (k / max 1 u.np)
      if (u.region w).state = .off ∨ (u.region w).period = j then u.region w
      else { (u.region w) with
        period := j
        tj := u.time.start - BitVec.ofNat 32 (k % max 1 u.np * u.img.cell.tc)
        act := (u.region w).regs
        tauJ := (u.sepRegion w).tau
        deadlineDone := false
        published := false
        verifyDone := false
        tjState := [] }
    let skipped (u : Die) (rs : List Nat) (j : Fin 128) : Joint :=
      if rs.any fun r => (u.roleJoints r).contains j.val then { (u.jnt j) with plSkip := 3 } else u.jnt j
    let keeps (u : Die) : Option ShadowKept := some { joints := u.joints, regions := u.regions, axes := u.axes }
    let m := s.reach d Die.dueCheckPoint
    let x := m.die d
    let y := m.die d.peer
    let checks : Prop := x.red.tk = .shadow ∧ 1 ≤ diff32 x.time.cyc x.red.silentAt ∧ x.img.cell.tc ≤ x.sinceStart + 1000
    let noAcks : Prop := u.host.unacked = [] ∧ p.host.unacked = []
    let confirmed (x y : Die) : Prop := x.red.confirmMode = false ∨ x.red.confirmed = true ∨
      (x.red.handoverRx = some x.red.silentAt ∧ y.red.handoverCmd = true)
    let scan (x y : Die) : Prop := ∀ a ∈ (if d = .a then [x] else [y]), a.jtag.instr ≠ .extest ∧ a.jtag.instr ≠ .clamp
    let grants (u v : Die) : Prop := v.red.grant = true ∧ v.red.tk = .duty ∧ v.red.tkCyc = u.red.silentAt ∧
      vget v.red.cnt 2 = satInc (vget u.red.cnt 2) ∧ (∀ n : Fin 4, v.can n = (u.can n).takeover) ∧
      (∀ n : Fin 16, v.enc n = if (u.enc n).state ≠ .off ∧ (u.enc n).cfg.pt = 1 then { (u.enc n) with ptGap := true } else u.enc n) ∧
      v.core = { u.core with
        red := v.core.red
        cans := v.cans
        encs := v.encs
        trig := v.trig
        regions := vmap u.regions fun _ r => { r with noSolve := true }
        eng := v.eng
        sram := v.sram
        eccBad := v.eccBad
        eccSoft := v.eccSoft
        joints := v.joints
        kept := none
        err := v.err } ∧ (∀ j : Fin 128, v.jnt j = skipped u u.usedRoles j) ∧
      v.core.red = { u.core.red with grant := true, tk := .duty, tkCyc := u.red.silentAt, cnt := v.red.cnt, units := v.red.units }
    let runs (i : Instr) (m : State) (post : Die → Die → Prop) : Prop := Answers i s fun t => post (m.die d) (t.die d) ∧
      (t.die d.peer).core = (m.die d.peer).core ∧ t.pending = s.pending
    let abandons (u v : Die) : Prop := v.red.tk = .standby ∧ v.red.handoverRx = none ∧ v.red.takes = [] ∧ v.red.grant = u.red.grant ∧
      vget v.red.cnt 3 = satInc (vget u.red.cnt 3) ∧ v.red.degraded = true ∧ v.red.cause = 2 ∧
      (∀ q : Fin 1024, v.queue q = restarted u q) ∧ (∀ e : Fin 80, (u.engine e).roleNum.isSome = true → (v.engine e).role = 0xFFFF) ∧
      v.core = { u.core with
        red := v.core.red
        eng := v.eng
        qrc := v.qrc
        err := v.err
        joints := v.joints
        regions := v.regions
        axes := v.axes
        kept := none } ∧
      (u.kept = none → v.joints = u.joints ∧ v.regions = u.regions ∧ v.axes = u.axes) ∧
      (∀ k ∈ u.kept.toList, v.joints = k.joints ∧ v.regions = k.regions ∧ v.axes = u.keepPins k.axes)
    let wait (u v : Die) (tk : TkState) : Prop := v.core = { u.core with red := { u.core.red with tk := tk } }
    let f := s.reach d Die.dueWaitoff
    (u.red.grant = false → u.red.linkUp = true → Acts (.heartbeatRx d k sig) d s s fun u v => v.core = { u.core with red := { u.core.red with
        hbLast := k
        hbSig := sig
        hbSeen := true
        hbSince := u.red.hbSince || (taking && decide (0 < diff32 k u.red.silentAt)) } }) ∧
    (u.red.grant = false → u.red.linkUp = true → Acts (.handoverTokenRx d k sig) d s s fun u v =>
      v.core = { u.core with red := { u.core.red with handoverRx := some k, hbSig := sig } }) ∧
    ((u.red.grant = true ∨ u.red.linkUp = false) → Acts (.heartbeatRx d k sig) d s s fun u v => v.core = u.core) ∧
    (silent → z.red.fit = true → z.usedRoles = [] → quiet → Acts (.holderSilent d ticks) d s q fun u v =>
      v.core = { u.core with red := armed u, qrc := v.qrc, regions := v.regions, kept := keeps u } ∧ (∀ w : Fin 4, v.region w = period u w) ∧ ∀ n : Fin 1024, v.queue n = restarted u n) ∧
    (silent → z.red.fit = true → z.usedRoles = [r.val] → quiet → (z.unit 0 r).state = .standby → vget z.red.cairnCyc r = none →
      Acts (.holderSilent d ticks) d s q fun u v => (v.unit 0 r).state = .active ∧ (v.unit 0 r).role = u.uid 0 r ∧
        (v.engine r).role = u.uid 0 r ∧ (v.engine r).regs = {} ∧ (v.engine r).resume = true ∧ (∀ e : Fin 80, e ≠ r → v.engine e = u.engine e) ∧
        (∀ n : Fin 1024, v.queue n = restarted u n) ∧ (∀ w : Fin 4, v.region w = period u w) ∧
        (∀ j : Fin 128, v.jnt j = skipped u [r.val] j) ∧
        v.core = { u.core with
          red := { armed u with units := v.red.units }
          joints := v.joints
          kept := keeps u
          qrc := v.qrc
          regions := v.regions
          eng := v.eng
          sram := v.sram
          eccBad := v.eccBad
          eccSoft := v.eccSoft }) ∧
    (silent → z.red.fit = false → Acts (.holderSilent d ticks) d s q fun u v => v.core = { u.core with
        red := { u.core.red with tk := .unfit, live := false }
        err := v.err } ∧ v.err.foghorn = true) ∧
    (checks → noAcks → x.id = d → x.red.hbSince = false → y.red.gateOpen = false → y.red.grant = false → confirmed x y → scan x y →
      runs (.takeoverCheckPoint d) (m.elapse 125) grants) ∧
    (checks → x.red.hbSince = false → y.red.gateOpen = true → x.red.handoverRx = some x.red.silentAt → runs (.takeoverCheckPoint d) m fun u v => wait u v .waitoff) ∧
    (checks → y.red.gateOpen = true → (x.red.hbSince = true ∨ x.red.handoverRx ≠ some x.red.silentAt) → runs (.takeoverCheckPoint d) m abandons) ∧
    (checks → x.red.hbSince = false → y.red.gateOpen = false → ¬ confirmed x y → runs (.takeoverCheckPoint d) m fun u v => v.core = u.core) ∧
    (u.red.tk = .waitoff → noAcks → u.id = d → p.red.gateOpen = false → p.red.grant = false → confirmed u p → scan u p →
      u.sinceStart + 100 < u.img.cell.tc → runs (.enoffAssert d) (s.elapse 25) grants) ∧
    ((u.red.tk ≠ .waitoff ∨ p.red.gateOpen = true) → runs (.enoffAssert d) s fun u v => v.core = u.core) ∧
    ((f.die d).red.tk = .waitoff → u.img.cell.tc ≤ (f.die d).sinceStart + 100 → Acts (.waitoffTimeout d) d s f fun u v => wait u v .shadow)

/-- The standby keeps cairns, plans and forwarded state; records and the link follow (R314, R466, R467, R468, R482,
R484, R485). Choices of the model: The copies are taken when the command is carried out (log entry 13). -/
def Obligations.RedCopies : Prop :=
  ∀ (d : DieId) (role : Fin 80) (buf : List (BitVec 8)) (law : CairnState) (rest : List (Nat × List (BitVec 8) × CairnState)) (err : List (BitVec 8)) (w : Fin 4) (r : ErrRec) (recs : List ErrRec) (s : State),
    let u := s.die d
    let p := s.die d.peer
    let got := buf.zipIdx.map fun (x : BitVec 8 × Nat) => x.1 ^^^ err.getD x.2 0
    let len := fieldAt got 6 2
    let good : Prop := len + 16 ≤ got.length ∧ crc32c (sliceBytes got 16 len) = BitVec.ofNat 32 (fieldAt got 8 4)
    let next (id : DieId) (i : Instr) (post : Die → Die → Prop) : Prop := Answers i s fun t => t.pending = s.pending ∧
      post (t.die id) (t.die id.peer)
    let sent (v : Die) : Prop := v.core = { p.core with red := { p.core.red with cairnTx := rest } }
    let k := !vget u.cairnSel role
    let listens : Prop := u.red.grant = false ∧ u.red.linkUp = true ∧ p.red.grant = true
    let x := u.region w
    let y := p.region w
    let both (i : Instr) (post : Die → Die → Prop) : Prop := Answers i s fun t => t.pending = s.pending ∧ t.pkg = { s.pkg with undriven := t.pkg.undriven } ∧ post s.a t.a ∧ post s.b t.b
    (p.red.cairnTx = (role.val, buf, law) :: rest → u.red.linkUp = true → u.red.grant = false → good → next d (.cairnStreamRx d err) fun v o => sent o ∧
      Die.storesIn (cairnBase role k) got.length u v ∧ (u.sram.wf 0 = true → v.sram.read 0 (cairnBase role k) got.length = got) ∧
      v.core = { u.core with
        sram := v.sram
        cairnSel := vset u.cairnSel role k
        cairnState := vset u.cairnState role law
        red := { u.core.red with
          cairnCyc := vset u.red.cairnCyc role (some (BitVec.ofNat 32 (fieldAt got 0 4)))
          cairnGap := vset u.red.cairnGap role false } }) ∧
    (p.red.cairnTx = (role.val, buf, law) :: rest → u.red.linkUp = true → u.red.grant = false → ¬ good → next d (.cairnStreamRx d err) fun v o => sent o ∧
      v.core = { u.core with
        err := v.err
        red := { u.core.red with
          cairnGap := vset u.red.cairnGap role true
          cnt := vupd u.red.cnt 4 satInc } } ∧ (vget u.red.cairnGap role = true → v.err = u.err)) ∧
    (p.red.cairnTx = [] → next d (.cairnStreamRx d err) fun v o => v.core = u.core ∧ o.core = p.core) ∧
    (listens → y.warmWritten = false → Acts (.planStreamRx d w) d s s fun u v =>
      v.core = { u.core with regions := v.regions, sram := v.sram, sep := { u.sep with regions := v.sep.regions } } ∧
      (∀ j : Fin 4, v.sepRegion j = if j = w then { (u.sepRegion j) with
        applied := (p.sepRegion j).applied
        prev := (p.sepRegion j).prev
        tau := (p.sepRegion j).tau } else u.sepRegion j) ∧
      (∀ j : Fin 4, j ≠ w → v.region j = u.region j) ∧
      v.region w = { x with
        plan := y.plan
        period := y.period
        tauJ := y.tauJ
        tj := y.tj
        published := y.published
        nextBuf := y.nextBuf
        missConsec := y.missConsec
        sampled := y.sampled
        state := if x.state = .off then .off else if y.state = .armed ∨ y.state = .solving then .idle else y.state } ∧
      (let a := storeBase w + 0x3F4000 + if y.nextBuf then 0 else 0x1000
       Die.storesIn a 0x1000 u v ∧ (u.sram.wf 0 = true → v.sram.read 0 a 0x1000 = p.sram.read 0 a 0x1000))) ∧
    (listens → Acts (.forwardStateRx d) d s s fun u v =>
      (∀ j : Fin 128, v.jnt j = if (u.jnt j).used then { (p.jnt j) with
        cfg := (u.jnt j).cfg
        fbPos := (u.jnt j).fbPos
        fbVel := (u.jnt j).fbVel
        fbCur := (u.jnt j).fbCur
        fresh := (u.jnt j).fresh
        ran := (u.jnt j).ran
        lost := (u.jnt j).lost
        pred := (u.jnt j).pred
        law := (u.jnt j).law
        blend := (p.jnt j).blend.map fun b => { b with law := ((u.jnt j).blend.map fun o => o.law).getD {} } } else u.jnt j) ∧
      (∀ l : Fin 8, v.lane l = { (p.lane l) with
        lastSof := (u.lane l).lastSof
        lastEof := (u.lane l).lastEof
        sent := []
        tx := none
        waiting := none
        taken := []
        rxHeld := []
        follows := (u.lane l).follows }) ∧
      (∀ n : Fin 4, v.can n = { (Can.mirror (p.can n) (u.can n)) with direct := (p.can n).direct }) ∧
      (∀ a : Fin 16, v.axis a = { (u.axis a) with
        regs := { (u.axis a).regs with hostStep := (p.axis a).regs.hostStep }
        stop := (p.axis a).stop
        homeStart := (p.axis a).homeStart
        edge := (p.axis a).edge }) ∧
      (∀ n : Fin 4, v.region n = { (u.region n) with regs := { (u.region n).regs with hostReq := (p.region n).regs.hostReq } }) ∧
      (∀ n : Fin 4, v.sepRegion n = { (u.sepRegion n) with
        target := (p.sepRegion n).target
        applied := (p.sepRegion n).applied
        prev := (p.sepRegion n).prev
        tau := (p.sepRegion n).tau }) ∧
      v.core = { u.core with
        joints := v.joints
        lanes := v.lanes
        cans := v.cans
        axes := v.axes
        regions := v.regions
        sep := { u.sep with regions := v.sep.regions }
        red := { u.core.red with confirmReq := p.red.confirmReq, confirmMode := p.red.confirmMode } }) ∧
    ((u.red.grant = true ∨ u.red.linkUp = false ∨ p.red.grant = false) → Acts (.forwardStateRx d) d s s (fun u v => v.core = u.core) ∧
      Acts (.planStreamRx d w) d s s fun u v => v.core = u.core) ∧
    (p.err.forward = r :: recs → u.red.grant = true → u.red.linkUp = true → next d (.peerRecordRx d) fun v o =>
      v.core = { u.core with err := u.err.enter { r with peer := true } } ∧ o.core = { p.core with err := { p.err with forward := recs } }) ∧
    (p.err.forward = [] → next d (.peerRecordRx d) fun v o => v.core = u.core ∧ o.core = p.core) ∧
    (s.safeOk = true → s.gatesOk = true → (s.a.red.grant = true ∨ s.b.red.grant = true) → both .d2dLinkDown fun u v => v.core = { u.core with
        red := { u.core.red with linkUp := false, cairnTx := [], degraded := true, cause := 2 }
        err := v.err } ∧ ((u.red.degraded = true ∨ u.red.grant = false) → v.err = u.err)) ∧
    (s.safeOk = true → s.gatesOk = true → s.a.awake domD2d = true → s.b.awake domD2d = true → both .d2dLinkUp fun u v =>
      v.core = { u.core with red := { u.core.red with linkUp := true } }) ∧
    (s.safeOk = true → s.gatesOk = true → (s.a.awake domD2d = false ∨ s.b.awake domD2d = false) → both .d2dLinkUp fun u v =>
      v.core = u.core)

/-- Safety inputs request stops, time their discrepancy and are acknowledged (R605, R606, R612, R613). Choices of
the model: The levels, how long they stand, and a mismatch of the outputs are operands (log entries 39 and 41). -/
def Obligations.SafetyInputs : Prop :=
  ∀ (d : DieId) (k : Fin 4) (a b : Bool) (n : Nat) (mask : BitVec 4) (s : State),
    let e := (s.ticksIn n).elim s s.elapse
    let u := e.die d
    let x := u.safeIn k
    let others (u v : Die) : Prop := ∀ j : Fin 4, j ≠ k → v.safeIn j = u.safeIn j
    let pinA : Bool := a && u.ballUsed (.safeIn k false)
    let pinB : Bool := b && u.ballUsed (.safeIn k true)
    let filtered (i : Nat) (pin was : Bool) : Bool :=
      if 125000 ≤ u.real - (if bit u.safe.pins i = pin then (u.safe.pinAt[i]?).getD 0 else (s.die d).real) then pin else was
    let fa : Bool := filtered (2 * k.val) pinA x.filA
    let fb : Bool := filtered (2 * k.val + 1) pinB x.filB
    let raw : SafeIn := { x with filA := fa, filB := fb }
    let pins (u v : Die) : Safety := { u.safe with inputs := v.safe.inputs, pins := v.safe.pins, pinAt := v.safe.pinAt }
    let seen (u v : Die) : Prop := others u v ∧ ∀ i : Fin 8, bit v.safe.pins i =
      (if i.val = 2 * k.val then pinA else if i.val = 2 * k.val + 1 then pinB else bit u.safe.pins i)
    let peers (p v : Die) : Prop := v.core = { p.core with safe := { p.safe with pins := v.safe.pins, pinAt := v.safe.pinAt } } ∧ ∀ i : Fin 8, bit v.safe.pins i =
      (if i.val = 2 * k.val then a && p.ballUsed (.safeIn k false) else if i.val = 2 * k.val + 1 then b && p.ballUsed (.safeIn k true) else bit p.safe.pins i)
    let samples (post : Die → Die → Prop) : Prop := Answers (.safeInSample d k a b n) s fun t =>
      t.pending = s.pending ∧ peers (e.die d.peer) (t.die d.peer) ∧ post (e.die d) (t.die d)
    let one (u v : Die) : Prop := v.core = { u.core with safe := pins u v } ∧ seen u v
    let stops (cat : Nat) (arms : Nat → Bool) (u v : Die) : Prop := ∀ j : Fin 128,
      if (u.jnt j).used = true ∧ arms (u.jnt j).cfg.arm = true then
        (v.jnt j).stop.toNat = max (u.jnt j).stop.toNat cat ∧ vget (v.jnt j).cnt 7 = satInc (vget (u.jnt j).cnt 7) ∧
        (v.jnt j).pos = (u.jnt j).pos ∧ (v.jnt j).regs = (u.jnt j).regs
      else v.jnt j = u.jnt j
    let stopped (u v : Die) : Prop := v.core = { u.core with
        safe := pins u v
        joints := v.joints
        axes := v.axes
        qrc := v.qrc
        eng := v.eng
        err := v.err } ∧ seen u v ∧ stops x.stop.toNat (fun n => decide (n < 16) && bit x.arms n) u v
    let on : Prop := x.en = true ∧ u.awake domSafe = true
    let moved (u v : Die) (i : SafeIn) : Prop := one u v ∧ v.safeIn k = i
    let all (u v : Die) : Prop := v.core = { u.core with
      safe := { u.safe with mismatch := true }
      joints := v.joints
      axes := v.axes
      qrc := v.qrc
      eng := v.eng
      err := v.err }
    let inArm (n : Nat) : Bool := decide (n < 16)
    (x.en = false ∨ u.awake domSafe = false → samples fun u v => moved u v raw) ∧
    (on → fa = true → fb = true → (x.state = .load ∨ x.state = .stop ∨ x.state = .disc ∨ x.state = .latched) →
      samples fun u v => moved u v { raw with state := .latched }) ∧
    (on → fa = true → fb = true → x.state = .clear → samples fun u v => moved u v raw) ∧
    (on → fa = false ∨ fb = false → (x.state = .load ∨ x.state = .clear ∨ x.state = .latched) →
      samples fun u v => stopped u v ∧
        v.safeIn k = { raw with state := if fa || fb then .wait else .stop, waitA := !fa, waitAt := u.real }) ∧
    (on → x.state = .wait → (if x.waitA then fb else fa) = true → samples fun u v => moved u v raw) ∧
    (on → x.state = .wait → (if x.waitA then fb else fa) = false →
      samples fun u v => moved u v { raw with state := .stop }) ∧
    (on → fa = false ∨ fb = false → (x.state = .stop ∨ x.state = .disc) →
      samples fun u v => moved u v raw) ∧
    ((s.ticksTo d (Die.dueDisc k)) = some n → ((s.die d).safeIn k).en = true → ((s.die d).safeIn k).state = .wait →
      Acts (.safeDiscTimeout d k) d s (s.elapse n) fun u v => others u v ∧ v.safeIn k = { (u.safeIn k) with state := .disc } ∧
        v.err.foghorn = true ∧ v.core = { u.core with safe := { u.safe with inputs := v.safe.inputs }, err := v.err }) ∧
    (((s.die d).safeIn k).state ≠ .wait → Acts (.safeDiscTimeout d k) d s s fun u v => v.core = u.core) ∧
    ((∀ j : Fin 4, bit mask j = true → ((s.die d).safeIn j).state = .latched) → OnReg (.safeAck d mask) d 35 s fun u v =>
      v.core = { u.core with safe := { u.safe with inputs := v.safe.inputs }, host := u.okHost } ∧
      ∀ j : Fin 4, v.safeIn j = if bit mask j then { (u.safeIn j) with state := .clear } else u.safeIn j) ∧
    ((∃ j : Fin 4, bit mask j = true ∧ ((s.die d).safeIn j).state ≠ .latched) → OnReg (.safeAck d mask) d 35 s fun u v =>
      v.core = { u.core with safe := { u.safe with inputs := v.safe.inputs }, host := u.refusedHost } ∧
      ∀ j : Fin 4, v.safeIn j = if bit mask j ∧ (u.safeIn j).state = .latched then { (u.safeIn j) with state := .clear } else u.safeIn j) ∧
    (a ≠ b → (s.die d).safe.mismatch = false →
      Acts (.safeOutMismatch d a b) d s s fun u v => all u v ∧ v.err.foghorn = true ∧ stops 2 inArm u v) ∧
    ((a = b ∨ (s.die d).safe.mismatch = true) →
      Acts (.safeOutMismatch d a b) d s s fun u v => v.core = { u.core with safe := { u.safe with mismatch := a != b } })

/-- Temperatures, rails, margins, AVS, power cap and the error log (R597, R598, R599, R600, R601, R603, R604, R607,
R610, R611). Choices of the model: The grade is a constant of the part (log entry 18); the floor of the loop, a
failed frame and PWR_CAP = 0 see log entries 24 and 91. -/
def Obligations.MonitorAndLog : Prop :=
  ∀ (d : DieId) (temp : Vector (BitVec 16) 8) (volt : Vector (BitVec 13) 5) (margin : Vector (BitVec 10) 16) (src : Source) (hi : BitVec 32) (n ticks : Nat) (s : State),
    let u := s.die d
    let m := u.mon
    let e := s.elapse ticks
    let now' := (e.die d).real
    let comes (last : Mon → Option Nat) : Prop := s.ticksTo d (Die.dueStep last) = some ticks
    let nobodyWaits (u : Die) : Prop := ∀ k : Fin 4, (u.region k).run.all (fun x => x.started || !x.due) = true
    let logs (u v : Die) (mon : Mon) : Prop := v.core = { u.core with mon := mon, err := v.err }
    let fatal (u v : Die) (mon : Mon) : Prop := v.core = { u.core with mon := mon, err := v.err, red := { u.core.red with live := false } } ∧
      v.err.foghorn = true ∧ v.err.fatalOwn = true
    let reg (u v : Die) (e : ErrLog) : Prop := v.core = { u.core with err := e, host := u.okHost }
    let top := Config.gradeE
    let limit : Int := m.tWarn.toInt * 16
    let warm : Bool := temp.toList.any fun t => decide (limit ≤ t.toInt)
    let keeps : Bool := temp.toList.any fun t => decide (limit - 80 < t.toInt)
    let hot : Bool := temp.toList.any fun t => decide ((if top then 115 * 16 else 100 * 16) ≤ t.toInt)
    let now : Bool := warm || (m.inTempWarn && keeps)
    let mv (r : Fin 5) : Int := (vget volt r).toNat
    let outside (r : Fin 5) : Bool := match r with
      | 0 => decide (mv 0 < m.avsV.toNat - 30 ∨ m.avsV.toNat + 30 < mv 0)
      | 1 => decide (mv 1 < 760 ∨ 840 < mv 1)
      | 2 => decide (mv 2 < 1710 ∨ 1890 < mv 2)
      | 3 => decide (mv 3 < 3135 ∨ 3465 < mv 3)
      | 4 => decide (mv 4 < 1710 ∨ 1890 < mv 4)
    let mon : Mon := { m with
      temp := temp
      volt := volt
      margin := margin
      sampleAt := some now'
      inTempWarn := now
      tempWarn := m.tempWarn || now
      inTempFatal := hot
      inVoltWarn := Vector.ofFn outside
      voltWarn := m.voltWarn || (List.finRange 5).any outside }
    let least := m.margin.toList.foldl (fun a v => min a v.toNat) 1023
    let target := m.marginTgt.toNat
    let step : Int := m.avsV.toNat + (if least < target then 5 else if target + 20 < least then -5 else 0)
    let low : Int := max 650 (600 + 5 * m.vSwMin.toNat)
    let v : Int := max low (min 850 step)
    let above : Bool := decide (600 + 5 * (m.vSwMax.toNat : Int) < v)
    let power := m.avsV.toNat * m.iCore / 10000 + m.pwrCapOfs.toNat
    let cap := m.pwrCap.toNat
    let sev := hi.toNat / 2 ^ 29
    let code := hi.toNat % 256
    let unit := hi.extractLsb' 8 16
    let bad : Prop := code < 0xF0 ∨ 4 ≤ sev ∨ validUid unit = false
    let origin : Origin := if src = .keeper then .keeper else if src = .planner then .planner else .host
    let rec' (p : Sev) : ErrRec := { sev := p, uid := unit, code := BitVec.ofNat 8 code, cyc := u.time.cyc, origin := origin }
    let noCause : Prop := (∀ k : Fin 4, (u.safeIn k).state ≠ .disc) ∧ u.safe.mismatch = false ∧ u.err.first.toNat / 2 ^ 61 ≠ 4
    (comes Mon.sampleAt → u.awake domKeep = true → hot = false → Acts (.monitorSample d temp volt margin) d s e fun u v => logs u v mon ∧
      ((now = true → m.inTempWarn = true) → (∀ r, outside r = true → vget m.inVoltWarn r = true) → v.err = u.err)) ∧
    (comes Mon.sampleAt → u.awake domKeep = true → hot = true → m.inTempFatal = false →
      Acts (.monitorSample d temp volt margin) d s e fun u v => fatal u v mon) ∧
    Acts (.supplyFault d) d s s (fun u v => fatal u v m) ∧
    (comes Mon.avsAt → u.clk.sel = true → m.marginMin.toNat ≤ least → low ≤ 850 → Acts (.avsStep d (some n)) d s e fun u w => logs u w { m with
        avsV := BitVec.ofInt 10 v
        iCore := n
        inMarginFatal := false
        avsConflict := m.avsConflict || above
        avsAt := some now'
        ceilingSteps := if v = 850 ∧ least < target then m.ceilingSteps + 1 else 0
        ceilingDone := m.ceilingDone && decide (v = 850 ∧ least < target) } ∧ .avs v.toNat ∈ w.out ∧
      (above = false ∨ m.avsConflict = true → w.err = u.err)) ∧
    (comes Mon.avsAt → u.clk.sel = true → least < m.marginMin.toNat → low ≤ 850 → m.inMarginFatal = false →
      Acts (.avsStep d (some n)) d s e fun u w =>
      fatal u w { w.mon with inMarginFatal := true } ∧ .avs w.mon.avsV.toNat ∈ w.out) ∧
    (comes Mon.avsAt → u.clk.sel = true → Acts (.avsStep d none) d s e fun u w => w.core = { u.core with mon := { m with avsAt := some now' } }) ∧
    (u.clk.sel = false → (comes Mon.avsAt → Acts (.avsStep d (some n)) d s e (fun u w => w.core = u.core)) ∧
      (comes Mon.capAt → Acts (.powerCapStep d) d s e fun u w => w.core = u.core)) ∧
    (10 ≤ m.ceilingSteps → m.ceilingDone = false → Acts (.avsCeiling d) d s s fun u w => logs u w { m with ceilingDone := true }) ∧
    (m.ceilingSteps < 10 ∨ m.ceilingDone = true → Acts (.avsCeiling d) d s s fun u w => w.core = u.core) ∧
    (comes Mon.capAt → u.clk.sel = true → cap ≠ 0 → power < 65536 → nobodyWaits u → Acts (.powerCapStep d) d s e fun u w =>
      w.core = { u.core with
        err := w.err
        regions := vmap u.regions fun _ r => { r with run := r.run.map fun x => { x with stalled := x.stalled || (x.started && decide (cap < power)) } }
        mon := { m with
          pEst := BitVec.ofNat 16 power
          capAt := some now'
          duty := BitVec.ofNat 5 (if cap < power then max 1 (m.duty.toNat - 1) else if power * 100 < cap * 95 then min 16 (m.duty.toNat + 1) else m.duty.toNat)
          capOver := decide (cap < power) || (m.capOver && decide (cap * 95 ≤ power * 100))
          powerCapConflict := m.powerCapConflict || decide (cap < power ∧ target ≤ least ∧ least ≤ target + 20) } }) ∧
    OnReg (.pop d) d 27 s (fun u v => reg u v { u.err with ring := u.err.ring.drop 1 }) ∧
    OnReg (.clrFirst d) d 27 s (fun u v => reg u v { u.err with first := 0, fatalOwn := false }) ∧
    OnReg (.errClrCnt d) d 27 s (fun u v => reg u v { u.err with cntLost := 0 }) ∧
    (noCause → OnReg (.fogClr d) d 27 s fun u v => reg u v { u.err with foghorn := false }) ∧
    (¬ noCause → OnReg (.fogClr d) d 27 s fun u v => v.core = { u.core with host := u.refusedHost }) ∧
    (bad → OnReg (.errSwRec d src hi) d 27 s fun u v => v.core = { u.core with host := u.refusedHost }) ∧
    (¬ bad → u.err.ring.length < 1024 → sev < 3 → OnReg (.errSwRec d src hi) d 27 s fun u v =>
      reg u v { u.err with
        ring := u.err.ring ++ [rec' (if sev = 0 then .info else if sev = 1 then .warn else .degrade)]
        forward := if sev = 2 ∧ u.red.grant = false then u.err.forward ++ [rec' .degrade] else u.err.forward }) ∧
    (¬ bad → 1024 ≤ u.err.ring.length → sev = 3 → u.err.first = 0 → u.red.grant = true → OnReg (.errSwRec d src hi) d 27 s fun u v =>
      reg u v { u.err with
        ring := u.err.ring.drop 1 ++ [{ rec' .stop with ovf := true }]
        cntLost := satInc u.err.cntLost
        first := (rec' .stop).toWord })

/-- LOAD, its two passes, PUSH, ABORT and their refusals (R493, R503, R504, R505, R506, R507, R508, R509, R511,
R514). Choices of the model: The part of a PINS section that the manual gives no layout is read by an
uninterpreted function (log entry 8); corners of a load see log entries 80, 81, 82 and 84. -/
def Obligations.ImageLoads : Prop :=
  ∀ (d : DieId) (src : BitVec 2) (copy : Bool) (len : BitVec 19) (n : Nat) (f : LoadFail) (p : Parts) (i : Nat) (s : State),
    let u := s.die d
    let m := u.img
    let o := s.die d.peer
    let b := u.imgSource
    let mask (x : ImageUnit) : ImageUnit := { x with state := .empty, result := 0, done := false, pushReady := false, buf := [], pass2 := false }
    let refused (u v : Die) : Prop := v.core = { u.core with host := u.refusedHost } ∧ v.img.src = m.src
    let ends (v : Die) (st : ImgState) (result : Nat) : Prop := v.img.state = st ∧ v.img.result = BitVec.ofNat 8 result ∧ v.img.done = true ∧
      v.img.pushReady = false ∧ v.img.pass2 = false
    let old : ImgState := if m.secs = [] then .empty else .running
    let blamed (x : ImageUnit) (f : LoadFail) : ImageUnit := { x with
      errRule := BitVec.ofNat 16 f.rule
      errUid := f.uid
      errPos := BitVec.ofNat 24 f.pos
      errSec := BitVec.ofNat 8 f.sec }
    let fails (u v : Die) (f : LoadFail) : Prop := ends v old f.result ∧
      v.core = { u.core with img := mask { blamed m f with cnt := vupd m.cnt 1 satInc }, err := v.err }
    let still : Prop := ∀ j : Fin 128, (u.jnt j).used = true → (u.jnt j).cfg.arm < 16 → (u.jnt j).stopped = true ∨ ((u.jnt j).atRest = true ∧ (u.jnt j).source = 0)
    let stops (u v : Die) (img : ImageUnit) : Prop := v.core = { u.core with img := img, joints := v.joints, axes := v.axes, qrc := v.qrc } ∧
      ∀ j : Fin 128, if (u.jnt j).used = true ∧ (u.jnt j).cfg.arm < 16 then (v.jnt j).stop = 3 ∧ (v.jnt j).pos = (u.jnt j).pos else v.jnt j = u.jnt j
    let emptied (v : Die) : Prop := v.red.grant = false ∧ (∀ k : Fin 1189, vget v.red.units k = {}) ∧ v.joints = Vector.replicate 128 {} ∧
      v.lanes = Vector.replicate 8 {} ∧ v.img.secs = [] ∧ v.img.state = .empty ∧ v.img.done = true ∧ v.time.cycRun = false
    let pass2 : Prop := m.state = .place ∧ u.time.cycRun = false ∧ u.imgComplete = true ∧ u.powerPending m.power = false
    let same : Prop := imgDigest b = m.digest1 ∧ (imgSecs b).map (fun s => crc32c s.body) = m.crcs1
    (src = 1 → u.clk.sel = true → (m.state = .empty ∨ m.state = .running) → OnReg (.load d src copy) d 1 s fun u v => v.img.state = .check ∧ v.img.src = src ∧
      v.img.pushReady = true ∧ v.img.buf = [] ∧ v.img.pass2 = false ∧
      v.core = { u.core with img := mask { m with src := 1, copy := copy, readyAt := u.real }, host := u.okHost }) ∧
    (src = 0 → u.clk.sel = true → u.qspi.busy = false → (m.state = .empty ∨ m.state = .running ∧ still) → OnReg (.load d src copy) d 1 s fun u v => v.img.state = .check ∧
      v.img.src = 0 ∧ v.img.pushReady = false ∧ v.core = { u.core with img := mask { m with src := 0, copy := copy, readyAt := u.real }, host := u.okHost }) ∧
    ((u.clk.sel = false ∨ 2 ≤ src.toNat ∨ (m.state ≠ .empty ∧ m.state ≠ .running) ∨ (src = 0 ∧ u.qspi.busy = true)) → OnReg (.load d src copy) d 1 s refused) ∧
    (m.state = .check → u.imgComplete = true → u.pass1 b = some f → Acts (.imgPass1Done d) d s s fun u v => fails u v f) ∧
    ((m.state ≠ .check ∨ u.imgComplete = false) → Acts (.imgPass1Done d) d s s fun u v => v.core = u.core) ∧
    (m.state = .check → u.imgComplete = true → u.pass1 b = none → imgKind b ≠ 0 → Acts (.imgPass1Done d) d s s fun u v => ends v .staged 0 ∧
      v.core = { u.core with img := mask { m with staged := b, stagedId := imgDigest b } }) ∧
    (m.state = .check → u.imgComplete = true → u.pass1 b = none → imgKind b = 0 → (m.secs = [] ∨ still) → u.time.cycRun = true →
      Answers (.imgPass1Done d) s fun t => t.pending = s.pending ∧ stops o (t.die d.peer) (mask o.img) ∧ (t.die d).img.state = .place ∧
        stops u (t.die d) (mask { m with
          power := (partsOf (imgSecs b)).elim [] (·.power)
          readyAt := u.real
          digest1 := imgDigest b
          crcs1 := (imgSecs b).map fun s => crc32c s.body })) ∧
    (pass2 → u.powerFailed m.power = some i → Acts (.imgPass2Done d) d s s fun u v => emptied v ∧ v.img.errRule = 546 ∧ v.img.errUid = u.uidDom i ∧ v.err = u.err) ∧
    (pass2 → u.powerFailed m.power = none → (partsOf (imgSecs b) = none ∨ ¬ same) → Acts (.imgPass2Done d) d s s fun _ v => emptied v ∧ v.img.errRule = 503) ∧
    (pass2 → u.powerFailed m.power = none → partsOf (imgSecs b) = some p → same → Acts (.imgPass2Done d) d s s fun u v => ends v .running 0 ∧
      v.img.id = imgDigest b ∧ v.img.secs = imgSecs b ∧ v.time.cycRun = true ∧
      ∀ k : Fin 16, ∀ i : Fin 1024, hasUnitState k = true → i.val < kindCount k →
        v.unit k i = { state := if u.awake (unitDom k i) then .reset else .off }) ∧
    ((m.pushReady = false ∨ len = 0 ∨ 262144 < len.toNat) → OnReg (.imgPushLen d len) d 1 s fun u v => v.core = { u.core with host := u.refusedHost } ∧ (m.state ≠ .applying → v.img.buf = m.buf)) ∧
    (m.pushReady = true → m.src = 1 → m.state = .check → 0 < len.toNat → len.toNat ≤ 262144 → OnReg (.imgPushLen d len) d 1 s fun u v =>
      v.core = { u.core with img := mask { m with readyAt := v.img.readyAt }, host := u.okHost } ∧ v.img.buf = m.buf ++ u.sram.read 0 m.pushBase.toNat len.toNat ∧ v.img.state = .check ∧
      (v.img.buf.length < 128 → v.img.pushReady = true ∧ v.img.readyAt = u.real)) ∧
    (s.ticksTo d Die.duePush = some n → m.state = .check → Acts (.pushTimeout d) d s (s.elapse n) fun u v => v.img.errRule = 508 ∧ v.img.state = old ∧ v.img.done = true ∧
      v.img.pushReady = false ∧ v.core = { u.core with img := mask v.img, err := v.err } ∧ v.img.cnt = vupd m.cnt 1 satInc) ∧
    (s.ticksTo d Die.duePush = some n → m.state = .place → Acts (.pushTimeout d) d s (s.elapse n) fun u v => emptied v ∧ v.img.errRule = 508 ∧ v.err = u.err) ∧
    (m.state = .check → OnReg (.abort d) d 1 s fun u v => v.img.state = old ∧ v.img.done = true ∧ v.core = { u.core with host := u.okHost } ∧
      v.img.result = BitVec.ofNat 8 resAborted) ∧
    (m.state = .staged → OnReg (.abort d) d 1 s fun u v => v.img.state = .running ∧
      v.core = { u.core with img := mask { m with staged := [], stagedId := List.replicate 48 0 }, host := u.okHost }) ∧
    ((m.state = .place ∨ m.state = .applying) → OnReg (.abort d) d 1 s fun u v => v.core = { u.core with host := u.refusedHost }) ∧
    OnReg (.imgClrCnt d) d 1 s (fun u v => v.core = { u.core with img := mask { m with cnt := Vector.replicate 3 0 }, host := u.okHost })

/-- A staged update is applied on both dies at the cycle boundary, or stays staged (R509, R510, R511, R512, R513,
R514). Choices of the model: The peer's digest and the cycle see log entry 83. -/
def Obligations.ImageUpdates : Prop :=
  ∀ (d : DieId) (at' : Bool) (e : Fin 80) (x : ImgSec) (f : LoadFail) (s : State),
    let u := s.die d
    let o := s.die d.peer
    let m := u.img
    let mask (x : ImageUnit) : ImageUnit := { x with state := .empty, result := 0, done := false, pushReady := false, buf := [], pass2 := false }
    let taking (x : Die) : Prop := x.red.tk = .armed ∨ x.red.tk = .shadow ∨ x.red.tk = .waitoff ∨ x.red.handingOver ≠ none ∨ x.red.takes ≠ []
    let ready : Prop := m.state = .staged ∧ o.img.state = .staged ∧ o.img.stagedId = m.stagedId ∧ u.red.linkUp = true ∧ ¬ taking u ∧ ¬ taking o
    let k := if at' then m.applyCyc else u.time.cyc + 1
    let ends (v : Die) (st : ImgState) (result : Nat) : Prop := v.img.state = st ∧ v.img.result = BitVec.ofNat 8 result ∧ v.img.done = true ∧
      v.img.pushReady = false ∧ v.img.pass2 = false
    let due : Prop := s.a.img.state = .applying ∧ s.b.img.state = .applying ∧
      (let h := if s.a.red.grant = false ∧ s.b.red.grant = true then s.b else s.a
       h.time.cyc + 1 = h.img.applyK) ∧ ¬ taking s.a ∧ ¬ taking s.b
    let own (u : Die) := imgSecs u.img.staged
    let named (u : Die) : List Nat := (own u).flatMap u.secArms
    let still (u : Die) (a : Nat) : Prop := ∀ j : Fin 128, (u.jnt j).used = true → (u.jnt j).cfg.arm = a → (u.jnt j).stopped = true ∨ ((u.jnt j).atRest = true ∧ (u.jnt j).source = 0)
    let holder := if s.a.red.grant = false ∧ s.b.red.grant = true then s.b else s.a
    let applied (u v : Die) : ImageUnit := mask { u.img with
      id := imgDigest u.img.staged
      svn := BitVec.ofNat 7 (imgSvn u.img.staged)
      secs := mergeSecs u.img.secs (own u)
      staged := []
      stagedId := List.replicate 48 0
      progs := v.img.progs
      geomNext := v.img.geomNext
      cnt := vupd u.img.cnt 2 satInc }
    let both (i : Instr) (post : Die → Die → Prop) : Prop := Answers i s fun t => t.pending = s.pending ∧ post s.a t.a ∧ post s.b t.b
    (u.reached 1 = true → ready → Answers (.apply d at') s fun t => t.pending = s.pending ∧
      (t.die d).img.state = .applying ∧ (t.die d.peer).img.state = .applying ∧
      (t.die d).core = { u.core with img := mask { m with applyK := k, atCyc := at' }, host := u.okHost } ∧
      (t.die d.peer).core = { o.core with img := mask { o.img with applyK := k } }) ∧
    (u.reached 1 = true → ¬ ready → Answers (.apply d at') s fun t => t.pending = s.pending ∧
      (t.die d).core = { u.core with host := u.refusedHost } ∧ (t.die d.peer).core = o.core) ∧
    (due → (∃ a ∈ named holder, ¬ still holder a) → both .imgApplyBoundary fun u v => v.core = u.core ∧ ends v .staged resRest) ∧
    (due → own s.a = [] → own s.b = [] → both .imgApplyBoundary fun u v => ends v .running 0 ∧
      v.core = { u.core with img := applied u v, err := v.err }) ∧
    (due → (∀ a ∈ named holder, still holder a) → own u = [x] → x.type = 6 → u.holder x.inst = some e → x.inst < 80 → Answers .imgApplyBoundary s fun t =>
      let v := t.die d
      t.pending = s.pending ∧ ends v .running 0 ∧ Die.storesIn (dataBase e + x.addr) x.body.length u v ∧
      (u.sram.wf 0 = true → v.sram.read 0 (dataBase e + x.addr) x.body.length = x.body) ∧
      v.engine e = { (u.engine e) with skipRun := true } ∧ (∀ g : Fin 80, g ≠ e → v.engine g = u.engine g) ∧
      v.core = { u.core with img := applied u v, err := v.err, sram := v.sram, eng := v.eng }) ∧
    ((s.a.img.state ≠ .applying ∨ s.b.img.state ≠ .applying ∨ holder.time.cyc + 1 ≠ holder.img.applyK) → both .imgApplyBoundary fun u v => v.core = u.core) ∧
    (u.red.linkUp = true → o.img.state = .staged → m.state = .running → u.pass1 o.img.staged = some f → Acts (.stagedUpdateRx d) d s s fun u v =>
      v.img.done = true ∧ v.img.result = BitVec.ofNat 8 f.result ∧ v.img.errRule = BitVec.ofNat 16 f.rule ∧ v.img.errUid = f.uid ∧
      v.core = { u.core with img := mask v.img, err := v.err } ∧ v.img.cnt = vupd m.cnt 1 satInc ∧ v.img.staged = m.staged) ∧
    (u.red.linkUp = true → o.img.state = .staged → m.state = .running → u.pass1 o.img.staged = none → imgKind o.img.staged ≠ 0 →
      Acts (.stagedUpdateRx d) d s s fun u v => ends v .staged 0 ∧
        v.core = { u.core with img := mask { m with staged := o.img.staged, stagedId := imgDigest o.img.staged } }) ∧
    ((u.red.linkUp = false ∨ o.img.state ≠ .staged ∨ m.state ≠ .running) → Acts (.stagedUpdateRx d) d s s fun u v => v.core = u.core)

/-- Reset pins and supply detectors hold a die and start it with its cause (R434, R521, R522, R576, R581, R640,
R641). Choices of the model: Which detectors hold a die and how resets meet see log entries 72 and 73. -/
def Obligations.PinResets : Prop :=
  ∀ (d : DieId) (sel : Bool) (adr : BitVec 3) (k : Fin 3) (s : State),
    let u := s.die d
    let keeps (u v : Die) : Prop := v.boot.tries = u.boot.tries ∧ v.sec.keyHash = u.sec.keyHash ∧ v.sec.revoked = u.sec.revoked ∧
      v.sec.fused = u.sec.fused ∧ v.sec.claimed = u.sec.claimed ∧ v.qspi = { flash := u.qspi.flash }
    let cold (u v : Die) : Prop := Die.blank true u v ∧ keeps u v ∧ v.boot.phase = .reset ∧ v.time = {} ∧ v.err = {} ∧ v.jtag = {} ∧ v.rst.cause = 0 ∧
      v.sec.nonInv = false ∧ v.sec.inv = false
    let warm (u v : Die) : Prop := Die.blank false u v ∧ keeps u v ∧ v.boot.phase = .reset ∧ v.err = { first := u.err.first } ∧ v.jtag = u.jtag ∧ v.rst.cause = 1 ∧
      v.time = { ns := u.time.ns, frac := u.time.frac, rate := u.time.rate, remaining := u.time.remaining, afterWarm := true } ∧
      v.sec.nonInv = false ∧ v.sec.inv = false
    let holds (r : ResetPins) : Bool := r.por || r.wrst || vget r.low 0 || vget r.low 1 || vget r.low 2
    let starts (u v : Die) (r : ResetPins) : Prop := v.boot.phase = .starting ∧ v.boot.cause = BitVec.ofNat 4 r.cause ∧ v.boot.minimal = false ∧
      v.boot.fwCopy = false ∧ v.boot.tries = u.boot.tries ∧ v.clk.irc = true ∧ v.rst = r ∧
      (v.dom domFab).req = 2 ∧ (v.dom domKeep).req = 2 ∧ v.sec.challenge.length = 16 ∧
      v.core = { u.core with
        boot := v.boot
        clk := v.clk
        sec := { u.sec with challenge := v.sec.challenge }
        pwr := v.pwr
        qspi := v.qspi
        host := v.core.host
        rst := r
        fresh := v.fresh }
    let waits (u v : Die) (r : ResetPins) : Prop := v.rst = r ∧ v.boot.phase = u.boot.phase ∧
      v.core = { u.core with rst := r, boot := v.boot, host := v.core.host } ∧ v.boot.cause = u.boot.cause
    let loses (u v : Die) : Prop := v.core = { u.core with axes := v.axes } ∧ (k = 2 → v.red.gateOpen = false) ∧
      ∀ a : Fin 16, v.axis a = { u.axis a with homed := (u.axis a).homed && (k != 2 || !u.red.gateOpen || (u.axis a).vt == 0) }
    let strapped (v : Die) : Prop := v.boot.src = sel ∧ v.host.smbAddr = BitVec.ofNat 7 (0x60 + 2 * adr.toNat + u.id.num)
    let same (u v : Die) : Prop := v.boot.src = u.boot.src ∧ v.core.host = u.core.host
    let porOff : ResetPins := { u.rst with por := false }
    let wrstOff : ResetPins := { u.rst with wrst := false }
    let up : ResetPins := { u.rst with low := vset u.rst.low k false }
    Acts (.porAssert d) d s s (fun u v => cold u v ∧ v.rst = { u.rst with por := true, cause := 0 }) ∧
    (u.boot.phase ≠ .reset → Acts (.wrstAssert d) d s s fun u v => warm u v ∧ v.rst = { u.rst with wrst := true, cause := 1 }) ∧
    (u.boot.phase = .reset → Acts (.wrstAssert d) d s s fun u v => v.core = { u.core with rst := { u.rst with wrst := true } }) ∧
    (u.boot.phase ≠ .reset → Answers (.supplyDetectorFall d k) s fun t => cold u (t.die d) ∧
      (t.die d).rst = { u.rst with low := vset u.rst.low k true, cause := 0 } ∧ t.pending = s.pending ∧ loses (s.die d.peer) (t.die d.peer)) ∧
    (u.boot.phase = .reset → Answers (.supplyDetectorFall d k) s fun t =>
      (t.die d).core = { u.core with rst := { u.rst with low := vset u.rst.low k true } } ∧ t.pending = s.pending ∧ loses (s.die d.peer) (t.die d.peer)) ∧
    (u.rst.por = true → u.boot.phase = .reset → holds porOff = false → Acts (.porRelease d sel adr) d s s fun u v => starts u v porOff ∧ strapped v) ∧
    (u.rst.por = true → holds porOff = true → Acts (.porRelease d sel adr) d s s fun u v => waits u v porOff ∧ strapped v) ∧
    (u.rst.wrst = true → u.boot.phase = .reset → holds wrstOff = false → Acts (.wrstRelease d) d s s fun u v => starts u v wrstOff ∧ same u v) ∧
    (u.rst.wrst = true → holds wrstOff = true → Acts (.wrstRelease d) d s s fun u v => waits u v wrstOff ∧ same u v) ∧
    (vget u.rst.low k = true → u.boot.phase = .reset → holds up = false → Acts (.supplyDetectorRise d k) d s s fun u v => starts u v up ∧ same u v) ∧
    (vget u.rst.low k = true → holds up = true → Acts (.supplyDetectorRise d k) d s s fun u v => waits u v up ∧ same u v)

/-- Firmware loads, watchdog, BOOT_OK, FAIL, RETRY and self-restart (R520, R521, R523, R524, R525, R526, R527, R528,
R529). Choices of the model: LIVE from BOOT_OK on: log entry 23; the keys behind the signatures are constants of
the part (log entry 17). -/
def Obligations.BootSequence : Prop :=
  ∀ (d : DieId) (ok : Bool) (src : Source) (code : BitVec 8) (s : State),
    let u := s.die d
    let recorded (u v : Die) : Prop := v.core = { u.core with boot := v.boot, qspi := v.qspi } ∧
      v.boot.cause = u.boot.cause ∧ v.boot.tries = u.boot.tries ∧ v.boot.src = u.boot.src ∧ v.qspi = { u.qspi with flash := v.qspi.flash } ∧
      (u.qspi.busy = true → v.qspi = u.qspi ∧ v.boot.recWait.length = u.boot.recWait.length + 1)
    let failed (u v : Die) (n : Nat) : Prop := recorded u v ∧ v.boot.phase = .failed ∧ v.boot.lastFail = BitVec.ofNat 8 n ∧ v.dueWatchdog = none
    let failedReg (u v : Die) (n : Nat) : Prop := v.boot.phase = .failed ∧ v.boot.lastFail = BitVec.ofNat 8 n ∧ v.dueWatchdog = none ∧
      v.core = { u.core with boot := v.boot, qspi := v.qspi, host := u.okHost } ∧ v.boot.tries = u.boot.tries
    let fw := u.boot.fwBuf
    let sig := fieldAt fw 12 4
    let len := fieldAt fw 8 4
    let pushed : Prop := 64 ≤ fw.length ∧ (len ≤ fw.length ∨ 400000 < len)
    let n := u.boot.wdAt + 5000000000 - u.real
    let restarted (u v : Die) (cause : Nat) : Prop := Die.blank false u v ∧ v.boot.phase = .starting ∧ v.boot.cause = BitVec.ofNat 4 cause ∧
      v.sec.fused = u.sec.fused ∧ v.sec.keyHash = u.sec.keyHash ∧ v.err.first = u.err.first ∧ v.time.ns = u.time.ns
    (u.boot.phase = .rom → Acts (.fwLoadDone d false) d s s fun u v => failed u v 1) ∧
    (u.boot.phase = .rom → u.boot.src = false → readDir u.qspi.flash = none → Acts (.fwLoadDone d true) d s s fun u v => failed u v 2) ∧
    (u.boot.phase = .rom → u.boot.src = true → ¬ pushed → Acts (.fwLoadDone d true) d s s fun u v => v.core = u.core) ∧
    (u.boot.phase = .rom → u.boot.src = true → pushed → u.fwCheck fw ≠ 0 → Acts (.fwLoadDone d true) d s s fun u v => failed u v (u.fwCheck fw)) ∧
    (u.boot.phase = .rom → u.boot.src = true → pushed → u.fwCheck fw = 0 → Acts (.fwLoadDone d true) d s s fun u v => v.boot.phase = .firmware ∧
      v.boot.wdAt = u.real ∧ v.boot.fwSvn = BitVec.ofNat 8 (fieldAt fw 6 1) ∧ v.boot.fwEntry = BitVec.ofNat 32 (fieldAt fw 0x14 4) ∧
      v.boot.fwPush = false ∧ v.sec = { u.sec with fwId := sha384 (fw.take sig) } ∧
      Die.storesIn 0x02500000 (fieldAt fw 0x18 4) u v ∧ v.core = { u.core with boot := v.boot, sec := v.sec, sram := v.sram }) ∧
    (u.boot.phase ≠ .rom → Acts (.fwLoadDone d ok) d s s fun u v => v.core = u.core) ∧
    (u.boot.phase = .firmware → s.ticksIn n = some n → Acts (.bootWatchdog d) d s (s.elapse n) fun u v => failed u v 9) ∧
    (u.boot.phase = .firmware → s.ticksIn n = none → Acts (.bootWatchdog d) d s s fun u v => v.core = u.core) ∧
    (u.boot.phase ≠ .firmware → Acts (.bootWatchdog d) d s s fun u v => v.core = u.core) ∧
    (src = .keeper → u.boot.phase = .firmware → u.err.fatalOwn = false → OnReg (.bootOk d src) d 0 s fun u v => v.boot.phase = .complete ∧ v.boot.tries = 0 ∧
      v.dueWatchdog = none ∧ v.boot.lastFail = 0 ∧ v.boot.borPending = false ∧ v.red.live = true ∧ v.red.grant = u.red.grant ∧ v.boot.cause = u.boot.cause ∧
      (u.boot.lastFail = 0 → u.boot.borPending = false → v.err = u.err) ∧
      v.core = { u.core with
        boot := v.boot
        qspi := v.qspi
        err := v.err
        red := { u.core.red with live := true, quiet := v.red.quiet }
        host := u.okHost }) ∧
    (src ≠ .keeper → OnReg (.bootOk d src) d 0 s (fun u v => v.core = { u.core with host := u.refusedHost }) ∧
      OnReg (.fail d src code) d 0 s fun u v => v.core = { u.core with host := u.refusedHost }) ∧
    (src = .keeper → u.boot.phase = .firmware → OnReg (.fail d src code) d 0 s fun u v => failedReg u v (if code = 12 then 12 else 10)) ∧
    (src = .keeper → u.boot.phase ≠ .firmware → OnReg (.bootOk d src) d 0 s (fun u v => v.core = { u.core with host := u.okHost }) ∧
      OnReg (.fail d src code) d 0 s fun u v => v.core = { u.core with host := u.okHost }) ∧
    (u.boot.phase = .minimal → OnReg (.retry d) d 0 s fun u v => restarted u v 5 ∧ v.boot.tries = 0) ∧
    (u.boot.phase ≠ .minimal → OnReg (.retry d) d 0 s fun u v => v.core = { u.core with host := u.refusedHost }) ∧
    (u.boot.phase = .failed → Acts (.selfRestart d) d s s fun u v => restarted u v 2 ∧ v.boot.tries = u.boot.tries) ∧
    (u.boot.phase ≠ .failed → Acts (.selfRestart d) d s s fun u v => v.core = u.core)

/-- Attestation, tokens, SVN burns and debug locks (R516, R517, R518, R530, R531, R532, R534, R535, R536, R537,
R538, R540). Choices of the model: The keys behind the signatures are constants of the part (log entry 17); the
challenge is an operand; the SVN target see log entry 74; the fuse that failed see log entry 2. -/
def Obligations.SecurityCommands : Prop :=
  ∀ (d : DieId) (burn : Bool) (ch : BitVec 128) (n : Nat) (s : State),
    let u := s.die d
    let x := u.sec
    let reg (u v : Die) (x : Security) : Prop := v.core = { u.core with sec := x, host := u.okHost }
    let refused (u v : Die) : Prop := v.core = { u.core with host := u.refusedHost }
    let ev (u v : Die) (x : Security) : Prop := v.core = { u.core with sec := x }
    let logs (u v : Die) (x : Security) : Prop := v.core = { u.core with sec := x, err := v.err }
    let fresh : Bool := decide (x.leaves = none) || x.leaves.any fun q => decide (1024 ≤ q)
    let done (x : Security) (r : BitVec 4) : Security := { x with state := .idle, done := true, result := r }
    let signs : Prop := x.state = .attest ∨ x.state = .claim
    let report (j q : Nat) : List (BitVec 8) := x.snapshot ++ sliceBytes (ecdsaSign u.id.num (sha384 x.snapshot)) 0 96 ++
      sliceBytes (Config.hssSign u.id.num j q (sha384 x.snapshot)) 0 5076
    let t := x.tokenBuf.read 0 0 5440
    let op := fieldAt t 4 1
    let slot := 4 * fieldAt t 6 1 + fieldAt t 5 1
    let drawn : Security := { x with challenge := leBytes 16 ch.toNat, cnt := vupd x.cnt 1 satInc }
    let target := x.svnTarget.toNat
    let allowed : Prop := x.fused < target ∧ target ≤ 64 ∧ target ≤ u.boot.fwSvn.toNat ∧ target ≤ u.img.svn.toNat
    let idle : Prop := x.state = .idle
    (idle → OnReg (.attReq d) d 1 s fun u v => reg u v { x with
      snapshot := u.attSnapshot
      state := if fresh = true ∧ x.claimed < 1024 then .claim else .attest }) ∧
    (¬ idle → OnReg (.attReq d) d 1 s refused ∧ OnReg (.tokenGo d) d 1 s refused ∧ OnReg (.svnCommit d) d 1 s refused) ∧
    (signs → fresh = false → Acts (.attReportDone d burn) d s s fun u v => ev u v (done { x with
      attBuf := report (x.claimed - 1) (x.leaves.getD 0)
      leaves := some (x.leaves.getD 0 + 1)
      reportSeq := x.reportSeq + 1
      cnt := vupd x.cnt 0 satInc } 0)) ∧
    (signs → fresh = true → x.claimed < 1024 → Acts (.attReportDone d true) d s s fun u v => logs u v (done { x with
      attBuf := report x.claimed 0
      leaves := some 1
      claimed := x.claimed + 1
      lmsLowDone := x.lmsLowDone || decide (1008 ≤ x.claimed + 1)
      reportSeq := x.reportSeq + 1
      cnt := vupd (vupd x.cnt 3 satInc) 0 satInc } 0) ∧ (x.claimed < 1007 → v.err = u.err)) ∧
    (signs → fresh = true → x.claimed < 1024 → Acts (.attReportDone d false) d s s fun u v => ev u v (done { x with claimed := x.claimed + 1 } 9)) ∧
    (signs → fresh = true → 1024 ≤ x.claimed → Acts (.attReportDone d burn) d s s fun u v => logs u v (done { x with lmsExhausted := true } 8)) ∧
    (idle → OnReg (.tokenGo d) d 1 s fun u v => reg u v { x with state := .token }) ∧
    (x.state = .token → u.tokenCheck t ≠ 0 → Acts (.tokenCheckDone d burn ch) d s s fun u v => logs u v
      (done { drawn with cnt := vupd drawn.cnt 2 satInc } (BitVec.ofNat 4 (u.tokenCheck t)))) ∧
    (x.state = .token → u.tokenCheck t = 0 → op = 1 → Acts (.tokenCheckDone d burn ch) d s s fun u v => logs u v (done { drawn with
      nonInv := x.nonInv || decide (fieldAt t 5 1 % 2 = 1)
      inv := x.inv || decide (fieldAt t 5 1 / 2 % 2 = 1) } 0)) ∧
    (x.state = .token → u.tokenCheck t = 0 → op = 2 → burn = true → Acts (.tokenCheckDone d burn ch) d s s fun u v => logs u v (done { drawn with
      keyHash := x.keyHash.setIfInBounds slot (sliceBytes t 0x28 48) } 0)) ∧
    (x.state = .token → u.tokenCheck t = 0 → op = 3 → burn = true → Acts (.tokenCheckDone d burn ch) d s s fun u v => logs u v (done { drawn with
      revoked := x.revoked.setIfInBounds slot true } 0)) ∧
    (x.state = .token → u.tokenCheck t = 0 → op ≠ 1 → burn = false → Acts (.tokenCheckDone d burn ch) d s s fun u v =>
      v.core = { u.core with sec := done { drawn with keyHash := v.sec.keyHash, revoked := v.sec.revoked } 9, fresh := v.fresh } ∧
      (∀ k : Fin 8, k.val ≠ slot → v.sec.keyHash[k]? = x.keyHash[k]? ∧ v.sec.revoked[k]? = x.revoked[k]?) ∧
      (op = 2 → v.sec.revoked = x.revoked ∧ ∀ h ∈ v.sec.keyHash[slot]?.toList, ∀ i : Fin 48,
        ((h[i]?).getD 0) &&& ((sliceBytes t 0x28 48)[i]?).getD 0 = (h[i]?).getD 0) ∧
      (op ≠ 2 → v.sec.keyHash = x.keyHash)) ∧
    (x.state ≠ .token → Acts (.tokenCheckDone d burn ch) d s s fun u v => v.core = u.core) ∧
    (idle → allowed → OnReg (.svnCommit d) d 1 s fun u v => reg u v { x with state := .burn }) ∧
    (idle → ¬ allowed → OnReg (.svnCommit d) d 1 s fun u v => reg u v (done x 10)) ∧
    (x.state = .burn → target - x.fused ≤ n → Acts (.svnBurnDone d n) d s s fun u v => logs u v (done { x with fused := x.fused + (target - x.fused) } 0)) ∧
    (x.state = .burn → n < target - x.fused → Acts (.svnBurnDone d n) d s s fun u v =>
      v.core = { u.core with sec := done { x with fused := v.sec.fused } 9, fresh := v.fresh } ∧
      (v.sec.fused = x.fused + n ∨ v.sec.fused = x.fused + n + 1)) ∧
    OnReg (.dbgLock d) d 1 s (fun u v => reg u v { x with nonInv := false, inv := false }) ∧
    OnReg (.secClrCnt d) d 1 s (fun u v => reg u v { x with cnt := Vector.replicate 5 0 })

/-- BYPASS, IDCODE, SAMPLE/PRELOAD, EXTEST and CLAMP shift and drive (R533). Choices of the model: The bits are
operands of the commands (log entry 92). -/
def Obligations.BoundaryScan : Prop :=
  ∀ (d : DieId) (pins tdi : List Bool) (s : State),
    let u := s.die d
    let x := u.jtag
    let jt (u v : Die) (x : Jtag) : Prop := v.core = { u.core with jtag := x }
    let shifted (cells : List Bool) (v : Die) : Prop := .jtag ((cells ++ tdi).take tdi.length) ∈ v.out
    let drives (u v : Die) (x : Jtag) : Prop := v.core = { u.core with jtag := x, red := { u.core.red with live := u.red.live && !u.jtag.grantReqSeen } }
    let next := (pins ++ tdi).drop tdi.length
    let idcode : List Bool := (List.range 32).map fun i => decide (0x1C12886B / 2 ^ i % 2 = 1)
    Acts (.jtagBypass d tdi) d s s (fun u v => jt u v { x with instr := .bypass } ∧ shifted [false] v) ∧
    Acts (.jtagIdcode d) d s s (fun u v => jt u v { x with instr := .idcode } ∧ .jtag idcode ∈ v.out) ∧
    Acts (.jtagSamplePreload d pins tdi) d s s (fun u v => jt u v { x with instr := .samplePreload, boundary := next } ∧ shifted pins v) ∧
    Acts (.jtagExtest d pins tdi) d s s (fun u v => drives u v { x with instr := .extest, boundary := next } ∧ shifted pins v) ∧
    Acts (.jtagClamp d tdi) d s s (fun u v => drives u v { x with instr := .clamp } ∧ shifted [false] v)

/-- Domains wake, retain, switch off, resume, refuse and stall accesses (R541, R542, R543, R544, R545, R546, R552,
R553, R554, R559). Choices of the model: Corners of requests see log entry 71; SRAM that wakes is cleared and
its image sections placed again (log entry 70); the clock of the timeouts see log entry 40. -/
def Obligations.PowerDomains : Prop :=
  ∀ (d : DieId) (i : Fin 36) (who : Initiator) (addr : BitVec 32) (write : Bool) (a : Stalled) (later : List Stalled) (ticks : Nat) (s : State),
    let u := s.die d
    let m := vget u.pwr.doms i
    let e := s.elapse ticks
    let inCore : Bool := u.awake domFab && u.awake domKeep
    let doms (u v : Die) (t : Vector Domain 36) (host : HostIf) : Prop := v.core = { u.core with pwr := { u.pwr with doms := t }, host := host }
    let moves (u v : Die) (t : Vector Domain 36) (host : HostIf) : Prop := v.core = { u.core with
      pwr := { u.pwr with doms := t, iLoad := v.pwr.iLoad }
      fresh := v.fresh
      host := host }
    let sets (u v : Die) (n : Domain) (host : HostIf) : Prop := doms u v (vset u.pwr.doms i n) host
    let enters (u v : Die) (n : Domain) (host : HostIf) : Prop := moves u v (vset u.pwr.doms i n) host
    let refused (u v : Die) : Prop := v.core = { u.core with host := u.refusedHost }
    let never : Prop := i = 0 ∨ m.state = .waking ∨ m.state = .unavailable
    let noClock : Prop := domNeedsPll i = true ∧ u.clk.sel = false
    let held : Prop := u.domInUse i = true ∨ u.domHoldsRole i = true ∨ (i = 27 ∧ u.awake domKeep = true) ∨ (i = 1 ∧ u.othersOn domKeep = true)
    let fab := vget u.pwr.doms 27
    let keep := vget u.pwr.doms 1
    let counts (n : Fin 4) : Vector W32 4 := vupd u.pwr.cnt n satInc
    let record (u v : Die) (p : Power) : Prop := v.core = { u.core with pwr := p, err := v.err }
    let ended : Access := match who, write with
      | .pcie, true => .dropped
      | .pcie, false => .completerAbort
      | _, _ => .domainAsleep
    let off := a.addr.toNat
    let n := accessLen a.len a.data
    ((never ∨ noClock) → OnReg (.domReqOn d i) d 0 s refused) ∧
    ((never ∨ held) → OnReg (.domReqRet d i) d 0 s refused ∧ OnReg (.domReqOff d i) d 0 s refused) ∧
    (m.resuming = true → m.stalled ≠ [] → OnReg (.domReqOff d i) d 0 s refused) ∧
    (i ≠ 0 → ¬ noClock → m.state = .on → OnReg (.domReqOn d i) d 0 s fun u v => sets u v { m with req := 2 } u.okHost) ∧
    (i ≠ 0 → ¬ noClock → inCore = true → u.pwr.lp = false → m.state = .off → OnReg (.domReqOn d i) d 0 s fun u v =>
      sets u v { m with req := 2, state := .waking, closed := true, attempts := 1, since := u.real } u.okHost) ∧
    (i ≠ 0 → ¬ noClock → inCore = true → u.pwr.lp = false → m.state = .ret → OnReg (.domReqOn d i) d 0 s fun u v =>
      sets u v { m with req := 2, resuming := true } u.okHost) ∧
    (i ≠ 0 → i ≠ 1 → i ≠ 27 → ¬ noClock → u.pwr.wakeQueue = [] → fab.state = .off → keep.state = .off → m.state = .off →
      (fab.resuming = false ∧ keep.resuming = false ∧ m.resuming = false) → OnReg (.domReqOn d i) d 0 s fun u v => v.core = { u.core with
        pwr := { u.pwr with
          doms := vset (vset u.pwr.doms i { m with req := 2 }) 27 { fab with state := .waking, closed := true, attempts := 1, since := u.real }
          wakeQueue := [1, i.val]
          lp := false
          lpReq := u.pwr.lpReq && !u.pwr.lp
          iLoad := v.pwr.iLoad }
        fresh := v.fresh
        clk := if u.pwr.lp then { u.clk with irc := true, sel := false, selReq := false } else u.clk
        host := u.okHost }) ∧
    (¬ never → ¬ held → m.state = .on → i ≠ 1 → i ≠ 26 → i ≠ 32 → OnReg (.domReqRet d i) d 0 s fun u v => enters u v { m with req := 1, state := .ret } u.okHost) ∧
    (i = 26 → ¬ held → m.state = .on → OnReg (.domReqRet d i) d 0 s fun u v => v.sep.state = .off ∧ (∀ k, (vget v.sep.arms k).target = 0) ∧
      v.core = { u.core with
        pwr := { u.pwr with doms := vset u.pwr.doms i { m with req := 1, state := .ret }, iLoad := v.pwr.iLoad }
        fresh := v.fresh
        sep := v.sep
        host := u.okHost }) ∧
    (i = 32 → ¬ held → m.state = .on → OnReg (.domReqRet d i) d 0 s fun u v =>
      enters u v { m with req := 1, state := .ret } { u.okHost with linkUp := false }) ∧
    (i = 1 → ¬ never → ¬ held → m.state = .on → OnReg (.domReqRet d i) d 0 s fun u v => v.sec.leaves = none ∧ v.core = { u.core with
        pwr := { u.pwr with
          doms := vset (vset u.pwr.doms i { m with req := 1, state := .ret }) 27 { fab with req := 1, state := if fab.state = .on then .ret else fab.state }
          iLoad := v.pwr.iLoad }
        fresh := v.fresh
        sec := { u.sec with leaves := none, cnt := v.sec.cnt }
        host := u.okHost }) ∧
    (i = 1 → ¬ never → ¬ held → m.state = .on → fab.state = .on → OnReg (.domReqOff d i) d 0 s fun u v =>
      (v.dom 1).state = .off ∧ (v.dom 27).state = .off ∧ (∀ k : Fin 36, k ≠ i → k ≠ 27 → v.dom k = u.dom k) ∧
      v.sec.keyHash = u.sec.keyHash ∧ v.qspi.flash = u.qspi.flash ∧ v.boot = u.boot) ∧
    (¬ never → ¬ held → (m.resuming = false ∨ m.stalled = []) → (m.state = .on ∨ m.state = .ret) → i ≠ 1 → OnReg (.domReqOff d i) d 0 s fun u v =>
      (v.dom i).state = .off ∧ (v.dom i).closed = false ∧ (v.dom i).req = 0 ∧ (∀ k : Fin 36, k ≠ i → v.dom k = u.dom k) ∧
      Die.storesIn (domSram i).1 (domSram i).2 u v ∧ (∀ k ∈ domUnitList i, (v.unit k.1 k.2).state = .off) ∧
      (∀ e : Fin 80, e.val / 5 + 2 ≠ i.val → v.engine e = u.engine e) ∧ v.boot = u.boot ∧ v.clk = u.clk) ∧
    (i ≠ 0 → ¬ held → m.state = .off → m.resuming = false → OnReg (.domReqOff d i) d 0 s (fun u v => sets u v { m with req := 0 } u.okHost) ∧
      OnReg (.domReqRet d i) d 0 s fun u v => sets u v { m with req := 1 } u.okHost) ∧
    (i ≠ 0 → u.boot.phase ≠ .starting → u.img.state = .empty → u.pwr.wakeQueue = [] → m.state = .waking → m.closed = true → Acts (.domRegReady d i) d s s fun u v =>
      Die.storesIn (domSram i).1 (domSram i).2 u v ∧ (∀ x, x < (domSram i).2 → v.sram.get 0 ((domSram i).1 + x) = 0) ∧ (∀ k ∈ domUnitList i, (v.unit k.1 k.2).state = .reset) ∧ v.core = { u.core with
        pwr := { u.pwr with doms := vset u.pwr.doms i { m with state := .on, lost := false, clockStopped := false }, iLoad := v.pwr.iLoad }
        fresh := v.fresh
        sram := v.sram
        eccBad := v.eccBad
        eccSoft := v.eccSoft
        red := { u.core.red with units := v.red.units }
        host := if i = 32 then { u.core.host with linkUp := !u.host.perst } else u.core.host }) ∧
    (u.boot.phase ≠ .starting → ¬ (m.state = .waking ∧ m.closed = true) → Acts (.domRegReady d i) d s s fun u v => v.core = u.core) ∧
    (s.ticksTo d (Die.dueWakeTimeout i) = some ticks → i ≠ 0 → m.state = .waking → m.closed = true → m.attempts.toNat < 4 → Acts (.domWakeTimeout d i) d s e fun u v =>
      record u v { u.pwr with doms := vset u.pwr.doms i { m with closed := false, attempts := m.attempts + 1, since := u.real }, cnt := counts 3 }) ∧
    (s.ticksTo d (Die.dueWakeTimeout i) = some ticks → i ≠ 0 → i ≠ 1 → i ≠ 27 → (i ≠ 32 ∨ u.boot.src = false) → m.state = .waking → m.closed = true → 4 ≤ m.attempts.toNat → Acts (.domWakeTimeout d i) d s e fun u v =>
      record u v { u.pwr with doms := vset u.pwr.doms i { m with state := .unavailable, closed := false } }) ∧
    (s.ticksTo d (Die.dueWakeTimeout i) = some ticks → (i = 1 ∨ i = 27) → u.boot.phase = .starting → m.state = .waking → m.closed = true → 4 ≤ m.attempts.toNat → Acts (.domWakeTimeout d i) d s e fun _ v =>
      (v.dom i).state = .unavailable ∧ v.boot.tries = u.boot.tries ∧
      (if i = 1 then v.boot.phase = .reset ∧ v.pwr.holdCause = 3 else v.boot.phase = .minimal ∧ v.boot.lastFail = 13 ∧ v.pwr.holdCause = u.pwr.holdCause)) ∧
    (s.ticksTo d (Die.dueWakeTimeout i) = some ticks → i = 32 → u.boot.src = true → u.boot.phase = .firmware → m.state = .waking → m.closed = true → 4 ≤ m.attempts.toNat → Acts (.domWakeTimeout d i) d s e fun _ v =>
      (v.dom i).state = .unavailable ∧ v.boot.phase = .failed ∧ v.boot.lastFail = 8) ∧
    (s.ticksTo d (Die.dueWakeTimeout i) = some ticks → i = 0 → u.boot.phase = .starting → Acts (.domWakeTimeout d i) d s e fun u v =>
      v.core = { u.core with boot := { u.boot with phase := .reset }, pwr := { u.pwr with holdCause := 1 } }) ∧
    (i ≠ 0 → ¬ (m.state = .waking ∧ m.closed = true) → Acts (.domWakeTimeout d i) d s s fun u v => v.core = u.core) ∧
    (s.ticksTo d (Die.dueWakeRetry i) = some ticks → m.state = .waking → m.closed = false → Acts (.domWakeRetry d i) d s e fun u v => sets u v { m with closed := true, since := u.real } u.core.host) ∧
    (¬ (m.state = .waking ∧ m.closed = false) → Acts (.domWakeRetry d i) d s s fun u v => v.core = u.core) ∧
    (m.state = .ret → m.resuming = true → m.stalled = [] → u.pwr.wakeQueue = [] → i ≠ 26 → i ≠ 32 → Acts (.domResumeDone d i) d s s fun u v =>
      enters u v { m with state := .on, resuming := false, clockStopped := false } u.core.host) ∧
    (a.src = .pcie → a.initiator = .pcie → a.bar2 = true → a.data = none → (2 ≤ i.val ∧ i.val ≤ 17 ∧ n = 8 ∧ off % 8 = 0 ∧ bar2Dom off = some i.val) →
      u.eccBad = [] → m.state = .ret → m.resuming = true → m.stalled = [a] → u.pwr.wakeQueue = [] → Acts (.domResumeDone d i) d s s fun u v =>
        enters u v { m with state := .on, resuming := false, clockStopped := false, stalled := [] } u.okHost ∧ .read (u.sram.read 0 off 8) ∈ v.out) ∧
    (¬ (m.state = .ret ∧ m.resuming = true) → m.state ≠ .on ∨ (m.stalled = [] ∧ i ≠ 26 ∧ i ≠ 32) → Acts (.domResumeDone d i) d s s fun u v => v.core = u.core) ∧
    (i ≠ 0 → m.state ≠ .on → u.pwr.logValid = false → (m.state ≠ .ret ∨ m.woa = false ∨ noClock) → Acts (.domainAsleepAccess d i who addr write) d s s fun u v =>
      v.core = { u.core with
        pwr := { u.pwr with cnt := counts 0, logAddr := addr, logDom := BitVec.ofNat 6 i, logInit := BitVec.ofNat 2 who.code, logValid := true }
        host := { u.core.host with access := ended }
        err := v.err }) ∧
    (i ≠ 0 → m.state ≠ .on → u.pwr.logValid = true → (m.state ≠ .ret ∨ m.woa = false ∨ noClock) → Acts (.domainAsleepAccess d i who addr write) d s s fun u v =>
      v.core = { u.core with pwr := { u.pwr with cnt := counts 0 }, host := { u.core.host with access := ended } }) ∧
    ((i = 0 ∨ m.state = .on ∨ (m.state = .ret ∧ m.woa = true ∧ ¬ noClock)) → Acts (.domainAsleepAccess d i who addr write) d s s fun u v => v.core = u.core) ∧
    (a.src = .pcie → a.initiator = .pcie → a.bar2 = true → a.chan = 0 → (1 ≤ n ∧ off % 8 + n ≤ 8 ∧ bar2Dom (off / 8 * 8) = some i.val) →
      (u.fwRun = true ∧ u.host.perst = false ∧ u.awake domPcie = true ∧ inCore = true ∧ u.pwr.lp = false) → m.state = .ret → m.woa = true → ¬ noClock →
      Acts (.wakeOnAccess d a) d s s fun u v => v.core = { u.core with
        pwr := { u.pwr with doms := vset u.pwr.doms i { m with resuming := true, stalled := m.stalled ++ [{ a with since := u.real }] }, cnt := counts 1 }
        host := { u.core.host with linkUp := true, access := .held } }) ∧
    (s.ticksTo d (Die.dueWoa i) = some ticks → m.stalled = a :: later → a.src = .pcie → a.initiator = .pcie → i ≠ 0 → m.state ≠ .on → u.pwr.logValid = false → Acts (.woaTimeout d i) d s e fun u v =>
      v.core = { u.core with
        pwr := { u.pwr with
          doms := vset u.pwr.doms i { m with stalled := later }
          cnt := vupd (counts 2) 0 satInc
          logAddr := a.addr
          logDom := BitVec.ofNat 6 i
          logInit := 0
          logValid := true }
        host := { u.core.host with access := if a.data = none then .completerAbort else .dropped }
        err := v.err }) ∧
    (m.stalled = [] → Acts (.woaTimeout d i) d s s fun u v => v.core = u.core)

/-- Low power, brown-out, SMBus wake, PLL, clock switch and clock loss (R547, R548, R549, R550, R551, R555, R556,
R558, R560, R561, R562). Choices of the model: PLL_EN = 0 under a selected clock: log entry 22. -/
def Obligations.PowerAndClocks : Prop :=
  ∀ (d : DieId) (refLost : Bool) (b : BitVec 8) (s : State),
    let u := s.die d
    let c := u.clk
    let p := u.pwr
    let clock (u v : Die) (n : Clock) (host : HostIf) : Prop := v.core = { u.core with clk := n, host := host }
    let power (u v : Die) (n : Power) : Prop := v.core = { u.core with pwr := n, host := u.okHost }
    let same (u v : Die) : Prop := v.core = u.core
    let refused (u v : Die) : Prop := v.core = { u.core with host := u.refusedHost }
    let parked : Prop := ∀ i : Fin 36, i ≠ 0 → ((vget p.doms i).state = .off ∨ (vget p.doms i).state = .ret) ∧ (vget p.doms i).resuming = false
    let user : Prop := ∃ i : Fin 36, domNeedsPll i = true ∧ u.awake i = true
    let n := c.since + 500000 - u.real
    let m := c.since + 25000 - u.real
    let normal (v : Die) : Power := { p with lp := false, lpReq := false, iLoad := v.pwr.iLoad }
    let woken : Clock := { c with irc := true, sel := false, selReq := false }
    let started : TimeUnit := if u.time.afterWarm then { u.time with token := true, locked := false, afterWarm := false } else u.time
    (p.lp = false → parked → OnReg (.lpReq d) d 0 s fun u v => v.core = { u.core with
        pwr := { p with lpReq := true, lp := true, iLoad := v.pwr.iLoad }
        fresh := v.fresh
        clk := { c with irc := false, sel := false, selReq := false, lock := false, pllRunning := false, pllEn := false }
        host := u.okHost }) ∧
    (p.lp = false → ¬ parked → OnReg (.lpReq d) d 0 s refused) ∧
    (p.lp = true → OnReg (.lpReq d) d 0 s fun u v => power u v p) ∧
    OnReg (.clrLog d) d 0 s (fun u v => power u v { p with logAddr := 0, logDom := 0, logInit := 0, logValid := false }) ∧
    OnReg (.pwrClrCnt d) d 0 s (fun u v => power u v { p with cnt := Vector.replicate 4 0 }) ∧
    Acts (.aonBrownOut d) d s s (fun u v => Die.blank false u v ∧ v.pwr.aonBor = true ∧ v.boot.phase = .starting ∧ v.boot.cause = 4 ∧ v.boot.tries = 0 ∧
      v.pwr.lp = false ∧ v.clk = { irc := true } ∧ (∀ i : Fin 36, (vget v.pwr.doms i).lost = decide ((vget p.doms i).state = .ret)) ∧
      (∀ i : Fin 36, i ≠ 27 → (vget v.pwr.doms i).state = .off) ∧ (vget v.pwr.doms 27).state = .waking ∧
      v.sec.keyHash = u.sec.keyHash ∧ v.qspi.flash = u.qspi.flash ∧ v.err.first = u.err.first) ∧
    (p.lp = true → b.extractLsb' 1 7 = u.host.smbAddr → Acts (.smbWake d b) d s s fun u v => v.core = { u.core with pwr := normal v, clk := woken, fresh := v.fresh }) ∧
    ((p.lp = false ∨ b.extractLsb' 1 7 ≠ u.host.smbAddr) → Acts (.smbWake d b) d s s same) ∧
    (c.pllRunning = false → OnReg (.pllEn d true) d 0 s fun u v => clock u v { c with pllEn := true, pllRunning := true, attempts := 1, since := u.real } u.okHost) ∧
    (c.pllRunning = true → OnReg (.pllEn d true) d 0 s fun u v => clock u v { c with pllEn := true } u.okHost) ∧
    OnReg (.pllEn d false) d 0 s (fun u v => v.clk.pllEn = false ∧ v.clk.sel = c.sel ∧ v.core = { u.core with clk := v.clk, host := u.okHost }) ∧
    (c.pllRunning = true → Acts (.pllLock d) d s s fun u v => clock u v { c with lock := true } u.core.host) ∧
    (c.pllRunning = false → Acts (.pllLock d) d s s same) ∧
    (s.ticksIn n = some n → c.pllRunning = true → c.lock = false → c.attempts.toNat < 4 → Acts (.pllLockTimeout d) d s (s.elapse n) fun u v => clock u v { c with pllRunning := false, since := u.real } u.core.host) ∧
    (s.ticksIn n = some n → c.pllRunning = true → c.lock = false → 4 ≤ c.attempts.toNat → Acts (.pllLockTimeout d) d s (s.elapse n) fun u v =>
      v.clk = { c with pllRunning := false, since := u.real, pllFail := true, pllEn := false } ∧ v.boot = { u.boot with phase := .minimal, minimal := true, lastFail := 13 } ∧
      v.core = { u.core with clk := v.clk, boot := v.boot, pwr := v.pwr, err := v.err }) ∧
    ((c.pllRunning = false ∨ c.lock = true ∨ s.ticksIn n = none) → Acts (.pllLockTimeout d) d s s same) ∧
    (s.ticksIn m = some m → c.pllRunning = false → c.pllEn = true → c.pllFail = false → (0 < c.attempts.toNat ∧ c.attempts.toNat < 4) → Acts (.pllRestart d) d s (s.elapse m) fun u v =>
      clock u v { c with pllRunning := true, attempts := c.attempts + 1, since := u.real } u.core.host) ∧
    ((c.pllRunning = true ∨ c.pllEn = false ∨ s.ticksIn m = none) → Acts (.pllRestart d) d s s same) ∧
    (c.lock = true → c.sel = false → OnReg (.sel d true) d 0 s fun u v => v.core = { u.core with
        clk := { c with sel := true, selReq := true }
        time := started
        mon := { u.mon with avsV := 750 }
        host := u.okHost }) ∧
    (c.lock = false → OnReg (.sel d true) d 0 s refused) ∧
    (c.lock = true → c.sel = true → OnReg (.sel d true) d 0 s fun u v => clock u v c u.okHost) ∧
    (user → OnReg (.sel d false) d 0 s refused) ∧
    (¬ user → OnReg (.sel d false) d 0 s fun u v => clock u v { c with sel := false, selReq := false } u.okHost) ∧
    (c.sel = true → Acts (.clkLoss d refLost) d s s fun u v => v.err.foghorn = true ∧ v.err.fatalOwn = true ∧ v.core = { u.core with
        clk := { c with sel := false, refLoss := c.refLoss || refLost, lock := false, pllRunning := false }
        pwr := { p with doms := Vector.ofFn fun i : Fin 36 => { vget p.doms i with
          clockStopped := (vget p.doms i).clockStopped || (domNeedsPll i && decide ((vget p.doms i).state = .on)) } }
        red := { u.core.red with live := false }
        err := v.err }) ∧
    (c.sel = false → Acts (.clkLoss d refLost) d s s same)

/-- Host accesses to BAR0, BAR2 and the cell view, and the resets of the link (R564, R565, R566, R567, R568, R570,
R571, R572, R575, R577, R580, R591, R592). Choices of the model: The order of held accesses, the acknowledgement
and the link's state see log entries 26 and 27; holes see log entry 88. -/
def Obligations.HostAccess : Prop :=
  ∀ (d : DieId) (src : Source) (off v : BitVec 32) (be : BitVec 4) (n : Nat) (data : List (BitVec 8)) (a : CvAccess) (later : List CvAccess) (s : State),
    let u := s.die d
    let p := s.die d.peer
    let h := { u.core.host with linkUp := true }
    let up : Prop := u.awake domPcie = true ∧ u.awake domFab = true ∧ u.host.perst = false
    let serves : Prop := up ∧ u.fwRun = true
    let byHost : Prop := up ∧ (src = .pcie ∧ u.fwRun = true ∨ src = .pcieRecovery)
    let word (be : BitVec 4) (post : Die → Die → Prop) : Prop := Answers (.registerWrite d src off v be) s fun t =>
      post u (t.die d) ∧ (t.die d.peer).core = { p.core with cans := (t.die d.peer).cans } ∧ t.pending = s.pending
    let hosts (u v : Die) (x : HostIf) : Prop := v.core = { u.core with host := x }
    let logs (u v : Die) (x : HostIf) : Prop := v.core = { u.core with host := x, err := v.err }
    let bad (log : BitVec 32) (x : HostIf) : HostIf := { x with badAccess := true, cvLog := log, cnt := vupd x.cnt 4 satInc }
    let store : Option (List (Option (BitVec 8))) := some (data.map some)
    let o := off.toNat
    let plain (k : Nat) : Prop := ∀ w ∈ wordsOf o k, (bar2Dom w).map (fun i => u.awake i) = some true
    let free (k : Nat) : Prop := ∀ w ∈ wordsOf o k, (bar2Locked w = false ∨ u.sec.inv = true) ∧ u.solveReads w = false
    let local' : Prop := u.red.grant = true ∧ (d = .a ∨ p.red.grant = false)
    let far : Prop := u.red.grant = false ∧ p.red.grant = true
    let none' : Prop := u.red.grant = false ∧ p.red.grant = false
    let us : BitVec 10 := v.extractLsb' 0 10
    let aborts (x : Option (BitVec 32)) : Access := if x.isSome then .dropped else .completerAbort
    let fn0 (x : HostIf) : HostIf := { x with msix := Vector.replicate 64 {}, held := [], unacked := [] }
    let fns (x : HostIf) : HostIf := { fn0 x with msix1 := Vector.replicate 4 {} }
    (byHost → o = 0x20 → us.toNat ≤ 1000 → word 0xF fun u v => hosts u v { h with access := .ok, holdUs := us }) ∧
    (byHost → o = 0x20 → 1000 < us.toNat → word 0xF fun u v => hosts u v { h with access := .stateConflict }) ∧
    (byHost → o = 0x24 → word 0xF fun u w => hosts u w { h with
        access := .ok
        noLink := u.host.noLink && !v.getLsbD 1
        timeout := u.host.timeout && !v.getLsbD 2
        unmapped := u.host.unmapped && !v.getLsbD 3
        badAccess := u.host.badAccess && !v.getLsbD 4 }) ∧
    (byHost → o = 0x3000 → u.awake domKeep = true → v.extractLsb' 4 2 ≠ 3#2 → word 0xF fun u w => w.core = { u.core with
        host := { h with access := .ok }
        qspi := { u.qspi with div := v.extractLsb' 0 4, ioMode := v.extractLsb' 4 2, addr4 := v.getLsbD 6, dummy := v.extractLsb' 8 4 } }) ∧
    (byHost → o = 0x4090 → (vget u.dma 2).busy = false → (v.extractLsb' 0 25).toNat ≤ 16777216 → word 0xF fun u w => w.core = { u.core with
        host := { h with access := .ok }
        dma := vupd u.dma 2 fun x => { x with len := v.extractLsb' 0 25 } }) ∧
    (byHost → be ≠ 0xF → word be fun u v => hosts u v { h with access := .dropped }) ∧
    (byHost → o = 0x30 → word 0xF fun u v => hosts u v { h with access := .ok }) ∧
    (serves → src = .pcie → (0x700000 ≤ o ∧ o < 0x800000) → o % 4 = 0 → word 0xF fun u v => logs u v { bad off h with access := .dropped } ∧
      (u.host.badAccess = true → v.err = u.err)) ∧
    (serves → src = .pcie → o = 0x2000000 → u.pwr.logValid = true → (vget u.pwr.doms 26).state = .off → word 0xF fun u v => v.core = { u.core with
        host := { h with access := .dropped }
        pwr := { u.pwr with cnt := vupd u.pwr.cnt 0 satInc } }) ∧
    (src = .pcie → up → u.fwRun = false → word be fun u v => hosts u v { h with access := .dropped }) ∧
    (src = .pcie → u.host.perst = true → word be fun u v => v.core = u.core) ∧
    (serves → plain data.length → free data.length → u.eccBad = [] → Acts (.bar2Access d .pcie off n store) d s s fun u v =>
      Die.storesIn o data.length u v ∧ (∀ k : Fin data.length, v.sram.get 0 (o + k) = data[k]) ∧
      v.core = { u.core with sram := v.sram, eccSoft := v.eccSoft, host := { h with access := .ok } }) ∧
    (serves → plain n → u.eccBad = [] → Acts (.bar2Access d .pcie off n none) d s s fun u v =>
      .read (u.sram.read 0 o n) ∈ v.out ∧ hosts u v { h with access := .ok }) ∧
    (serves → plain n → n = 8 → o % 8 = 0 → o ∈ u.eccBad → Acts (.bar2Access d .pcie off n none) d s s fun u v =>
      .read (u.sram.read 0 o n) ∈ v.out ∧ logs u v { bad off h with access := .poisoned }) ∧
    (serves → plain data.length → (data ≠ [] ∧ data.length ≤ 8 ∧ o % 8 = 0) → (bar2Locked o = true ∧ u.sec.inv = false ∨ data.length < 8 ∧ o ∈ u.eccBad) →
      Acts (.bar2Access d .pcie off n store) d s s fun u v => logs u v { bad off h with access := .dropped }) ∧
    (serves → plain data.length → (data.length = 8 ∧ o % 8 = 0) → u.solveReads o = true → Acts (.bar2Access d .pcie off n store) d s s fun u v =>
      v.core = { u.core with host := { h with access := .stateConflict }, err := v.err, fresh := v.fresh }) ∧
    (serves → bar2Dom o = none → n = 8 → o % 8 = 0 → Acts (.bar2Access d .pcie off n none) d s s fun u v =>
      logs u v { bad off h with access := .completerAbort }) ∧
    (up → u.fwRun = false → Acts (.bar2Access d .pcie off n none) d s s (fun u v => hosts u v { h with access := .completerAbort }) ∧
      Acts (.bar2Access d .pcie off n store) d s s fun u v => hosts u v { h with access := .dropped }) ∧
    (serves → local' → o = 0x20 → u.host.held = [] → us.toNat ≤ 1000 → Acts (.cellViewAccess d off (some v) false) d s s fun u v =>
      hosts u v { h with access := .ok, holdUs := us }) ∧
    (serves → local' → o = 0x20 → u.host.held = [] → Acts (.cellViewAccess d off none false) d s s fun u v =>
      hosts u v { h with access := .ok } ∧ .read (leBytes 4 u.host.holdUs.toNat) ∈ v.out) ∧
    (serves → far → u.red.linkUp = true → o = 0x20 → u.host.held = [] → us.toNat ≤ 1000 → p.awake domFab = true →
      Answers (.cellViewAccess d off (some v) true) s fun t => (t.die d.peer).core = { p.core with host := { p.core.host with access := .ok, holdUs := us } } ∧
        (t.die d).core = { u.core with host := { h with access := .ok, cnt := vupd h.cnt 0 satInc } } ∧ t.pending = s.pending) ∧
    (serves → far → u.red.linkUp = true → o = 0x20 → u.host.held = [] → Acts (.cellViewAccess d off (some v) false) d s s fun u w =>
      hosts u w { h with access := .held, cnt := vupd h.cnt 0 satInc, unacked := h.unacked ++ [{ off := 0x20, data := some v }] }) ∧
    (serves → none' → o = 0x20 → Acts (.cellViewAccess d off (some v) false) d s s fun u w =>
      hosts u w { h with access := .held, cnt := vupd h.cnt 1 satInc, held := h.held ++ [{ off := 0x20, data := some v, since := u.real }] }) ∧
    (serves → far → u.red.linkUp = false → o = 0x20 → u.host.held = [] →
      Acts (.cellViewAccess d off none false) d s s (fun u v => logs u v { h with access := .completerAbort, noLink := true }) ∧
      Acts (.cellViewAccess d off (some v) false) d s s fun u v => logs u v { h with access := .dropped, noLink := true }) ∧
    (serves → cellMap o = none → Acts (.cellViewAccess d off none false) d s s fun u v => logs u v { h with
        access := .completerAbort, unmapped := true, cvLog := 0x3000000 + off, cnt := vupd h.cnt 4 satInc } ∧ (u.host.unmapped = true → v.err = u.err)) ∧
    (local' → u.awake domFab = true → u.host.held = a :: later → a = { off := 0x20, data := some v } → us.toNat ≤ 1000 → Acts (.cellViewRelease d false) d s s fun u w =>
      hosts u w { u.core.host with held := later, access := .ok, holdUs := us }) ∧
    ((none' ∨ u.host.held = []) → Acts (.cellViewRelease d false) d s s fun u v => v.core = u.core) ∧
    (s.ticksTo d Die.dueHold = some n → u.host.held = a :: later →
      Acts (.cellViewTimeout d) d s (s.elapse n) fun u v => logs u v { u.core.host with
        held := later
        access := aborts a.data
        timeout := true
        cvLog := BitVec.ofNat 32 (0x3000000 + a.off)
        cnt := vupd u.host.cnt 3 satInc }) ∧
    (u.host.held = [] → Acts (.cellViewTimeout d) d s s fun u v => v.core = u.core) ∧
    Acts (.perstAssert d) d s s (fun u v => logs u v { fns u.core.host with linkUp := false, perst := true } ∧ (u.host.linkUp = false → v.err = u.err)) ∧
    Acts (.perstRelease d) d s s (fun u v => hosts u v { u.core.host with perst := false, linkUp := u.host.linkUp || u.awake domPcie }) ∧
    (up → Acts (.functionLevelReset d) d s s fun u v => hosts u v (fn0 u.core.host)) ∧
    (¬ up → Acts (.functionLevelReset d) d s s fun u v => v.core = u.core) ∧
    (u.host.linkUp = true → Acts (.pcieLinkDown d) d s s fun u v => logs u v { fns u.core.host with linkUp := false }) ∧
    (u.host.linkUp = false → Acts (.pcieLinkDown d) d s s fun u v => v.core = u.core)

/-- SMBus reads, writes, status and identification end with their status (R578, R579, R580, R581). Choices of the
model: That a whole command stalls at once: log entry 28. -/
def Obligations.HostSmbus : Prop :=
  ∀ (d : DieId) (count : Nat) (off : BitVec 32) (n : Nat) (v w : BitVec 32) (pec : Bool) (s : State),
    let u := s.die d
    let h := u.core.host
    let o := off.toNat
    let answers : Prop := u.boot.phase ≠ .reset ∧ u.pwr.lp = false
    let heldInReset : Prop := u.boot.phase = .reset ∧ u.pwr.holdCause ≠ 0
    let ends (u v : Die) (x : HostIf) : Prop := v.core = { u.core with host := x }
    let fails (u v : Die) (st : BitVec 3) (x : HostIf) : Prop := v.core = { u.core with host := { x with smbStatus := st, cnt := vupd x.cnt 5 satInc }, err := v.err }
    let bytes (x : BitVec 32) : List (BitVec 8) := [x.extractLsb' 0 8, x.extractLsb' 8 8, x.extractLsb' 16 8, x.extractLsb' 24 8]
    let zeros : List (BitVec 8) := [4, 0, 0, 0, 0]
    let us : BitVec 10 := v.extractLsb' 0 10
    let one := bytes v
    let two := bytes v ++ bytes w
    let same (u v : Die) : Prop := v.core = u.core
    (answers → o = 0x1000 → Acts (.smbRead d 5 off 4 true) d s s fun u x => ends u x { h with access := .ok, smbStatus := 0 } ∧
      .smbus (4 :: bytes u.bootCause) ∈ x.out) ∧
    (answers → u.awake domFab = true → o = 0x20 → Acts (.smbRead d 5 off 4 true) d s s fun u x => ends u x { h with access := .ok, smbStatus := 0 } ∧
      .smbus (4 :: bytes (u.host.holdUs.setWidth 32)) ∈ x.out) ∧
    (answers → u.awake domFab = true → o = 0x20 → us.toNat ≤ 1000 → Acts (.smbWrite d 8 off one true) d s s fun u x =>
      ends u x { h with access := .ok, smbStatus := 0, holdUs := us }) ∧
    (answers → u.awake domFab = true → o = 0x20 → us.toNat ≤ 1000 → Acts (.smbWrite d 12 off two true) d s s fun u x => ends u x { h with
        access := .ok
        smbStatus := 0
        holdUs := us
        noLink := h.noLink && !w.getLsbD 1
        timeout := h.timeout && !w.getLsbD 2
        unmapped := h.unmapped && !w.getLsbD 3
        badAccess := h.badAccess && !w.getLsbD 4 }) ∧
    (answers → u.awake domFab = true → o = 0x20 → 1000 < us.toNat → Acts (.smbWrite d 12 off two true) d s s fun u x =>
      fails u x 2 { h with access := .stateConflict }) ∧
    (answers → Acts (.smbRead d count off n false) d s s (fun u x => fails u x 4 h) ∧ Acts (.smbWrite d count off one false) d s s fun u x => fails u x 4 h) ∧
    (answers → (count ≠ 5 ∨ n % 4 ≠ 0 ∨ n = 0 ∨ 32 < n) → Acts (.smbRead d count off n true) d s s fun u x => fails u x 5 h) ∧
    (answers → count ≠ 8 → Acts (.smbWrite d count off one true) d s s (fun u x => fails u x 5 h) ∧
      Acts (.smbWrite d (n + 4) off (List.replicate n 0 ++ [0]) true) d s s fun u x => fails u x 5 h) ∧
    (answers → (0x8000 ≤ o ∧ o < 0xA000 ∨ 0x3000000 ≤ o ∧ o < 0x4000000) → o % 4 = 0 → u.awake domFab = true → u.awake domPcie = true →
      Acts (.smbRead d 5 off 4 true) d s s (fun u x => fails u x 3 h ∧ .smbus zeros ∈ x.out) ∧ Acts (.smbWrite d 8 off one true) d s s fun u x => fails u x 3 h) ∧
    (answers → 0x700000 ≤ o → o < 0x800000 → o % 4 = 0 → u.host.badAccess = true → Acts (.smbRead d 5 off 4 true) d s s fun u x => .smbus zeros ∈ x.out ∧
      x.core = { u.core with host := { h with smbStatus := 3, access := .completerAbort, cvLog := off, cnt := vupd (vupd h.cnt 4 satInc) 5 satInc }, err := x.err }) ∧
    (answers → o = 0x2000000 → (vget u.pwr.doms 26).state = .off → u.pwr.logValid = true → Acts (.smbRead d 5 off 4 true) d s s fun u x => .smbus zeros ∈ x.out ∧
      x.core = { u.core with
        host := { h with smbStatus := 1, access := .domainAsleep, cnt := vupd h.cnt 5 satInc }
        pwr := { u.pwr with cnt := vupd u.pwr.cnt 0 satInc }
        err := x.err }) ∧
    (heldInReset → o = 0x100004 → Acts (.smbRead d 5 off 4 true) d s s fun u x => ends u x { h with smbStatus := 0 } ∧
      .smbus (4 :: bytes ((u.pwr.holdCause.setWidth 32 <<< 2) ||| (if u.pwr.aonBor then 2 else 0) ||| (if u.pwr.lp then 1 else 0))) ∈ x.out) ∧
    (heldInReset → o ≠ 0x100004 → Acts (.smbRead d count off n pec) d s s (fun u x => ends u x { h with smbStatus := 6 }) ∧
      Acts (.smbWrite d count off one pec) d s s (fun u x => ends u x { h with smbStatus := 6 }) ∧ Acts (.smbIdent d) d s s fun u x => ends u x { h with smbStatus := 6 }) ∧
    ((u.boot.phase = .reset ∨ u.pwr.lp = true) → ¬ heldInReset → Acts (.smbRead d count off n pec) d s s same ∧ Acts (.smbWrite d count off one pec) d s s same ∧
      Acts (.smbStatus d) d s s same ∧ Acts (.smbIdent d) d s s same) ∧
    (answers → Acts (.smbStatus d) d s s fun u x => same u x ∧ .smbus [u.host.smbStatus.setWidth 8] ∈ x.out) ∧
    (answers → Acts (.smbIdent d) d s s fun u x => same u x ∧
      .smbus (8 :: bytes (0xB1C128 + (if u.id = .b then 0x1000000 else 0) + (if Config.gradeE then 0x2000000 else 0)) ++ bytes u.bootCause) ∈ x.out) ∧
    Acts (.smbSclTimeout d) d s s (fun u x => x.core = { u.core with pwr := { u.pwr with
      doms := Vector.ofFn fun i : Fin 36 => { vget u.pwr.doms i with stalled := (vget u.pwr.doms i).stalled.filter fun a => a.src ≠ .smbus } } })

/-- QSPI operations on the flash and DMA transfers (R609). Choices of the model: LEN = 0 of the other operations:
log entry 21; the time of an end is the command's, of a timeout its limit (log entry 40). -/
def Obligations.HostQspiDma : Prop :=
  ∀ (d : DieId) (code : BitVec 3) (len : BitVec 9) (jedec : BitVec 24) (timeout : Bool) (c : Fin 4) (src dst : Bool) (bytes : List (BitVec 8)) (stop ticks : Nat) (s : State),
    let u := s.die d
    let q := u.qspi
    let a := if q.addr4 then q.addr.toNat else q.addr.toNat % 0x1000000
    let op : Instr := if code = 1 then .qspiReadId d else if code = 2 then .qspiRead d len else if code = 3 then .qspiProgram d len
      else if code = 4 then .qspiErase4k d else .qspiErase64k d
    let isOp : Prop := code = 2 ∧ len.toNat ≤ 256 ∨ code = 3 ∧ len.toNat ≤ 256 ∨ len = 0 ∧ (code = 1 ∨ code = 4 ∨ code = 5)
    let taken : Prop := q.busy = true ∨ (u.boot.phase = .rom ∧ u.boot.src = false) ∨ (u.img.state = .check ∨ u.img.state = .place) ∧ u.img.src = 0
    let begun : Qspi := { q with op := code, len := len, busy := true, runOp := code, runAddr := a, runLen := len.toNat, since := u.real }
    let empty : Prop := (code = 2 ∨ code = 3) ∧ len = 0
    let crosses : Prop := code = 3 ∧ 256 < a % 256 + len.toNat
    let qspi (u v : Die) (n : Qspi) (h : HostIf) : Prop := v.core = { u.core with qspi := n, host := h }
    let ended (n : Qspi) (r : BitVec 2) : Qspi := { n with busy := false, done := true, result := r }
    let refused (u v : Die) : Prop := v.core = { u.core with host := u.refusedHost }
    let noRec : Prop := u.boot.recWait = []
    let flashOf (v : Die) (x : Nat) : BitVec 8 := v.qspi.flash.get 0xFF x
    let runs (n : BitVec 3) : Prop := q.busy = true ∧ q.runOp = n ∧ noRec
    let x := vget u.dma c
    let chan (u v : Die) (n : Dma) (h : HostIf) : Prop := v.core = { u.core with dma := vset u.dma c n, host := h }
    let stopped (n : Dma) (st : BitVec 3) (k : Nat) : Dma := { n with busy := false, aborting := false, done := true, status := st, doneLen := BitVec.ofNat 25 k }
    let spaces : Dma := { x with srcHost := src, dstHost := dst }
    let moves : Prop := x.busy = true ∧ u.dmaStalled c = false ∧ x.moved = 0 ∧ x.aborting = false
    let from' := x.src
    let to' := x.dst
    let k := x.len.toNat
    let ready (w : Nat) : Prop := (bar2Dom w).map (fun i => u.awake i) = some true
    let inFab (w : Nat) : Prop := w + k ≤ 0x680000
    let free : Prop := u.eccBad = [] ∧ u.awake domFab = true
    (isOp → taken → OnReg op d 1 s refused) ∧
    (256 < len.toNat → OnReg (.qspiRead d len) d 1 s refused ∧ OnReg (.qspiProgram d len) d 1 s refused) ∧
    (isOp → ¬ taken → ¬ empty → ¬ crosses → OnReg op d 1 s fun u v => qspi u v begun u.okHost) ∧
    (isOp → ¬ taken → empty → noRec → OnReg op d 1 s fun u v => qspi u v (ended begun 1) u.okHost) ∧
    (isOp → ¬ taken → crosses → noRec → OnReg op d 1 s fun u v => qspi u v (ended begun 3) u.okHost) ∧
    (runs 1 → Acts (.qspiOpDone d false jedec) d s s fun u v => qspi u v (ended { q with jedec := jedec } 0) u.core.host) ∧
    (runs 2 → q.runLen ≤ 256 → Acts (.qspiOpDone d false jedec) d s s fun u v => qspi u v (ended { q with data := v.qspi.data } 0) u.core.host ∧
      ∀ i : Fin 256, vget v.qspi.data i = if i.val < q.runLen then flashOf u (q.runAddr + i) else vget q.data i) ∧
    (runs 3 → q.runLen ≤ 256 → Acts (.qspiOpDone d false jedec) d s s fun u v => qspi u v (ended { q with flash := v.qspi.flash } 0) u.core.host ∧
      (∀ i : Fin 256, i.val < q.runLen → flashOf u (q.runAddr + i) = 0xFF → flashOf v (q.runAddr + i) = vget q.data i) ∧
      (∀ y, ¬ (q.runAddr ≤ y ∧ y < q.runAddr + q.runLen) → flashOf v y = flashOf u y)) ∧
    ((runs 4 ∨ runs 5) → Acts (.qspiOpDone d false jedec) d s s fun u v =>
      let size := if q.runOp = 4 then 0x1000 else 0x10000
      qspi u v (ended { q with flash := v.qspi.flash } 0) u.core.host ∧
      ∀ y, flashOf v y = if y / size = q.runAddr / size then 0xFF else flashOf u y) ∧
    ((runs 3 ∨ runs 4 ∨ runs 5) → s.ticksTo d Die.dueQspi = some ticks →
      Acts (.qspiOpDone d true jedec) d s (s.elapse ticks) fun u v => v.core = { u.core with qspi := ended q 2, err := v.err }) ∧
    ((runs 1 ∨ runs 2) → Acts (.qspiOpDone d true jedec) d s s fun u v => v.core = u.core) ∧
    (q.busy = false → Acts (.qspiOpDone d timeout jedec) d s s fun u v => v.core = u.core) ∧
    ((x.busy = true ∨ src = true ∧ dst = true) → OnReg (.dmaGo d c src dst) d 27 s refused) ∧
    (x.busy = false → ¬ (src = true ∧ dst = true) → x.len = 0 → OnReg (.dmaGo d c src dst) d 27 s fun u v => chan u v (stopped spaces 1 0) u.okHost) ∧
    (x.busy = false → ¬ (src = true ∧ dst = true) → x.len ≠ 0 → OnReg (.dmaGo d c src dst) d 27 s fun u v =>
      chan u v { spaces with busy := true, aborting := false, moved := 0, fromHost := src, toHost := dst } u.okHost) ∧
    OnReg (.dmaAbort d c) d 27 s (fun u v => chan u v { x with aborting := x.busy } u.okHost) ∧
    (moves → x.fromHost = false → x.toHost = false → free → inFab from' → inFab to' → (from' + k ≤ to' ∨ to' + k ≤ from') → Acts (.dmaDone d c [] stop) d s s fun u v =>
      Die.storesIn to' k u v ∧ (∀ i, i < k → v.sram.get 0 (to' + i) = u.sram.get 0 (from' + i)) ∧
      v.core = { u.core with sram := v.sram, eccSoft := v.eccSoft, dma := vset u.dma c (stopped x 0 k) }) ∧
    (moves → x.fromHost = true → x.toHost = false → free → inFab to' → bytes.length = k → Acts (.dmaDone d c bytes stop) d s s fun u v =>
      Die.storesIn to' k u v ∧ (∀ i : Fin bytes.length, v.sram.get 0 (to' + i) = bytes[i]) ∧
      v.core = { u.core with sram := v.sram, eccSoft := v.eccSoft, dma := vset u.dma c (stopped x 0 k) }) ∧
    (moves → x.fromHost = false → x.toHost = true → free → inFab from' → 0 < k → Acts (.dmaDone d c [] stop) d s s fun u v =>
      .hostWrite to' (u.sram.read 0 from' k) ∈ v.out ∧ v.core = { u.core with dma := vset u.dma c (stopped x 0 k) }) ∧
    (moves → x.fromHost = false → bar2Dom from' = none → 0 < k → Acts (.dmaDone d c [] stop) d s s fun u v =>
      v.core = { u.core with dma := vset u.dma c (stopped x 3 0), err := v.err }) ∧
    (moves → x.fromHost = true → 0 < k → Acts (.dmaDone d c [] stop) d s s fun u v => v.core = { u.core with dma := vset u.dma c (stopped x 4 0), err := v.err }) ∧
    (moves → x.fromHost = false → u.pwr.logValid = true → (bar2Dom from').map (fun i => (u.dom i).state) = some .off → 0 < k → Acts (.dmaDone d c [] stop) d s s fun u v =>
      v.core = { u.core with dma := vset u.dma c (stopped x 2 0), pwr := { u.pwr with cnt := vupd u.pwr.cnt 0 satInc }, err := v.err }) ∧
    (x.busy = true → u.dmaStalled c = false → x.moved = 0 → x.aborting = true → stop = 0 → 0 < k → Acts (.dmaDone d c [] stop) d s s fun u v =>
      chan u v (stopped x 5 0) u.core.host) ∧
    (x.busy = false → Acts (.dmaDone d c bytes stop) d s s fun u v => v.core = u.core)

/-- A step carries out the command at the front of the queue (R7). Choices of the model: The queue is the model's
(log entries 5 and 7). -/
def Obligations.StepRunsFront : Prop :=
  ∀ (c : Instr) (rest : List Instr) (s : State),
    step { s with pending := c :: rest } = exec c { s with pending := rest }

/-- Every command answers a next state and leaves the queue of the others (R32). Choices of the model: A refusal of
the spec is a next state with its status (log entry 9). -/
def Obligations.CommandsComplete : Prop :=
  ∀ (c : Instr) (s : State), ∃ t, exec c s = .next t ∧ t.pending = s.pending

/-- The package right after reset (R8, R434, R459, R522, R545, R590, R594). Choices of the model: Values for which
the manual gives no reset are the model's: log entry 3; the statement names only fields with a documented value
or state. -/
def Obligations.ResetState : Prop :=
  let s := State.reset
  s.pending = [] ∧ s.settled = true ∧ s.a.id = .a ∧ s.b.id = .b ∧
    ∀ d : DieId,
      let u := s.die d
      u.boot.phase = .reset ∧ u.boot.tries = 0 ∧ u.bootCause = 0 ∧ u.time.ns = 0 ∧ u.time.cycRun = false ∧ u.red.grant = false ∧
        u.red.gateOpen = false ∧ u.img.state = .empty ∧ u.err.first = 0 ∧ u.err.ring = [] ∧ u.host.holdUs = 200 ∧ u.host.cnt = Vector.replicate 6 0 ∧
        u.qspi.div = 1 ∧ u.qspi.dummy = 8 ∧ u.qspi.addr = 0 ∧ u.qspi.data = Vector.replicate 256 0 ∧ u.dma = Vector.replicate 4 {} ∧
        u.clk.sel = false ∧ u.clk.lock = false ∧ u.pwr.cnt = Vector.replicate 4 0 ∧
        (∀ i : Fin 36, (u.dom i).state = .off ∧ (u.dom i).lost = false ∧ (u.dom i).attempts = 0) ∧
        (∀ i : Fin 1189, (vget u.red.units i).state = .off) ∧ u.sram = ⟨[]⟩

/-- Every step keeps gates, safe outputs and updates settled, and both safe outputs equal (R473, R476, R510, R606). -/
def Obligations.StepSettles : Prop :=
  ∀ s t : State, step s = .next t → t.settled = true ∧ (s.safePair = true → t.safePair = true)

/-- Whatever command sets an interrupt source, its vector is sent or marked pending (R573, R574). Choices of the
model: Which endpoint sends, and that several messages may follow one command: log entry 89. -/
def Obligations.Interrupts : Prop :=
  ∀ (c : Instr) (d : DieId) (s t : State), exec c s = .next t → (s.die d).served = true → (t.die d).served = true →
    let u := s.die d
    let v := t.die d
    let raised (n : Fin 64) : Prop :=
      if (vget v.host.msix n).ctrl.getLsbD 0 = true then v.host.pba.getLsbD n = true else .msix 0 n ∈ v.out
    ((u.red.grant ≠ v.red.grant ∨ u.red.tk ≠ v.red.tk ∨ u.red.degraded ≠ v.red.degraded ∨ u.red.noSpare ≠ v.red.noSpare) → raised 2) ∧
    (∀ l : Fin 8, ((vget u.lanes l).state ≠ (vget v.lanes l).state ∨ (vget u.lanes l).acDone = false ∧ (vget v.lanes l).acDone = true) →
      raised ⟨8 + l, by omega⟩) ∧
    (∀ n : Fin 4, ((vget u.cans n).st ≠ (vget v.cans n).st ∨ (vget u.cans n).ovf = false ∧ (vget v.cans n).ovf = true) → raised ⟨16 + n, by omega⟩) ∧
    (∀ a : Fin 16, ((vget u.axes a).bridgeFlt = false ∧ (vget v.axes a).bridgeFlt = true ∨
      (vget u.axes a).waitStep = false ∧ (vget v.axes a).waitStep = true) → raised ⟨20 + a, by omega⟩) ∧
    (∀ k : Fin 16, ((vget u.encs k).state ≠ .fault ∧ (vget v.encs k).state = .fault) → raised ⟨36 + k, by omega⟩) ∧
    (∀ w : Fin 4, ((vget u.regions w).state ≠ .tail ∧ (vget v.regions w).state = .tail) → raised ⟨52 + w, by omega⟩) ∧
    ((u.sep.clearance = false ∧ v.sep.clearance = true ∨ u.sep.mismatch = false ∧ v.sep.mismatch = true ∨
      u.sep.overrun = false ∧ v.sep.overrun = true) → raised 56) ∧
    ((u.img.done = false ∧ v.img.done = true ∨ u.img.pushReady = false ∧ v.img.pushReady = true) → raised 0)
end

