-- ==== Sys2Proof/Laws/State.lean ====
section
/-! SUPPORT. The state's accessors: a die read after a die is written, and what writing a die leaves. -/

namespace Sys2Proof.Machine

@[simp] theorem State.die_a (s : State) : s.die .a = s.a := rfl
@[simp] theorem State.die_b (s : State) : s.die .b = s.b := rfl
@[simp] theorem DieId.peer_a : DieId.peer .a = .b := rfl
@[simp] theorem DieId.peer_b : DieId.peer .b = .a := rfl
theorem DieId.peer_ne (id : DieId) : id.peer ≠ id := by cases id <;> decide
@[simp] theorem DieId.peer_peer (id : DieId) : id.peer.peer = id := by cases id <;> rfl

@[simp] theorem State.put_die (s : State) (id : DieId) (d : Die) : (s.put id d).die id = d := by cases id <;> rfl
@[simp] theorem State.put_peer (s : State) (id : DieId) (d : Die) : (s.put id d).die id.peer = s.die id.peer := by
  cases id <;> rfl
theorem State.put_other (s : State) (i j : DieId) (d : Die) (h : j ≠ i) : (s.put i d).die j = s.die j := by
  cases i <;> cases j <;> first | rfl | exact absurd rfl h
@[simp] theorem State.put_pkg (s : State) (id : DieId) (d : Die) : (s.put id d).pkg = s.pkg := by cases id <;> rfl
@[simp] theorem State.put_pending (s : State) (id : DieId) (d : Die) : (s.put id d).pending = s.pending := by
  cases id <;> rfl
@[simp] theorem State.put_put (s : State) (id : DieId) (d e : Die) : (s.put id d).put id e = s.put id e := by
  cases id <;> rfl
@[simp] theorem State.put_same (s : State) (id : DieId) : s.put id (s.die id) = s := by cases id <;> rfl

@[simp] theorem State.upd_die (s : State) (id : DieId) (f : Die → Die) : (s.upd id f).die id = f (s.die id) := by
  cases id <;> rfl
@[simp] theorem State.upd_peer (s : State) (id : DieId) (f : Die → Die) :
    (s.upd id f).die id.peer = s.die id.peer := by cases id <;> rfl
theorem State.upd_other (s : State) (i j : DieId) (f : Die → Die) (h : j ≠ i) : (s.upd i f).die j = s.die j := by
  cases i <;> cases j <;> first | rfl | exact absurd rfl h
@[simp] theorem State.upd_pkg (s : State) (id : DieId) (f : Die → Die) : (s.upd id f).pkg = s.pkg := by
  cases id <;> rfl
@[simp] theorem State.upd_pending (s : State) (id : DieId) (f : Die → Die) : (s.upd id f).pending = s.pending := by
  cases id <;> rfl
@[simp] theorem State.upd_a_a (s : State) (f : Die → Die) : (s.upd .a f).a = f s.a := rfl
@[simp] theorem State.upd_a_b (s : State) (f : Die → Die) : (s.upd .a f).b = s.b := rfl
@[simp] theorem State.upd_b_b (s : State) (f : Die → Die) : (s.upd .b f).b = f s.b := rfl
@[simp] theorem State.upd_b_a (s : State) (f : Die → Die) : (s.upd .b f).a = s.a := rfl

@[simp] theorem State.updWith_die (s : State) (id : DieId) (f : Die → Die → Die) :
    (s.updWith id f).die id = f (s.die id.peer) (s.die id) := by cases id <;> rfl
@[simp] theorem State.updWith_peer (s : State) (id : DieId) (f : Die → Die → Die) :
    (s.updWith id f).die id.peer = s.die id.peer := by cases id <;> rfl
@[simp] theorem State.updWith_pkg (s : State) (id : DieId) (f : Die → Die → Die) : (s.updWith id f).pkg = s.pkg := by
  cases id <;> rfl
@[simp] theorem State.updWith_pending (s : State) (id : DieId) (f : Die → Die → Die) :
    (s.updWith id f).pending = s.pending := by cases id <;> rfl

@[simp] theorem State.both_die (s : State) (id : DieId) (f : Die → Die) : (s.both f).die id = f (s.die id) := by
  cases id <;> rfl
@[simp] theorem State.both_pkg (s : State) (f : Die → Die) : (s.both f).pkg = s.pkg := rfl
@[simp] theorem State.both_pending (s : State) (f : Die → Die) : (s.both f).pending = s.pending := rfl

/-- Two states with the same dies, package and queue are the same. -/
theorem State.ext_die (s t : State) (ha : s.a = t.a) (hb : s.b = t.b) (hp : s.pkg = t.pkg)
    (hq : s.pending = t.pending) : s = t := by
  cases s; cases t; simp_all

end Sys2Proof.Machine
end

