-- ==== Sys2Proof/Laws/Settle.lean ====
section
/-! SUPPORT. Everything that `State.settle` can do, said once: of a die it changes the pending bits of
the endpoint, what the die has sent, the gate, and the state of an update that meets a takeover. -/

namespace Sys2Proof.Machine

theorem Die.msixCell_frame (v : Nat) (d : Die) :
    ∃ p q o, d.msixCell v = { d with host := { d.host with pba := p, pba1 := q }, out := o } := by
  unfold Die.msixCell
  split
  · exact ⟨_, _, _, rfl⟩
  · split
    · exact ⟨_, _, _, rfl⟩
    · exact ⟨_, _, _, rfl⟩

theorem Die.msixRec_frame (v : Nat) (d : Die) :
    ∃ p q o, d.msixRec v = { d with host := { d.host with pba := p, pba1 := q }, out := o } := by
  unfold Die.msixRec
  split
  · exact ⟨_, _, _, rfl⟩
  · split
    · exact ⟨_, _, _, rfl⟩
    · exact ⟨_, _, _, rfl⟩

/-- An interrupt changes the pending bits or what the die has sent (R574). -/
theorem Die.msix_frame (v : Nat) (d : Die) :
    ∃ p q o, d.msix v = { d with host := { d.host with pba := p, pba1 := q }, out := o } := by
  obtain ⟨p, q, o, e⟩ := d.msixCell_frame v
  have both : ∀ k, ∃ p q o, (d.msixCell v).msixRec k = { d with host := { d.host with pba := p, pba1 := q }, out := o } := by
    intro k
    obtain ⟨p', q', o', e'⟩ := (d.msixCell v).msixRec_frame k
    exact ⟨p', q', o', by rw [e', e]⟩
  unfold Die.msix
  dsimp only
  split
  · exact both 0
  · split
    · exact both 1
    · split
      · exact both 2
      · exact ⟨p, q, o, e⟩

theorem Die.msix_list_frame (l : List Nat) (d : Die) :
    ∃ p q o, l.foldl (fun d v => d.msix v) d = { d with host := { d.host with pba := p, pba1 := q }, out := o } := by
  induction l generalizing d with
  | nil => exact ⟨d.host.pba, d.host.pba1, d.out, rfl⟩
  | cons v r ih =>
    obtain ⟨p, q, o, e⟩ := d.msix_frame v
    obtain ⟨p', q', o', e'⟩ := ih (d.msix v)
    exact ⟨p', q', o', by rw [List.foldl_cons, e', e]⟩

/-- The interrupts of a command change the pending bits and what the die has sent, and nothing else. -/
theorem Die.interrupts_frame (b d : Die) :
    ∃ p q o, b.interrupts d = { d with host := { d.host with pba := p, pba1 := q }, out := o } := by
  unfold Die.interrupts
  split
  · exact Die.msix_list_frame _ d
  · exact ⟨d.host.pba, d.host.pba1, d.out, rfl⟩

theorem Die.gateSync_frame (d : Die) : ∃ g, d.gateSync = { d with red := { d.red with gateOpen := g } } := ⟨_, rfl⟩

/-- The gates change their state and nothing else (R473, R638). -/
theorem State.gates_die (s : State) (id : DieId) :
    ∃ g, s.gates.die id = { s.die id with red := { (s.die id).red with gateOpen := g } } := by
  unfold State.gates
  split
  · rw [State.both_die]; exact ⟨_, rfl⟩
  · rw [State.both_die]; exact Die.gateSync_frame _

/-- With VDD_1V8 up on both dies the gates follow the grants. -/
theorem State.gates_up (s : State) (h : s.vdd18Low = false) :
    s.gates = s.both Die.gateSync := by
  unfold State.gates
  rw [if_neg (by simp [h])]

@[simp] theorem State.gates_pending (s : State) : s.gates.pending = s.pending := by
  unfold State.gates
  split <;> rfl

@[simp] theorem State.gates_pkg (s : State) : s.gates.pkg = s.pkg := by
  unfold State.gates
  split <;> rfl

/-- An update that meets a takeover stays staged: nothing else of a die changes (R510). -/
theorem State.applyMeets_frame (s : State) (id : DieId) : ∃ st r n y b z, s.applyMeetsTakeover.die id =
    { s.die id with img := { (s.die id).img with state := st, result := r, done := n, pushReady := y,
                                                       buf := b, pass2 := z } } := by
  unfold State.applyMeetsTakeover
  split
  · rw [State.both_die]
    split
    · exact ⟨_, _, _, _, _, _, rfl⟩
    · exact ⟨_, _, _, (s.die id).img.pushReady, (s.die id).img.buf, (s.die id).img.pass2, rfl⟩
  · exact ⟨_, _, _, (s.die id).img.pushReady, (s.die id).img.buf, (s.die id).img.pass2, rfl⟩

@[simp] theorem State.applyMeets_pending (s : State) : s.applyMeetsTakeover.pending = s.pending := by
  unfold State.applyMeetsTakeover
  split <;> rfl

@[simp] theorem State.applyMeets_pkg (s : State) : s.applyMeetsTakeover.pkg = s.pkg := by
  unfold State.applyMeetsTakeover
  split <;> rfl

@[simp] theorem State.driveSafe_die (s : State) (id : DieId) : s.driveSafe.die id = s.die id := by cases id <;> rfl
@[simp] theorem State.driveSafe_pending (s : State) : s.driveSafe.pending = s.pending := rfl

/-- The queue is left as it is. -/
@[simp] theorem State.settle_pending (b s : State) : (b.settle s).pending = s.pending := by
  unfold State.settle
  simp

theorem State.settle_die_eq (b s : State) (id : DieId) :
    (b.settle s).die id = (b.die id).interrupts (s.gates.applyMeetsTakeover.driveSafe.die id) := by
  cases id <;> rfl

/-- What `settle` can change of a die. -/
theorem State.settle_die (b s : State) (id : DieId) : ∃ p q o st r n y f z g, (b.settle s).die id =
    { s.die id with host := { (s.die id).host with pba := p, pba1 := q }, out := o,
                    img := { (s.die id).img with state := st, result := r, done := n, pushReady := y, buf := f, pass2 := z },
                    red := { (s.die id).red with gateOpen := g } } := by
  rw [State.settle_die_eq]
  obtain ⟨p, q, o, e⟩ := Die.interrupts_frame (b.die id) (s.gates.applyMeetsTakeover.driveSafe.die id)
  obtain ⟨st, r, n, y, f, z, e'⟩ := State.applyMeets_frame s.gates id
  obtain ⟨g, e''⟩ := State.gates_die s id
  rw [e, State.driveSafe_die, e', e'']
  exact ⟨_, _, _, _, _, _, _, _, _, _, rfl⟩

@[simp] theorem State.settle_id (b s : State) (id : DieId) :
    ((b.settle s).die id).id = (s.die id).id := by
  obtain ⟨_, _, _, _, _, _, _, _, _, _, e⟩ := State.settle_die b s id; rw [e]
@[simp] theorem State.settle_kept (b s : State) (id : DieId) :
    ((b.settle s).die id).kept = (s.die id).kept := by
  obtain ⟨_, _, _, _, _, _, _, _, _, _, e⟩ := State.settle_die b s id; rw [e]
@[simp] theorem State.settle_time (b s : State) (id : DieId) :
    ((b.settle s).die id).time = (s.die id).time := by
  obtain ⟨_, _, _, _, _, _, _, _, _, _, e⟩ := State.settle_die b s id; rw [e]
@[simp] theorem State.settle_trig (b s : State) (id : DieId) :
    ((b.settle s).die id).trig = (s.die id).trig := by
  obtain ⟨_, _, _, _, _, _, _, _, _, _, e⟩ := State.settle_die b s id; rw [e]
@[simp] theorem State.settle_capt (b s : State) (id : DieId) :
    ((b.settle s).die id).capt = (s.die id).capt := by
  obtain ⟨_, _, _, _, _, _, _, _, _, _, e⟩ := State.settle_die b s id; rw [e]
@[simp] theorem State.settle_eth (b s : State) (id : DieId) :
    ((b.settle s).die id).eth = (s.die id).eth := by
  obtain ⟨_, _, _, _, _, _, _, _, _, _, e⟩ := State.settle_die b s id; rw [e]
@[simp] theorem State.settle_qrc (b s : State) (id : DieId) :
    ((b.settle s).die id).qrc = (s.die id).qrc := by
  obtain ⟨_, _, _, _, _, _, _, _, _, _, e⟩ := State.settle_die b s id; rw [e]
@[simp] theorem State.settle_eng (b s : State) (id : DieId) :
    ((b.settle s).die id).eng = (s.die id).eng := by
  obtain ⟨_, _, _, _, _, _, _, _, _, _, e⟩ := State.settle_die b s id; rw [e]
@[simp] theorem State.settle_cairnSel (b s : State) (id : DieId) :
    ((b.settle s).die id).cairnSel = (s.die id).cairnSel := by
  obtain ⟨_, _, _, _, _, _, _, _, _, _, e⟩ := State.settle_die b s id; rw [e]
@[simp] theorem State.settle_cairnState (b s : State) (id : DieId) :
    ((b.settle s).die id).cairnState = (s.die id).cairnState := by
  obtain ⟨_, _, _, _, _, _, _, _, _, _, e⟩ := State.settle_die b s id; rw [e]
@[simp] theorem State.settle_joints (b s : State) (id : DieId) :
    ((b.settle s).die id).joints = (s.die id).joints := by
  obtain ⟨_, _, _, _, _, _, _, _, _, _, e⟩ := State.settle_die b s id; rw [e]
@[simp] theorem State.settle_regions (b s : State) (id : DieId) :
    ((b.settle s).die id).regions = (s.die id).regions := by
  obtain ⟨_, _, _, _, _, _, _, _, _, _, e⟩ := State.settle_die b s id; rw [e]
@[simp] theorem State.settle_sep (b s : State) (id : DieId) :
    ((b.settle s).die id).sep = (s.die id).sep := by
  obtain ⟨_, _, _, _, _, _, _, _, _, _, e⟩ := State.settle_die b s id; rw [e]
@[simp] theorem State.settle_axes (b s : State) (id : DieId) :
    ((b.settle s).die id).axes = (s.die id).axes := by
  obtain ⟨_, _, _, _, _, _, _, _, _, _, e⟩ := State.settle_die b s id; rw [e]
@[simp] theorem State.settle_pwm (b s : State) (id : DieId) :
    ((b.settle s).die id).pwm = (s.die id).pwm := by
  obtain ⟨_, _, _, _, _, _, _, _, _, _, e⟩ := State.settle_die b s id; rw [e]
@[simp] theorem State.settle_encs (b s : State) (id : DieId) :
    ((b.settle s).die id).encs = (s.die id).encs := by
  obtain ⟨_, _, _, _, _, _, _, _, _, _, e⟩ := State.settle_die b s id; rw [e]
@[simp] theorem State.settle_encPins (b s : State) (id : DieId) :
    ((b.settle s).die id).encPins = (s.die id).encPins := by
  obtain ⟨_, _, _, _, _, _, _, _, _, _, e⟩ := State.settle_die b s id; rw [e]
@[simp] theorem State.settle_captPins (b s : State) (id : DieId) :
    ((b.settle s).die id).captPins = (s.die id).captPins := by
  obtain ⟨_, _, _, _, _, _, _, _, _, _, e⟩ := State.settle_die b s id; rw [e]
@[simp] theorem State.settle_lanes (b s : State) (id : DieId) :
    ((b.settle s).die id).lanes = (s.die id).lanes := by
  obtain ⟨_, _, _, _, _, _, _, _, _, _, e⟩ := State.settle_die b s id; rw [e]
@[simp] theorem State.settle_cans (b s : State) (id : DieId) :
    ((b.settle s).die id).cans = (s.die id).cans := by
  obtain ⟨_, _, _, _, _, _, _, _, _, _, e⟩ := State.settle_die b s id; rw [e]
@[simp] theorem State.settle_boot (b s : State) (id : DieId) :
    ((b.settle s).die id).boot = (s.die id).boot := by
  obtain ⟨_, _, _, _, _, _, _, _, _, _, e⟩ := State.settle_die b s id; rw [e]
@[simp] theorem State.settle_sec (b s : State) (id : DieId) :
    ((b.settle s).die id).sec = (s.die id).sec := by
  obtain ⟨_, _, _, _, _, _, _, _, _, _, e⟩ := State.settle_die b s id; rw [e]
@[simp] theorem State.settle_jtag (b s : State) (id : DieId) :
    ((b.settle s).die id).jtag = (s.die id).jtag := by
  obtain ⟨_, _, _, _, _, _, _, _, _, _, e⟩ := State.settle_die b s id; rw [e]
@[simp] theorem State.settle_rst (b s : State) (id : DieId) :
    ((b.settle s).die id).rst = (s.die id).rst := by
  obtain ⟨_, _, _, _, _, _, _, _, _, _, e⟩ := State.settle_die b s id; rw [e]
@[simp] theorem State.settle_pwr (b s : State) (id : DieId) :
    ((b.settle s).die id).pwr = (s.die id).pwr := by
  obtain ⟨_, _, _, _, _, _, _, _, _, _, e⟩ := State.settle_die b s id; rw [e]
@[simp] theorem State.settle_clk (b s : State) (id : DieId) :
    ((b.settle s).die id).clk = (s.die id).clk := by
  obtain ⟨_, _, _, _, _, _, _, _, _, _, e⟩ := State.settle_die b s id; rw [e]
@[simp] theorem State.settle_qspi (b s : State) (id : DieId) :
    ((b.settle s).die id).qspi = (s.die id).qspi := by
  obtain ⟨_, _, _, _, _, _, _, _, _, _, e⟩ := State.settle_die b s id; rw [e]
@[simp] theorem State.settle_dma (b s : State) (id : DieId) :
    ((b.settle s).die id).dma = (s.die id).dma := by
  obtain ⟨_, _, _, _, _, _, _, _, _, _, e⟩ := State.settle_die b s id; rw [e]
@[simp] theorem State.settle_mon (b s : State) (id : DieId) :
    ((b.settle s).die id).mon = (s.die id).mon := by
  obtain ⟨_, _, _, _, _, _, _, _, _, _, e⟩ := State.settle_die b s id; rw [e]
@[simp] theorem State.settle_err (b s : State) (id : DieId) :
    ((b.settle s).die id).err = (s.die id).err := by
  obtain ⟨_, _, _, _, _, _, _, _, _, _, e⟩ := State.settle_die b s id; rw [e]
@[simp] theorem State.settle_safe (b s : State) (id : DieId) :
    ((b.settle s).die id).safe = (s.die id).safe := by
  obtain ⟨_, _, _, _, _, _, _, _, _, _, e⟩ := State.settle_die b s id; rw [e]
@[simp] theorem State.settle_sram (b s : State) (id : DieId) :
    ((b.settle s).die id).sram = (s.die id).sram := by
  obtain ⟨_, _, _, _, _, _, _, _, _, _, e⟩ := State.settle_die b s id; rw [e]
@[simp] theorem State.settle_eccBad (b s : State) (id : DieId) :
    ((b.settle s).die id).eccBad = (s.die id).eccBad := by
  obtain ⟨_, _, _, _, _, _, _, _, _, _, e⟩ := State.settle_die b s id; rw [e]
@[simp] theorem State.settle_eccSoft (b s : State) (id : DieId) :
    ((b.settle s).die id).eccSoft = (s.die id).eccSoft := by
  obtain ⟨_, _, _, _, _, _, _, _, _, _, e⟩ := State.settle_die b s id; rw [e]
@[simp] theorem State.settle_real (b s : State) (id : DieId) :
    ((b.settle s).die id).real = (s.die id).real := by
  obtain ⟨_, _, _, _, _, _, _, _, _, _, e⟩ := State.settle_die b s id; rw [e]
@[simp] theorem State.settle_fresh (b s : State) (id : DieId) :
    ((b.settle s).die id).fresh = (s.die id).fresh := by
  obtain ⟨_, _, _, _, _, _, _, _, _, _, e⟩ := State.settle_die b s id; rw [e]
@[simp] theorem State.settle_red_units (b s : State) (id : DieId) :
    ((b.settle s).die id).red.units = (s.die id).red.units := by
  obtain ⟨_, _, _, _, _, _, _, _, _, _, e⟩ := State.settle_die b s id; rw [e]
@[simp] theorem State.settle_red_spares (b s : State) (id : DieId) :
    ((b.settle s).die id).red.spares = (s.die id).red.spares := by
  obtain ⟨_, _, _, _, _, _, _, _, _, _, e⟩ := State.settle_die b s id; rw [e]
@[simp] theorem State.settle_red_sel (b s : State) (id : DieId) :
    ((b.settle s).die id).red.sel = (s.die id).red.sel := by
  obtain ⟨_, _, _, _, _, _, _, _, _, _, e⟩ := State.settle_die b s id; rw [e]
@[simp] theorem State.settle_red_confirmReq (b s : State) (id : DieId) :
    ((b.settle s).die id).red.confirmReq = (s.die id).red.confirmReq := by
  obtain ⟨_, _, _, _, _, _, _, _, _, _, e⟩ := State.settle_die b s id; rw [e]
@[simp] theorem State.settle_red_confirmMode (b s : State) (id : DieId) :
    ((b.settle s).die id).red.confirmMode = (s.die id).red.confirmMode := by
  obtain ⟨_, _, _, _, _, _, _, _, _, _, e⟩ := State.settle_die b s id; rw [e]
@[simp] theorem State.settle_red_confirmed (b s : State) (id : DieId) :
    ((b.settle s).die id).red.confirmed = (s.die id).red.confirmed := by
  obtain ⟨_, _, _, _, _, _, _, _, _, _, e⟩ := State.settle_die b s id; rw [e]
@[simp] theorem State.settle_red_grant (b s : State) (id : DieId) :
    ((b.settle s).die id).red.grant = (s.die id).red.grant := by
  obtain ⟨_, _, _, _, _, _, _, _, _, _, e⟩ := State.settle_die b s id; rw [e]
@[simp] theorem State.settle_red_grantAt (b s : State) (id : DieId) :
    ((b.settle s).die id).red.grantAt = (s.die id).red.grantAt := by
  obtain ⟨_, _, _, _, _, _, _, _, _, _, e⟩ := State.settle_die b s id; rw [e]
@[simp] theorem State.settle_red_live (b s : State) (id : DieId) :
    ((b.settle s).die id).red.live = (s.die id).red.live := by
  obtain ⟨_, _, _, _, _, _, _, _, _, _, e⟩ := State.settle_die b s id; rw [e]
@[simp] theorem State.settle_red_quiet (b s : State) (id : DieId) :
    ((b.settle s).die id).red.quiet = (s.die id).red.quiet := by
  obtain ⟨_, _, _, _, _, _, _, _, _, _, e⟩ := State.settle_die b s id; rw [e]
@[simp] theorem State.settle_red_latched (b s : State) (id : DieId) :
    ((b.settle s).die id).red.latched = (s.die id).red.latched := by
  obtain ⟨_, _, _, _, _, _, _, _, _, _, e⟩ := State.settle_die b s id; rw [e]
@[simp] theorem State.settle_red_linkUp (b s : State) (id : DieId) :
    ((b.settle s).die id).red.linkUp = (s.die id).red.linkUp := by
  obtain ⟨_, _, _, _, _, _, _, _, _, _, e⟩ := State.settle_die b s id; rw [e]
@[simp] theorem State.settle_red_cairnTx (b s : State) (id : DieId) :
    ((b.settle s).die id).red.cairnTx = (s.die id).red.cairnTx := by
  obtain ⟨_, _, _, _, _, _, _, _, _, _, e⟩ := State.settle_die b s id; rw [e]
@[simp] theorem State.settle_red_degraded (b s : State) (id : DieId) :
    ((b.settle s).die id).red.degraded = (s.die id).red.degraded := by
  obtain ⟨_, _, _, _, _, _, _, _, _, _, e⟩ := State.settle_die b s id; rw [e]
@[simp] theorem State.settle_red_cause (b s : State) (id : DieId) :
    ((b.settle s).die id).red.cause = (s.die id).red.cause := by
  obtain ⟨_, _, _, _, _, _, _, _, _, _, e⟩ := State.settle_die b s id; rw [e]
@[simp] theorem State.settle_red_tk (b s : State) (id : DieId) :
    ((b.settle s).die id).red.tk = (s.die id).red.tk := by
  obtain ⟨_, _, _, _, _, _, _, _, _, _, e⟩ := State.settle_die b s id; rw [e]
@[simp] theorem State.settle_red_noSpare (b s : State) (id : DieId) :
    ((b.settle s).die id).red.noSpare = (s.die id).red.noSpare := by
  obtain ⟨_, _, _, _, _, _, _, _, _, _, e⟩ := State.settle_die b s id; rw [e]
@[simp] theorem State.settle_red_hbLast (b s : State) (id : DieId) :
    ((b.settle s).die id).red.hbLast = (s.die id).red.hbLast := by
  obtain ⟨_, _, _, _, _, _, _, _, _, _, e⟩ := State.settle_die b s id; rw [e]
@[simp] theorem State.settle_red_hbSince (b s : State) (id : DieId) :
    ((b.settle s).die id).red.hbSince = (s.die id).red.hbSince := by
  obtain ⟨_, _, _, _, _, _, _, _, _, _, e⟩ := State.settle_die b s id; rw [e]
@[simp] theorem State.settle_red_hbSig (b s : State) (id : DieId) :
    ((b.settle s).die id).red.hbSig = (s.die id).red.hbSig := by
  obtain ⟨_, _, _, _, _, _, _, _, _, _, e⟩ := State.settle_die b s id; rw [e]
@[simp] theorem State.settle_red_tkCyc (b s : State) (id : DieId) :
    ((b.settle s).die id).red.tkCyc = (s.die id).red.tkCyc := by
  obtain ⟨_, _, _, _, _, _, _, _, _, _, e⟩ := State.settle_die b s id; rw [e]
@[simp] theorem State.settle_red_silentAt (b s : State) (id : DieId) :
    ((b.settle s).die id).red.silentAt = (s.die id).red.silentAt := by
  obtain ⟨_, _, _, _, _, _, _, _, _, _, e⟩ := State.settle_die b s id; rw [e]
@[simp] theorem State.settle_red_hbSeen (b s : State) (id : DieId) :
    ((b.settle s).die id).red.hbSeen = (s.die id).red.hbSeen := by
  obtain ⟨_, _, _, _, _, _, _, _, _, _, e⟩ := State.settle_die b s id; rw [e]
@[simp] theorem State.settle_red_handoverRx (b s : State) (id : DieId) :
    ((b.settle s).die id).red.handoverRx = (s.die id).red.handoverRx := by
  obtain ⟨_, _, _, _, _, _, _, _, _, _, e⟩ := State.settle_die b s id; rw [e]
@[simp] theorem State.settle_red_handingOver (b s : State) (id : DieId) :
    ((b.settle s).die id).red.handingOver = (s.die id).red.handingOver := by
  obtain ⟨_, _, _, _, _, _, _, _, _, _, e⟩ := State.settle_die b s id; rw [e]
@[simp] theorem State.settle_red_handoverCmd (b s : State) (id : DieId) :
    ((b.settle s).die id).red.handoverCmd = (s.die id).red.handoverCmd := by
  obtain ⟨_, _, _, _, _, _, _, _, _, _, e⟩ := State.settle_die b s id; rw [e]
@[simp] theorem State.settle_red_dieHealth (b s : State) (id : DieId) :
    ((b.settle s).die id).red.dieHealth = (s.die id).red.dieHealth := by
  obtain ⟨_, _, _, _, _, _, _, _, _, _, e⟩ := State.settle_die b s id; rw [e]
@[simp] theorem State.settle_red_rotationOk (b s : State) (id : DieId) :
    ((b.settle s).die id).red.rotationOk = (s.die id).red.rotationOk := by
  obtain ⟨_, _, _, _, _, _, _, _, _, _, e⟩ := State.settle_die b s id; rw [e]
@[simp] theorem State.settle_red_blockNext (b s : State) (id : DieId) :
    ((b.settle s).die id).red.blockNext = (s.die id).red.blockNext := by
  obtain ⟨_, _, _, _, _, _, _, _, _, _, e⟩ := State.settle_die b s id; rw [e]
@[simp] theorem State.settle_red_blockOk (b s : State) (id : DieId) :
    ((b.settle s).die id).red.blockOk = (s.die id).red.blockOk := by
  obtain ⟨_, _, _, _, _, _, _, _, _, _, e⟩ := State.settle_die b s id; rw [e]
@[simp] theorem State.settle_red_dieFail (b s : State) (id : DieId) :
    ((b.settle s).die id).red.dieFail = (s.die id).red.dieFail := by
  obtain ⟨_, _, _, _, _, _, _, _, _, _, e⟩ := State.settle_die b s id; rw [e]
@[simp] theorem State.settle_red_cnt (b s : State) (id : DieId) :
    ((b.settle s).die id).red.cnt = (s.die id).red.cnt := by
  obtain ⟨_, _, _, _, _, _, _, _, _, _, e⟩ := State.settle_die b s id; rw [e]
@[simp] theorem State.settle_red_cairnCyc (b s : State) (id : DieId) :
    ((b.settle s).die id).red.cairnCyc = (s.die id).red.cairnCyc := by
  obtain ⟨_, _, _, _, _, _, _, _, _, _, e⟩ := State.settle_die b s id; rw [e]
@[simp] theorem State.settle_red_cairnGap (b s : State) (id : DieId) :
    ((b.settle s).die id).red.cairnGap = (s.die id).red.cairnGap := by
  obtain ⟨_, _, _, _, _, _, _, _, _, _, e⟩ := State.settle_die b s id; rw [e]
@[simp] theorem State.settle_red_fit (b s : State) (id : DieId) :
    ((b.settle s).die id).red.fit = (s.die id).red.fit := by
  obtain ⟨_, _, _, _, _, _, _, _, _, _, e⟩ := State.settle_die b s id; rw [e]
@[simp] theorem State.settle_red_takes (b s : State) (id : DieId) :
    ((b.settle s).die id).red.takes = (s.die id).red.takes := by
  obtain ⟨_, _, _, _, _, _, _, _, _, _, e⟩ := State.settle_die b s id; rw [e]
@[simp] theorem State.settle_red_bistNext (b s : State) (id : DieId) :
    ((b.settle s).die id).red.bistNext = (s.die id).red.bistNext := by
  obtain ⟨_, _, _, _, _, _, _, _, _, _, e⟩ := State.settle_die b s id; rw [e]
@[simp] theorem State.settle_red_bistAt (b s : State) (id : DieId) :
    ((b.settle s).die id).red.bistAt = (s.die id).red.bistAt := by
  obtain ⟨_, _, _, _, _, _, _, _, _, _, e⟩ := State.settle_die b s id; rw [e]
@[simp] theorem State.settle_host_nodeDup (b s : State) (id : DieId) :
    ((b.settle s).die id).host.nodeDup = (s.die id).host.nodeDup := by
  obtain ⟨_, _, _, _, _, _, _, _, _, _, e⟩ := State.settle_die b s id; rw [e]
@[simp] theorem State.settle_host_nodeId (b s : State) (id : DieId) :
    ((b.settle s).die id).host.nodeId = (s.die id).host.nodeId := by
  obtain ⟨_, _, _, _, _, _, _, _, _, _, e⟩ := State.settle_die b s id; rw [e]
@[simp] theorem State.settle_host_holdUs (b s : State) (id : DieId) :
    ((b.settle s).die id).host.holdUs = (s.die id).host.holdUs := by
  obtain ⟨_, _, _, _, _, _, _, _, _, _, e⟩ := State.settle_die b s id; rw [e]
@[simp] theorem State.settle_host_held (b s : State) (id : DieId) :
    ((b.settle s).die id).host.held = (s.die id).host.held := by
  obtain ⟨_, _, _, _, _, _, _, _, _, _, e⟩ := State.settle_die b s id; rw [e]
@[simp] theorem State.settle_host_unacked (b s : State) (id : DieId) :
    ((b.settle s).die id).host.unacked = (s.die id).host.unacked := by
  obtain ⟨_, _, _, _, _, _, _, _, _, _, e⟩ := State.settle_die b s id; rw [e]
@[simp] theorem State.settle_host_noLink (b s : State) (id : DieId) :
    ((b.settle s).die id).host.noLink = (s.die id).host.noLink := by
  obtain ⟨_, _, _, _, _, _, _, _, _, _, e⟩ := State.settle_die b s id; rw [e]
@[simp] theorem State.settle_host_timeout (b s : State) (id : DieId) :
    ((b.settle s).die id).host.timeout = (s.die id).host.timeout := by
  obtain ⟨_, _, _, _, _, _, _, _, _, _, e⟩ := State.settle_die b s id; rw [e]
@[simp] theorem State.settle_host_unmapped (b s : State) (id : DieId) :
    ((b.settle s).die id).host.unmapped = (s.die id).host.unmapped := by
  obtain ⟨_, _, _, _, _, _, _, _, _, _, e⟩ := State.settle_die b s id; rw [e]
@[simp] theorem State.settle_host_badAccess (b s : State) (id : DieId) :
    ((b.settle s).die id).host.badAccess = (s.die id).host.badAccess := by
  obtain ⟨_, _, _, _, _, _, _, _, _, _, e⟩ := State.settle_die b s id; rw [e]
@[simp] theorem State.settle_host_cvLog (b s : State) (id : DieId) :
    ((b.settle s).die id).host.cvLog = (s.die id).host.cvLog := by
  obtain ⟨_, _, _, _, _, _, _, _, _, _, e⟩ := State.settle_die b s id; rw [e]
@[simp] theorem State.settle_host_smbStatus (b s : State) (id : DieId) :
    ((b.settle s).die id).host.smbStatus = (s.die id).host.smbStatus := by
  obtain ⟨_, _, _, _, _, _, _, _, _, _, e⟩ := State.settle_die b s id; rw [e]
@[simp] theorem State.settle_host_smbAddr (b s : State) (id : DieId) :
    ((b.settle s).die id).host.smbAddr = (s.die id).host.smbAddr := by
  obtain ⟨_, _, _, _, _, _, _, _, _, _, e⟩ := State.settle_die b s id; rw [e]
@[simp] theorem State.settle_host_cnt (b s : State) (id : DieId) :
    ((b.settle s).die id).host.cnt = (s.die id).host.cnt := by
  obtain ⟨_, _, _, _, _, _, _, _, _, _, e⟩ := State.settle_die b s id; rw [e]
@[simp] theorem State.settle_host_msix (b s : State) (id : DieId) :
    ((b.settle s).die id).host.msix = (s.die id).host.msix := by
  obtain ⟨_, _, _, _, _, _, _, _, _, _, e⟩ := State.settle_die b s id; rw [e]
@[simp] theorem State.settle_host_msix1 (b s : State) (id : DieId) :
    ((b.settle s).die id).host.msix1 = (s.die id).host.msix1 := by
  obtain ⟨_, _, _, _, _, _, _, _, _, _, e⟩ := State.settle_die b s id; rw [e]
@[simp] theorem State.settle_host_perst (b s : State) (id : DieId) :
    ((b.settle s).die id).host.perst = (s.die id).host.perst := by
  obtain ⟨_, _, _, _, _, _, _, _, _, _, e⟩ := State.settle_die b s id; rw [e]
@[simp] theorem State.settle_host_linkUp (b s : State) (id : DieId) :
    ((b.settle s).die id).host.linkUp = (s.die id).host.linkUp := by
  obtain ⟨_, _, _, _, _, _, _, _, _, _, e⟩ := State.settle_die b s id; rw [e]
@[simp] theorem State.settle_host_access (b s : State) (id : DieId) :
    ((b.settle s).die id).host.access = (s.die id).host.access := by
  obtain ⟨_, _, _, _, _, _, _, _, _, _, e⟩ := State.settle_die b s id; rw [e]
@[simp] theorem State.settle_img_readyAt (b s : State) (id : DieId) :
    ((b.settle s).die id).img.readyAt = (s.die id).img.readyAt := by
  obtain ⟨_, _, _, _, _, _, _, _, _, _, e⟩ := State.settle_die b s id; rw [e]
@[simp] theorem State.settle_img_errRule (b s : State) (id : DieId) :
    ((b.settle s).die id).img.errRule = (s.die id).img.errRule := by
  obtain ⟨_, _, _, _, _, _, _, _, _, _, e⟩ := State.settle_die b s id; rw [e]
@[simp] theorem State.settle_img_errUid (b s : State) (id : DieId) :
    ((b.settle s).die id).img.errUid = (s.die id).img.errUid := by
  obtain ⟨_, _, _, _, _, _, _, _, _, _, e⟩ := State.settle_die b s id; rw [e]
@[simp] theorem State.settle_img_errPos (b s : State) (id : DieId) :
    ((b.settle s).die id).img.errPos = (s.die id).img.errPos := by
  obtain ⟨_, _, _, _, _, _, _, _, _, _, e⟩ := State.settle_die b s id; rw [e]
@[simp] theorem State.settle_img_errSec (b s : State) (id : DieId) :
    ((b.settle s).die id).img.errSec = (s.die id).img.errSec := by
  obtain ⟨_, _, _, _, _, _, _, _, _, _, e⟩ := State.settle_die b s id; rw [e]
@[simp] theorem State.settle_img_applyCyc (b s : State) (id : DieId) :
    ((b.settle s).die id).img.applyCyc = (s.die id).img.applyCyc := by
  obtain ⟨_, _, _, _, _, _, _, _, _, _, e⟩ := State.settle_die b s id; rw [e]
@[simp] theorem State.settle_img_atCyc (b s : State) (id : DieId) :
    ((b.settle s).die id).img.atCyc = (s.die id).img.atCyc := by
  obtain ⟨_, _, _, _, _, _, _, _, _, _, e⟩ := State.settle_die b s id; rw [e]
@[simp] theorem State.settle_img_src (b s : State) (id : DieId) :
    ((b.settle s).die id).img.src = (s.die id).img.src := by
  obtain ⟨_, _, _, _, _, _, _, _, _, _, e⟩ := State.settle_die b s id; rw [e]
@[simp] theorem State.settle_img_pushBase (b s : State) (id : DieId) :
    ((b.settle s).die id).img.pushBase = (s.die id).img.pushBase := by
  obtain ⟨_, _, _, _, _, _, _, _, _, _, e⟩ := State.settle_die b s id; rw [e]
@[simp] theorem State.settle_img_svn (b s : State) (id : DieId) :
    ((b.settle s).die id).img.svn = (s.die id).img.svn := by
  obtain ⟨_, _, _, _, _, _, _, _, _, _, e⟩ := State.settle_die b s id; rw [e]
@[simp] theorem State.settle_img_id (b s : State) (id : DieId) :
    ((b.settle s).die id).img.id = (s.die id).img.id := by
  obtain ⟨_, _, _, _, _, _, _, _, _, _, e⟩ := State.settle_die b s id; rw [e]
@[simp] theorem State.settle_img_stagedId (b s : State) (id : DieId) :
    ((b.settle s).die id).img.stagedId = (s.die id).img.stagedId := by
  obtain ⟨_, _, _, _, _, _, _, _, _, _, e⟩ := State.settle_die b s id; rw [e]
@[simp] theorem State.settle_img_cnt (b s : State) (id : DieId) :
    ((b.settle s).die id).img.cnt = (s.die id).img.cnt := by
  obtain ⟨_, _, _, _, _, _, _, _, _, _, e⟩ := State.settle_die b s id; rw [e]
@[simp] theorem State.settle_img_cell (b s : State) (id : DieId) :
    ((b.settle s).die id).img.cell = (s.die id).img.cell := by
  obtain ⟨_, _, _, _, _, _, _, _, _, _, e⟩ := State.settle_die b s id; rw [e]
@[simp] theorem State.settle_img_ports (b s : State) (id : DieId) :
    ((b.settle s).die id).img.ports = (s.die id).img.ports := by
  obtain ⟨_, _, _, _, _, _, _, _, _, _, e⟩ := State.settle_die b s id; rw [e]
@[simp] theorem State.settle_img_pins (b s : State) (id : DieId) :
    ((b.settle s).die id).img.pins = (s.die id).img.pins := by
  obtain ⟨_, _, _, _, _, _, _, _, _, _, e⟩ := State.settle_die b s id; rw [e]
@[simp] theorem State.settle_img_secs (b s : State) (id : DieId) :
    ((b.settle s).die id).img.secs = (s.die id).img.secs := by
  obtain ⟨_, _, _, _, _, _, _, _, _, _, e⟩ := State.settle_die b s id; rw [e]
@[simp] theorem State.settle_img_copy (b s : State) (id : DieId) :
    ((b.settle s).die id).img.copy = (s.die id).img.copy := by
  obtain ⟨_, _, _, _, _, _, _, _, _, _, e⟩ := State.settle_die b s id; rw [e]
@[simp] theorem State.settle_img_power (b s : State) (id : DieId) :
    ((b.settle s).die id).img.power = (s.die id).img.power := by
  obtain ⟨_, _, _, _, _, _, _, _, _, _, e⟩ := State.settle_die b s id; rw [e]
@[simp] theorem State.settle_img_digest1 (b s : State) (id : DieId) :
    ((b.settle s).die id).img.digest1 = (s.die id).img.digest1 := by
  obtain ⟨_, _, _, _, _, _, _, _, _, _, e⟩ := State.settle_die b s id; rw [e]
@[simp] theorem State.settle_img_crcs1 (b s : State) (id : DieId) :
    ((b.settle s).die id).img.crcs1 = (s.die id).img.crcs1 := by
  obtain ⟨_, _, _, _, _, _, _, _, _, _, e⟩ := State.settle_die b s id; rw [e]
@[simp] theorem State.settle_img_staged (b s : State) (id : DieId) :
    ((b.settle s).die id).img.staged = (s.die id).img.staged := by
  obtain ⟨_, _, _, _, _, _, _, _, _, _, e⟩ := State.settle_die b s id; rw [e]
@[simp] theorem State.settle_img_applyK (b s : State) (id : DieId) :
    ((b.settle s).die id).img.applyK = (s.die id).img.applyK := by
  obtain ⟨_, _, _, _, _, _, _, _, _, _, e⟩ := State.settle_die b s id; rw [e]
@[simp] theorem State.settle_img_geomNext (b s : State) (id : DieId) :
    ((b.settle s).die id).img.geomNext = (s.die id).img.geomNext := by
  obtain ⟨_, _, _, _, _, _, _, _, _, _, e⟩ := State.settle_die b s id; rw [e]
@[simp] theorem State.settle_img_progs (b s : State) (id : DieId) :
    ((b.settle s).die id).img.progs = (s.die id).img.progs := by
  obtain ⟨_, _, _, _, _, _, _, _, _, _, e⟩ := State.settle_die b s id; rw [e]

/-- Without an update in APPLYING its state stays as it is. -/
theorem State.settle_img (b s : State) (id : DieId) (h : (s.die id).img.state ≠ .applying) :
    ((b.settle s).die id).img = (s.die id).img := by
  rw [State.settle_die_eq]
  obtain ⟨_, _, _, e⟩ := Die.interrupts_frame (b.die id) (s.gates.applyMeetsTakeover.driveSafe.die id)
  rw [e, State.driveSafe_die]
  show (s.gates.applyMeetsTakeover.die id).img = _
  obtain ⟨g, eg⟩ := State.gates_die s id
  unfold State.applyMeetsTakeover
  split
  · rw [State.both_die, eg, if_neg h]
  · rw [eg]

end Sys2Proof.Machine
end

