-- ==== Sys2Proof/Laws/Core.lean ====
section
/-! SUPPORT. What the next state of a command is, die by die, up to what a step adds of itself, and what
reading a table gives after an entry has been written. -/

namespace Sys2Proof

@[simp] theorem vget_vset_same {α : Type} {n : Nat} (v : Vector α n) (i : Fin n) (x : α) :
    vget (vset v i x) i = x := by simp [vget, vset]
theorem vget_vset_other {α : Type} {n : Nat} (v : Vector α n) (i j : Fin n) (x : α) (h : j ≠ i) :
    vget (vset v i x) j = vget v j := by
  simp only [vget, vset]
  exact Vector.getElem_set_ne _ _ (fun e => h (Fin.ext e.symm))
@[simp] theorem vget_vupd_same {α : Type} {n : Nat} (v : Vector α n) (i : Fin n) (f : α → α) :
    vget (vupd v i f) i = f (vget v i) := vget_vset_same ..
theorem vget_vupd_other {α : Type} {n : Nat} (v : Vector α n) (i j : Fin n) (f : α → α) (h : j ≠ i) :
    vget (vupd v i f) j = vget v j := vget_vset_other _ _ _ _ h

namespace Machine

/-- The die after `settle` is the die the command left, up to what a step adds of itself. -/
@[simp] theorem State.settle_core (b s : State) (id : DieId) : ((b.settle s).die id).core = (s.die id).core := by
  obtain ⟨_, _, _, _, _, _, _, _, _, _, e⟩ := State.settle_die b s id
  rw [e]; rfl

/-- A die as `settle` may leave it: pending bits, messages, the gate, and an update that meets a takeover. -/
@[reducible] def Die.after (f : Die) (p : W64) (q : BitVec 4) (o : List OutMsg) (st : ImgState) (r : Byte)
    (n y : Bool) (b : List Byte) (z g : Bool) : Die :=
  { f with
    host := { f.host with pba := p, pba1 := q }
    out := o
    img := { f.img with state := st, result := r, done := n, pushReady := y, buf := b, pass2 := z }
    red := { f.red with gateOpen := g } }

@[simp] theorem Die.after_core (f : Die) (p : W64) (q : BitVec 4) (o : List OutMsg) (st : ImgState) (r : Byte)
    (n y : Bool) (b : List Byte) (z g : Bool) : (f.after p q o st r n y b z g).core = f.core := rfl

/-- A statement of one die is shown of the die the meaning gives, whatever `settle` adds to it. -/
theorem acts_state {i : Instr} {d : DieId} {s u v : State} {post : Die → Die → Prop} (hx : exec i s = .next (s.settle v))
    (hpeer : (v.die d.peer).core = (u.die d.peer).core) (hq : v.pending = u.pending)
    (h : ∀ p q o st r n y b z g, post (u.die d) ((v.die d).after p q o st r n y b z g)) : Acts i d s u post := by
  refine ⟨_, hx, ⟨?_, ?_⟩, ?_⟩
  · rw [State.settle_core]; exact hpeer
  · rw [State.settle_pending]; exact hq
  · obtain ⟨p, q, o, st, r, n, y, b, z, g, e⟩ := State.settle_die s v d
    rw [e]; exact h ..

/-- The meaning is `f` of the die in the state `u`. -/
theorem acts_from {i : Instr} {d : DieId} {s u : State} (f : Die → Die) {post : Die → Die → Prop}
    (hx : exec i s = .next (s.settle (u.upd d f)))
    (h : ∀ p q o st r n y b z g, post (u.die d) ((f (u.die d)).after p q o st r n y b z g)) : Acts i d s u post := by
  refine acts_state (v := u.upd d f) hx ?_ ?_ ?_
  · rw [State.upd_peer]
  · rw [State.upd_pending]
  · rw [State.upd_die]; exact h

theorem acts_of {i : Instr} {d : DieId} {s : State} (f : Die → Die) {post : Die → Die → Prop}
    (hx : exec i s = onDie d f s)
    (h : ∀ p q o st r n y b z g, post (s.die d) ((f (s.die d)).after p q o st r n y b z g)) : Acts i d s s post :=
  acts_from f hx h

/-- A management command that reaches an ON domain is carried out, on a port that the image names (R14, R32, R552). -/
theorem Die.cmd_reached {i a : Nat} {f : Die → Die} {d : Die} (h : d.reached i = true) :
    Die.cmd i a f d = if (decodeReg a).portUsed d.img.pins then f d.accept else d.accept := by
  simp only [Die.reached, Bool.and_eq_true, decide_eq_true_eq] at h
  unfold Die.cmd Die.mgmt
  rw [if_neg h.1, if_pos h.2]; rfl

theorem onReg_of {i : Instr} {d : DieId} {dom a : Nat} {s : State} (f : Die → Die) {post : Die → Die → Prop}
    (hx : exec i s = onDie d (Die.cmd dom a f) s) (hp : (decodeReg a).portUsed (s.die d).img.pins = true)
    (h : ∀ p q o st r n y b z g, post (s.die d) ((f (s.die d).accept).after p q o st r n y b z g)) :
    OnReg i d dom s post := by
  intro hr
  refine acts_of _ hx ?_
  rw [Die.cmd_reached hr, if_pos hp]; exact h

/-- What a command of one die leaves: that die is `f` of it, the other one and the queue are as before. -/
theorem settle_upd (s : State) (id : DieId) (f : Die → Die) :
    ((s.settle (s.upd id f)).die id).core = (f (s.die id)).core ∧ State.only id s (s.settle (s.upd id f)) := by
  refine ⟨?_, ?_, ?_⟩
  · rw [State.settle_core, State.upd_die]
  · rw [State.settle_core, State.upd_peer]
  · rw [State.settle_pending, State.upd_pending]

end Machine
end Sys2Proof
end

