-- ==== Sys2Proof/Laws/Memory.lean ====
section
/-! SUPPORT. What every operation on a byte memory does: reads after writes, and the canonical form. -/

namespace Sys2Proof.Machine

theorem cellsGet_put_same (d v : Byte) (a : Nat) (l : List Host.Cell) (lo : Nat) (h : cellsWf d lo l = true) :
    cellsGet d a (cellsPut d a v l) = v := by
  induction l generalizing lo with
  | nil => unfold cellsPut; split <;> simp_all [cellsGet]
  | cons c r ih =>
    obtain ⟨b, w⟩ := c
    simp only [cellsWf, Bool.and_eq_true, decide_eq_true_eq] at h
    have rest : ∀ lo', cellsWf d lo' r = true → a < lo' → cellsGet d a r = d := by
      clear ih h
      induction r with
      | nil => intros; rfl
      | cons c r ih =>
        obtain ⟨b', w'⟩ := c
        intro lo' h' hl
        simp only [cellsWf, Bool.and_eq_true, decide_eq_true_eq] at h'
        have hne : a ≠ b' := by omega
        simp only [cellsGet, hne, if_false]
        exact ih (b' + 1) h'.2 (by omega)
    unfold cellsPut
    split
    · rename_i hlt
      split
      · rename_i hv
        have hne : a ≠ b := by omega
        simp only [cellsGet, hne, if_false]
        rw [rest (b + 1) h.2 (by omega), hv]
      · simp [cellsGet]
    · split
      · rename_i heq
        split
        · rename_i hv
          rw [rest (b + 1) h.2 (by omega), hv]
        · simp [cellsGet]
      · rename_i hne
        simp only [cellsGet, hne, if_false]
        exact ih (b + 1) h.2

theorem cellsGet_put_other (d v : Byte) (a b : Nat) (hne : b ≠ a) (l : List Host.Cell) :
    cellsGet d b (cellsPut d a v l) = cellsGet d b l := by
  induction l with
  | nil => unfold cellsPut; split <;> simp [cellsGet, hne]
  | cons c r ih =>
    obtain ⟨k, w⟩ := c
    unfold cellsPut
    split
    · split <;> simp [cellsGet, hne]
    · split
      · rename_i heq
        have hbk : b ≠ k := by omega
        split <;> simp [cellsGet, hbk, hne]
      · simp only [cellsGet]
        split
        · rfl
        · exact ih

theorem cellsWf_mono (d : Byte) (l : List Host.Cell) (lo lo' : Nat) (hl : lo' ≤ lo) (h : cellsWf d lo l = true) :
    cellsWf d lo' l = true := by
  cases l with
  | nil => rfl
  | cons c r =>
    obtain ⟨b, w⟩ := c
    simp only [cellsWf, Bool.and_eq_true, decide_eq_true_eq] at h ⊢
    exact ⟨⟨by omega, h.1.2⟩, h.2⟩

theorem cellsWf_put (d v : Byte) (a lo : Nat) (hlo : lo ≤ a) (l : List Host.Cell) (h : cellsWf d lo l = true) :
    cellsWf d lo (cellsPut d a v l) = true := by
  induction l generalizing lo with
  | nil => unfold cellsPut; split <;> simp_all [cellsWf]
  | cons c r ih =>
    obtain ⟨b, w⟩ := c
    simp only [cellsWf, Bool.and_eq_true, decide_eq_true_eq] at h
    unfold cellsPut
    split
    · split
      · simp only [cellsWf, Bool.and_eq_true, decide_eq_true_eq]; exact h
      · rename_i hv
        simp only [cellsWf, Bool.and_eq_true, decide_eq_true_eq]
        exact ⟨⟨hlo, hv⟩, ⟨by omega, h.1.2⟩, h.2⟩
    · split
      · rename_i heq
        split
        · exact cellsWf_mono d r (b + 1) lo (by omega) h.2
        · rename_i hv
          simp only [cellsWf, Bool.and_eq_true, decide_eq_true_eq]
          exact ⟨⟨hlo, hv⟩, heq ▸ h.2⟩
      · simp only [cellsWf, Bool.and_eq_true, decide_eq_true_eq]
        exact ⟨h.1, ih (b + 1) (by omega) h.2⟩

/-- A byte written reads back. -/
theorem Memory.get_put_same (d v : Byte) (m : Memory) (a : Nat) (h : m.wf d = true) :
    (m.put d a v).get d a = v := cellsGet_put_same d v a m.cells 0 h

/-- A byte written leaves every other byte. -/
theorem Memory.get_put_other (d v : Byte) (m : Memory) (a b : Nat) (hne : b ≠ a) :
    (m.put d a v).get d b = m.get d b := cellsGet_put_other d v a b hne m.cells

/-- Writing a byte keeps the canonical form. -/
theorem Memory.put_wf (d v : Byte) (m : Memory) (a : Nat) (h : m.wf d = true) : (m.put d a v).wf d = true :=
  cellsWf_put d v a 0 (Nat.zero_le a) m.cells h

/-- Writing bytes keeps the canonical form. -/
theorem Memory.write_wf (d : Byte) (l : List Byte) (m : Memory) (a : Nat) (h : m.wf d = true) :
    (m.write d a l).wf d = true := by
  induction l generalizing m a with
  | nil => exact h
  | cons v r ih => exact ih (m.put d a v) (a + 1) (Memory.put_wf d v m a h)

/-- Bytes written leave every byte outside them. -/
theorem Memory.get_write_outside (d : Byte) (l : List Byte) (m : Memory) (a b : Nat)
    (h : b < a ∨ a + l.length ≤ b) : (m.write d a l).get d b = m.get d b := by
  induction l generalizing m a with
  | nil => rfl
  | cons v r ih =>
    simp only [List.length_cons] at h
    show ((m.put d a v).write d (a + 1) r).get d b = m.get d b
    rw [ih (m.put d a v) (a + 1) (by omega), Memory.get_put_other d v m a b (by omega)]

theorem cellsWf_filter (d : Byte) (p : Host.Cell → Bool) (l : List Host.Cell) (lo : Nat) (h : cellsWf d lo l = true) :
    cellsWf d lo (l.filter p) = true := by
  induction l generalizing lo with
  | nil => rfl
  | cons c r ih =>
    obtain ⟨b, w⟩ := c
    simp only [cellsWf, Bool.and_eq_true, decide_eq_true_eq] at h
    rw [List.filter_cons]
    split
    · simp only [cellsWf, Bool.and_eq_true, decide_eq_true_eq]
      exact ⟨h.1, ih (b + 1) h.2⟩
    · exact cellsWf_mono d _ (b + 1) lo (by omega) (ih (b + 1) h.2)

/-- Erasing keeps the canonical form. -/
theorem Memory.erase_wf (d : Byte) (m : Memory) (a n : Nat) (h : m.wf d = true) : (m.erase a n).wf d = true :=
  cellsWf_filter d _ m.cells 0 h

/-- Storing a word keeps the canonical form. -/
theorem Memory.putWord_wf (m : Memory) (a : Nat) (v : W32) (h : m.wf 0 = true) : (m.putWord a v).wf 0 = true :=
  Memory.write_wf 0 _ m a h

theorem leBytes_length (n x : Nat) : (leBytes n x).length = n := by
  induction n generalizing x with
  | zero => rfl
  | succ n ih => simp [leBytes, ih]

/-- A stored word leaves every byte outside its four. -/
theorem Memory.get_putWord_outside (m : Memory) (a : Nat) (v : W32) (b : Nat) (h : b < a ∨ a + 4 ≤ b) :
    (m.putWord a v).get 0 b = m.get 0 b :=
  Memory.get_write_outside 0 _ m a b (by rw [leBytes_length]; exact h)

end Sys2Proof.Machine
end

