-- ==== Sys2Proof/Laws/Crypto.lean ====
section
/-! SUPPORT. AES-128 and AES-CMAC answer 16 bytes for a key of 16 bytes. -/

namespace Sys2Proof.Machine

@[simp] theorem xorBytes_length (a b : List Byte) : (xorBytes a b).length = min a.length b.length := by
  simp [xorBytes]

@[simp] theorem beBytes_length (n x : Nat) : (beBytes n x).length = n := by
  simp [beBytes, leBytes_length]

@[simp] theorem sliceBytes_length (l : List Byte) (a n : Nat) : (sliceBytes l a n).length = n := by
  simp only [sliceBytes, List.length_append, List.length_take, List.length_drop, List.length_replicate]
  omega

theorem aesNextKey_length (r : Byte) (k : List Byte) (h : k.length = 16) : (aesNextKey r k).length = 16 := by
  simp [aesNextKey, h]

theorem aesShift_length (s : List Byte) : (aesShift s).length = 16 := by simp [aesShift]
theorem aesMix_length (s : List Byte) : (aesMix s).length = 16 := by simp [aesMix]

theorem aesRounds_length (n : Nat) : ∀ (r : Byte) (k s : List Byte), k.length = 16 → s.length = 16 →
    (aesRounds n r k s).length = 16 := by
  induction n with
  | zero => intro r k s _ hs; exact hs
  | succ n ih =>
    intro r k s hk _
    refine ih _ _ _ (aesNextKey_length r k hk) ?_
    rw [xorBytes_length, aesNextKey_length r k hk]
    split <;> simp [aesShift_length, aesMix_length]

/-- A block under AES-128 is a block. -/
theorem aes128_length (k b : List Byte) (hk : k.length = 16) (hb : b.length = 16) : (aes128 k b).length = 16 :=
  aesRounds_length 10 1 k _ hk (by simp [hk, hb])

@[simp] theorem cmacDouble_length (l : List Byte) : (cmacDouble l).length = 16 := by
  unfold cmacDouble; exact beBytes_length 16 _

theorem foldl_block (f : List Byte → Nat → List Byte) (hf : ∀ c i, c.length = 16 → (f c i).length = 16)
    (l : List Nat) : ∀ c : List Byte, c.length = 16 → (l.foldl f c).length = 16 := by
  induction l with
  | nil => intro c hc; exact hc
  | cons i l ih => intro c hc; exact ih (f c i) (hf c i hc)

/-- A tag is a block. -/
theorem aesCmac_length (k body : List Byte) (hk : k.length = 16) : (aesCmac k body).length = 16 := by
  unfold aesCmac
  apply aes128_length _ _ hk
  rw [xorBytes_length, foldl_block]
  · split <;> simp_all
  · intro c i hc
    apply aes128_length _ _ hk
    simp [hc]
  · simp

end Sys2Proof.Machine
end

