-- ==== Sys2Proof/Laws/Log.lean ====
section
/-! SUPPORT. What an interrupt message and an error record change of a die: the log, what the endpoint
sends, and, for a FATAL record alone, LIVE (R574, R602, R603). Every other part is read through them. -/

namespace Sys2Proof.Machine

@[simp] theorem Die.msix_core (v : Nat) (d : Die) : (d.msix v).core = d.core := by
  obtain ⟨_, _, _, e⟩ := d.msix_frame v; rw [e]; rfl
@[simp] theorem Die.raise_core (v : Nat) (w : Bool) (d : Die) : (d.raise v w).core = d.core := by
  unfold Die.raise; split <;> simp
@[simp] theorem Die.emit_core (m : OutMsg) (d : Die) : (d.emit m).core = d.core := rfl

/-- A record enters the log: only the log and what the endpoint sends change (R603). -/
theorem Die.enterRec_frame (x : ErrRec) (d : Die) : ∃ p q o,
    d.enterRec x = { d with err := d.err.enter x, host := { d.host with pba := p, pba1 := q }, out := o } := by
  unfold Die.enterRec
  dsimp only
  split
  · obtain ⟨p, q, o, h⟩ := Die.msix_frame 1 { d with err := d.err.enter x }
    exact ⟨p, q, o, h⟩
  · exact ⟨d.host.pba, d.host.pba1, d.out, rfl⟩

/-- A record that is not FATAL changes the log and what the endpoint sends. -/
theorem Die.record_quiet (r : ErrRec) (d : Die) (h : r.sev ≠ .fatal) : ∃ x p q o,
    d.record r = { d with err := x, host := { d.host with pba := p, pba1 := q }, out := o } := by
  obtain ⟨p, q, o, e⟩ := d.enterRec_frame r
  unfold Die.record
  rw [e]
  dsimp only
  rw [if_neg h]
  (repeat' split) <;> exact ⟨_, p, q, o, rfl⟩

/-- Every record: a FATAL one also stops LIVE (R602). -/
theorem Die.record_frame (r : ErrRec) (d : Die) : ∃ x p q o l,
    d.record r = { d with err := x, host := { d.host with pba := p, pba1 := q }, out := o,
                          red := { d.red with live := l } } := by
  obtain ⟨p, q, o, e⟩ := d.enterRec_frame r
  unfold Die.record
  rw [e]
  dsimp only
  (repeat' split) <;> first | exact ⟨_, p, q, o, d.red.live, rfl⟩ | exact ⟨_, p, q, o, false, rfl⟩

theorem Die.log_frame (s : Sev) (u : W16) (c : Nat) (d : Die) : ∃ x p q o l,
    d.log s u c = { d with err := x, host := { d.host with pba := p, pba1 := q }, out := o,
                           red := { d.red with live := l } } := d.record_frame _

theorem Die.log_quiet (s : Sev) (u : W16) (c : Nat) (d : Die) (h : s ≠ .fatal) : ∃ x p q o,
    d.log s u c = { d with err := x, host := { d.host with pba := p, pba1 := q }, out := o } := d.record_quiet _ h

/-- A record that is not FATAL leaves all of a die but its log. -/
theorem Die.log_core (s : Sev) (u : W16) (c : Nat) (d : Die) (h : s ≠ .fatal) :
    (d.log s u c).core = { d.core with err := (d.log s u c).err } := by
  obtain ⟨_, _, _, _, e⟩ := d.log_quiet s u c h; rw [e]; rfl
@[simp] theorem Die.log_core_info (u : W16) (c : Nat) (d : Die) :
    (d.log .info u c).core = { d.core with err := (d.log .info u c).err } := Die.log_core _ _ _ _ (by decide)
@[simp] theorem Die.log_core_warn (u : W16) (c : Nat) (d : Die) :
    (d.log .warn u c).core = { d.core with err := (d.log .warn u c).err } := Die.log_core _ _ _ _ (by decide)
@[simp] theorem Die.log_core_degrade (u : W16) (c : Nat) (d : Die) :
    (d.log .degrade u c).core = { d.core with err := (d.log .degrade u c).err } := Die.log_core _ _ _ _ (by decide)
@[simp] theorem Die.log_core_stop (u : W16) (c : Nat) (d : Die) :
    (d.log .stop u c).core = { d.core with err := (d.log .stop u c).err } := Die.log_core _ _ _ _ (by decide)

@[simp] theorem Die.log_id (s : Sev) (u : W16) (c : Nat) (d : Die) : (d.log s u c).id = d.id := by
  obtain ⟨_, _, _, _, _, e⟩ := d.log_frame s u c; rw [e]
@[simp] theorem Die.msix_id (v : Nat) (d : Die) : (d.msix v).id = d.id := by
  obtain ⟨_, _, _, e⟩ := d.msix_frame v; rw [e]
@[simp] theorem Die.raise_id (v : Nat) (w : Bool) (d : Die) : (d.raise v w).id = d.id := by
  unfold Die.raise; split <;> simp
@[simp] theorem Die.log_time (s : Sev) (u : W16) (c : Nat) (d : Die) : (d.log s u c).time = d.time := by
  obtain ⟨_, _, _, _, _, e⟩ := d.log_frame s u c; rw [e]
@[simp] theorem Die.msix_time (v : Nat) (d : Die) : (d.msix v).time = d.time := by
  obtain ⟨_, _, _, e⟩ := d.msix_frame v; rw [e]
@[simp] theorem Die.raise_time (v : Nat) (w : Bool) (d : Die) : (d.raise v w).time = d.time := by
  unfold Die.raise; split <;> simp
@[simp] theorem Die.log_trig (s : Sev) (u : W16) (c : Nat) (d : Die) : (d.log s u c).trig = d.trig := by
  obtain ⟨_, _, _, _, _, e⟩ := d.log_frame s u c; rw [e]
@[simp] theorem Die.msix_trig (v : Nat) (d : Die) : (d.msix v).trig = d.trig := by
  obtain ⟨_, _, _, e⟩ := d.msix_frame v; rw [e]
@[simp] theorem Die.raise_trig (v : Nat) (w : Bool) (d : Die) : (d.raise v w).trig = d.trig := by
  unfold Die.raise; split <;> simp
@[simp] theorem Die.log_capt (s : Sev) (u : W16) (c : Nat) (d : Die) : (d.log s u c).capt = d.capt := by
  obtain ⟨_, _, _, _, _, e⟩ := d.log_frame s u c; rw [e]
@[simp] theorem Die.msix_capt (v : Nat) (d : Die) : (d.msix v).capt = d.capt := by
  obtain ⟨_, _, _, e⟩ := d.msix_frame v; rw [e]
@[simp] theorem Die.raise_capt (v : Nat) (w : Bool) (d : Die) : (d.raise v w).capt = d.capt := by
  unfold Die.raise; split <;> simp
@[simp] theorem Die.log_eth (s : Sev) (u : W16) (c : Nat) (d : Die) : (d.log s u c).eth = d.eth := by
  obtain ⟨_, _, _, _, _, e⟩ := d.log_frame s u c; rw [e]
@[simp] theorem Die.msix_eth (v : Nat) (d : Die) : (d.msix v).eth = d.eth := by
  obtain ⟨_, _, _, e⟩ := d.msix_frame v; rw [e]
@[simp] theorem Die.raise_eth (v : Nat) (w : Bool) (d : Die) : (d.raise v w).eth = d.eth := by
  unfold Die.raise; split <;> simp
@[simp] theorem Die.log_qrc (s : Sev) (u : W16) (c : Nat) (d : Die) : (d.log s u c).qrc = d.qrc := by
  obtain ⟨_, _, _, _, _, e⟩ := d.log_frame s u c; rw [e]
@[simp] theorem Die.msix_qrc (v : Nat) (d : Die) : (d.msix v).qrc = d.qrc := by
  obtain ⟨_, _, _, e⟩ := d.msix_frame v; rw [e]
@[simp] theorem Die.raise_qrc (v : Nat) (w : Bool) (d : Die) : (d.raise v w).qrc = d.qrc := by
  unfold Die.raise; split <;> simp
@[simp] theorem Die.log_eng (s : Sev) (u : W16) (c : Nat) (d : Die) : (d.log s u c).eng = d.eng := by
  obtain ⟨_, _, _, _, _, e⟩ := d.log_frame s u c; rw [e]
@[simp] theorem Die.msix_eng (v : Nat) (d : Die) : (d.msix v).eng = d.eng := by
  obtain ⟨_, _, _, e⟩ := d.msix_frame v; rw [e]
@[simp] theorem Die.raise_eng (v : Nat) (w : Bool) (d : Die) : (d.raise v w).eng = d.eng := by
  unfold Die.raise; split <;> simp
@[simp] theorem Die.log_cairnSel (s : Sev) (u : W16) (c : Nat) (d : Die) : (d.log s u c).cairnSel = d.cairnSel := by
  obtain ⟨_, _, _, _, _, e⟩ := d.log_frame s u c; rw [e]
@[simp] theorem Die.msix_cairnSel (v : Nat) (d : Die) : (d.msix v).cairnSel = d.cairnSel := by
  obtain ⟨_, _, _, e⟩ := d.msix_frame v; rw [e]
@[simp] theorem Die.raise_cairnSel (v : Nat) (w : Bool) (d : Die) : (d.raise v w).cairnSel = d.cairnSel := by
  unfold Die.raise; split <;> simp
@[simp] theorem Die.log_joints (s : Sev) (u : W16) (c : Nat) (d : Die) : (d.log s u c).joints = d.joints := by
  obtain ⟨_, _, _, _, _, e⟩ := d.log_frame s u c; rw [e]
@[simp] theorem Die.msix_joints (v : Nat) (d : Die) : (d.msix v).joints = d.joints := by
  obtain ⟨_, _, _, e⟩ := d.msix_frame v; rw [e]
@[simp] theorem Die.raise_joints (v : Nat) (w : Bool) (d : Die) : (d.raise v w).joints = d.joints := by
  unfold Die.raise; split <;> simp
@[simp] theorem Die.log_regions (s : Sev) (u : W16) (c : Nat) (d : Die) : (d.log s u c).regions = d.regions := by
  obtain ⟨_, _, _, _, _, e⟩ := d.log_frame s u c; rw [e]
@[simp] theorem Die.msix_regions (v : Nat) (d : Die) : (d.msix v).regions = d.regions := by
  obtain ⟨_, _, _, e⟩ := d.msix_frame v; rw [e]
@[simp] theorem Die.raise_regions (v : Nat) (w : Bool) (d : Die) : (d.raise v w).regions = d.regions := by
  unfold Die.raise; split <;> simp
@[simp] theorem Die.log_sep (s : Sev) (u : W16) (c : Nat) (d : Die) : (d.log s u c).sep = d.sep := by
  obtain ⟨_, _, _, _, _, e⟩ := d.log_frame s u c; rw [e]
@[simp] theorem Die.msix_sep (v : Nat) (d : Die) : (d.msix v).sep = d.sep := by
  obtain ⟨_, _, _, e⟩ := d.msix_frame v; rw [e]
@[simp] theorem Die.raise_sep (v : Nat) (w : Bool) (d : Die) : (d.raise v w).sep = d.sep := by
  unfold Die.raise; split <;> simp
@[simp] theorem Die.log_axes (s : Sev) (u : W16) (c : Nat) (d : Die) : (d.log s u c).axes = d.axes := by
  obtain ⟨_, _, _, _, _, e⟩ := d.log_frame s u c; rw [e]
@[simp] theorem Die.msix_axes (v : Nat) (d : Die) : (d.msix v).axes = d.axes := by
  obtain ⟨_, _, _, e⟩ := d.msix_frame v; rw [e]
@[simp] theorem Die.raise_axes (v : Nat) (w : Bool) (d : Die) : (d.raise v w).axes = d.axes := by
  unfold Die.raise; split <;> simp
@[simp] theorem Die.log_pwm (s : Sev) (u : W16) (c : Nat) (d : Die) : (d.log s u c).pwm = d.pwm := by
  obtain ⟨_, _, _, _, _, e⟩ := d.log_frame s u c; rw [e]
@[simp] theorem Die.msix_pwm (v : Nat) (d : Die) : (d.msix v).pwm = d.pwm := by
  obtain ⟨_, _, _, e⟩ := d.msix_frame v; rw [e]
@[simp] theorem Die.raise_pwm (v : Nat) (w : Bool) (d : Die) : (d.raise v w).pwm = d.pwm := by
  unfold Die.raise; split <;> simp
@[simp] theorem Die.log_encs (s : Sev) (u : W16) (c : Nat) (d : Die) : (d.log s u c).encs = d.encs := by
  obtain ⟨_, _, _, _, _, e⟩ := d.log_frame s u c; rw [e]
@[simp] theorem Die.msix_encs (v : Nat) (d : Die) : (d.msix v).encs = d.encs := by
  obtain ⟨_, _, _, e⟩ := d.msix_frame v; rw [e]
@[simp] theorem Die.raise_encs (v : Nat) (w : Bool) (d : Die) : (d.raise v w).encs = d.encs := by
  unfold Die.raise; split <;> simp
@[simp] theorem Die.log_lanes (s : Sev) (u : W16) (c : Nat) (d : Die) : (d.log s u c).lanes = d.lanes := by
  obtain ⟨_, _, _, _, _, e⟩ := d.log_frame s u c; rw [e]
@[simp] theorem Die.msix_lanes (v : Nat) (d : Die) : (d.msix v).lanes = d.lanes := by
  obtain ⟨_, _, _, e⟩ := d.msix_frame v; rw [e]
@[simp] theorem Die.raise_lanes (v : Nat) (w : Bool) (d : Die) : (d.raise v w).lanes = d.lanes := by
  unfold Die.raise; split <;> simp
@[simp] theorem Die.log_cans (s : Sev) (u : W16) (c : Nat) (d : Die) : (d.log s u c).cans = d.cans := by
  obtain ⟨_, _, _, _, _, e⟩ := d.log_frame s u c; rw [e]
@[simp] theorem Die.msix_cans (v : Nat) (d : Die) : (d.msix v).cans = d.cans := by
  obtain ⟨_, _, _, e⟩ := d.msix_frame v; rw [e]
@[simp] theorem Die.raise_cans (v : Nat) (w : Bool) (d : Die) : (d.raise v w).cans = d.cans := by
  unfold Die.raise; split <;> simp
@[simp] theorem Die.log_img (s : Sev) (u : W16) (c : Nat) (d : Die) : (d.log s u c).img = d.img := by
  obtain ⟨_, _, _, _, _, e⟩ := d.log_frame s u c; rw [e]
@[simp] theorem Die.msix_img (v : Nat) (d : Die) : (d.msix v).img = d.img := by
  obtain ⟨_, _, _, e⟩ := d.msix_frame v; rw [e]
@[simp] theorem Die.raise_img (v : Nat) (w : Bool) (d : Die) : (d.raise v w).img = d.img := by
  unfold Die.raise; split <;> simp
@[simp] theorem Die.log_boot (s : Sev) (u : W16) (c : Nat) (d : Die) : (d.log s u c).boot = d.boot := by
  obtain ⟨_, _, _, _, _, e⟩ := d.log_frame s u c; rw [e]
@[simp] theorem Die.msix_boot (v : Nat) (d : Die) : (d.msix v).boot = d.boot := by
  obtain ⟨_, _, _, e⟩ := d.msix_frame v; rw [e]
@[simp] theorem Die.raise_boot (v : Nat) (w : Bool) (d : Die) : (d.raise v w).boot = d.boot := by
  unfold Die.raise; split <;> simp
@[simp] theorem Die.log_sec (s : Sev) (u : W16) (c : Nat) (d : Die) : (d.log s u c).sec = d.sec := by
  obtain ⟨_, _, _, _, _, e⟩ := d.log_frame s u c; rw [e]
@[simp] theorem Die.msix_sec (v : Nat) (d : Die) : (d.msix v).sec = d.sec := by
  obtain ⟨_, _, _, e⟩ := d.msix_frame v; rw [e]
@[simp] theorem Die.raise_sec (v : Nat) (w : Bool) (d : Die) : (d.raise v w).sec = d.sec := by
  unfold Die.raise; split <;> simp
@[simp] theorem Die.log_jtag (s : Sev) (u : W16) (c : Nat) (d : Die) : (d.log s u c).jtag = d.jtag := by
  obtain ⟨_, _, _, _, _, e⟩ := d.log_frame s u c; rw [e]
@[simp] theorem Die.msix_jtag (v : Nat) (d : Die) : (d.msix v).jtag = d.jtag := by
  obtain ⟨_, _, _, e⟩ := d.msix_frame v; rw [e]
@[simp] theorem Die.raise_jtag (v : Nat) (w : Bool) (d : Die) : (d.raise v w).jtag = d.jtag := by
  unfold Die.raise; split <;> simp
@[simp] theorem Die.log_rst (s : Sev) (u : W16) (c : Nat) (d : Die) : (d.log s u c).rst = d.rst := by
  obtain ⟨_, _, _, _, _, e⟩ := d.log_frame s u c; rw [e]
@[simp] theorem Die.msix_rst (v : Nat) (d : Die) : (d.msix v).rst = d.rst := by
  obtain ⟨_, _, _, e⟩ := d.msix_frame v; rw [e]
@[simp] theorem Die.raise_rst (v : Nat) (w : Bool) (d : Die) : (d.raise v w).rst = d.rst := by
  unfold Die.raise; split <;> simp
@[simp] theorem Die.log_pwr (s : Sev) (u : W16) (c : Nat) (d : Die) : (d.log s u c).pwr = d.pwr := by
  obtain ⟨_, _, _, _, _, e⟩ := d.log_frame s u c; rw [e]
@[simp] theorem Die.msix_pwr (v : Nat) (d : Die) : (d.msix v).pwr = d.pwr := by
  obtain ⟨_, _, _, e⟩ := d.msix_frame v; rw [e]
@[simp] theorem Die.raise_pwr (v : Nat) (w : Bool) (d : Die) : (d.raise v w).pwr = d.pwr := by
  unfold Die.raise; split <;> simp
@[simp] theorem Die.log_clk (s : Sev) (u : W16) (c : Nat) (d : Die) : (d.log s u c).clk = d.clk := by
  obtain ⟨_, _, _, _, _, e⟩ := d.log_frame s u c; rw [e]
@[simp] theorem Die.msix_clk (v : Nat) (d : Die) : (d.msix v).clk = d.clk := by
  obtain ⟨_, _, _, e⟩ := d.msix_frame v; rw [e]
@[simp] theorem Die.raise_clk (v : Nat) (w : Bool) (d : Die) : (d.raise v w).clk = d.clk := by
  unfold Die.raise; split <;> simp
@[simp] theorem Die.log_qspi (s : Sev) (u : W16) (c : Nat) (d : Die) : (d.log s u c).qspi = d.qspi := by
  obtain ⟨_, _, _, _, _, e⟩ := d.log_frame s u c; rw [e]
@[simp] theorem Die.msix_qspi (v : Nat) (d : Die) : (d.msix v).qspi = d.qspi := by
  obtain ⟨_, _, _, e⟩ := d.msix_frame v; rw [e]
@[simp] theorem Die.raise_qspi (v : Nat) (w : Bool) (d : Die) : (d.raise v w).qspi = d.qspi := by
  unfold Die.raise; split <;> simp
@[simp] theorem Die.log_dma (s : Sev) (u : W16) (c : Nat) (d : Die) : (d.log s u c).dma = d.dma := by
  obtain ⟨_, _, _, _, _, e⟩ := d.log_frame s u c; rw [e]
@[simp] theorem Die.msix_dma (v : Nat) (d : Die) : (d.msix v).dma = d.dma := by
  obtain ⟨_, _, _, e⟩ := d.msix_frame v; rw [e]
@[simp] theorem Die.raise_dma (v : Nat) (w : Bool) (d : Die) : (d.raise v w).dma = d.dma := by
  unfold Die.raise; split <;> simp
@[simp] theorem Die.log_mon (s : Sev) (u : W16) (c : Nat) (d : Die) : (d.log s u c).mon = d.mon := by
  obtain ⟨_, _, _, _, _, e⟩ := d.log_frame s u c; rw [e]
@[simp] theorem Die.msix_mon (v : Nat) (d : Die) : (d.msix v).mon = d.mon := by
  obtain ⟨_, _, _, e⟩ := d.msix_frame v; rw [e]
@[simp] theorem Die.raise_mon (v : Nat) (w : Bool) (d : Die) : (d.raise v w).mon = d.mon := by
  unfold Die.raise; split <;> simp
@[simp] theorem Die.log_safe (s : Sev) (u : W16) (c : Nat) (d : Die) : (d.log s u c).safe = d.safe := by
  obtain ⟨_, _, _, _, _, e⟩ := d.log_frame s u c; rw [e]
@[simp] theorem Die.msix_safe (v : Nat) (d : Die) : (d.msix v).safe = d.safe := by
  obtain ⟨_, _, _, e⟩ := d.msix_frame v; rw [e]
@[simp] theorem Die.raise_safe (v : Nat) (w : Bool) (d : Die) : (d.raise v w).safe = d.safe := by
  unfold Die.raise; split <;> simp
@[simp] theorem Die.log_sram (s : Sev) (u : W16) (c : Nat) (d : Die) : (d.log s u c).sram = d.sram := by
  obtain ⟨_, _, _, _, _, e⟩ := d.log_frame s u c; rw [e]
@[simp] theorem Die.msix_sram (v : Nat) (d : Die) : (d.msix v).sram = d.sram := by
  obtain ⟨_, _, _, e⟩ := d.msix_frame v; rw [e]
@[simp] theorem Die.raise_sram (v : Nat) (w : Bool) (d : Die) : (d.raise v w).sram = d.sram := by
  unfold Die.raise; split <;> simp
@[simp] theorem Die.log_eccBad (s : Sev) (u : W16) (c : Nat) (d : Die) : (d.log s u c).eccBad = d.eccBad := by
  obtain ⟨_, _, _, _, _, e⟩ := d.log_frame s u c; rw [e]
@[simp] theorem Die.msix_eccBad (v : Nat) (d : Die) : (d.msix v).eccBad = d.eccBad := by
  obtain ⟨_, _, _, e⟩ := d.msix_frame v; rw [e]
@[simp] theorem Die.raise_eccBad (v : Nat) (w : Bool) (d : Die) : (d.raise v w).eccBad = d.eccBad := by
  unfold Die.raise; split <;> simp
@[simp] theorem Die.log_eccSoft (s : Sev) (u : W16) (c : Nat) (d : Die) : (d.log s u c).eccSoft = d.eccSoft := by
  obtain ⟨_, _, _, _, _, e⟩ := d.log_frame s u c; rw [e]
@[simp] theorem Die.msix_eccSoft (v : Nat) (d : Die) : (d.msix v).eccSoft = d.eccSoft := by
  obtain ⟨_, _, _, e⟩ := d.msix_frame v; rw [e]
@[simp] theorem Die.raise_eccSoft (v : Nat) (w : Bool) (d : Die) : (d.raise v w).eccSoft = d.eccSoft := by
  unfold Die.raise; split <;> simp
@[simp] theorem Die.log_fresh (s : Sev) (u : W16) (c : Nat) (d : Die) : (d.log s u c).fresh = d.fresh := by
  obtain ⟨_, _, _, _, _, e⟩ := d.log_frame s u c; rw [e]
@[simp] theorem Die.msix_fresh (v : Nat) (d : Die) : (d.msix v).fresh = d.fresh := by
  obtain ⟨_, _, _, e⟩ := d.msix_frame v; rw [e]
@[simp] theorem Die.raise_fresh (v : Nat) (w : Bool) (d : Die) : (d.raise v w).fresh = d.fresh := by
  unfold Die.raise; split <;> simp
@[simp] theorem Die.msix_red (v : Nat) (d : Die) : (d.msix v).red = d.red := by
  obtain ⟨_, _, _, e⟩ := d.msix_frame v; rw [e]
@[simp] theorem Die.msix_err (v : Nat) (d : Die) : (d.msix v).err = d.err := by
  obtain ⟨_, _, _, e⟩ := d.msix_frame v; rw [e]
@[simp] theorem Die.raise_red (v : Nat) (w : Bool) (d : Die) : (d.raise v w).red = d.red := by
  unfold Die.raise; split <;> simp
@[simp] theorem Die.raise_err (v : Nat) (w : Bool) (d : Die) : (d.raise v w).err = d.err := by
  unfold Die.raise; split <;> simp
theorem Die.log_red (s : Sev) (u : W16) (c : Nat) (d : Die) (h : s ≠ .fatal) : (d.log s u c).red = d.red := by
  obtain ⟨_, _, _, _, e⟩ := d.log_quiet s u c h; rw [e]
@[simp] theorem Die.log_units (s : Sev) (u : W16) (c : Nat) (d : Die) : (d.log s u c).red.units = d.red.units := by
  obtain ⟨_, _, _, _, _, e⟩ := d.log_frame s u c; rw [e]
@[simp] theorem Die.log_access (s : Sev) (u : W16) (c : Nat) (d : Die) :
    (d.log s u c).host.access = d.host.access := by
  obtain ⟨_, _, _, _, _, e⟩ := d.log_frame s u c; rw [e]

end Sys2Proof.Machine
end

