-- ==== Sys2Proof/Laws/Engine.lean ====
section
/-! SUPPORT. One instruction of a loop engine, said once: what an instruction on registers leaves, and
what the control step after it can do. -/

namespace Sys2Proof.Machine

@[simp] theorem Die.updEng_eng (e : Fin 80) (f : Engine → Engine) (d : Die) :
    (d.updEng e f).engine e = f (d.engine e) := vget_vupd_same ..
theorem Die.updEng_other (e k : Fin 80) (f : Engine → Engine) (d : Die) (h : k ≠ e) :
    (d.updEng e f).engine k = d.engine k := vget_vupd_other _ _ _ _ h
theorem Die.updEng_congr (e : Fin 80) (f f' : Engine → Engine) (d : Die) (h : f (d.engine e) = f' (d.engine e)) :
    d.updEng e f = d.updEng e f' := by
  unfold Die.updEng vupd
  rw [show f (vget d.eng e) = f' (vget d.eng e) from h]
@[simp] theorem Die.updEng_except (e : Fin 80) (f : Engine → Engine) (d : Die) :
    (d.updEng e f).exceptEng = d.exceptEng := rfl
@[simp] theorem Die.updEng_err (e : Fin 80) (f : Engine → Engine) (d : Die) : (d.updEng e f).err = d.err := rfl
@[simp] theorem Die.updEng_sram (e : Fin 80) (f : Engine → Engine) (d : Die) : (d.updEng e f).sram = d.sram := rfl
@[simp] theorem Die.updEng_soft (e : Fin 80) (f : Engine → Engine) (d : Die) :
    (d.updEng e f).eccSoft = d.eccSoft := rfl

/-- An INFO record changes the error log and what the endpoint sends, and nothing else (R602, R603). -/
theorem Die.logInfo_frame (u : W16) (c : Nat) (d : Die) : ∃ r p q o,
    d.log .info u c = { d with err := r, host := { d.host with pba := p, pba1 := q }, out := o } := by
  obtain ⟨p, q, o, h⟩ := d.enterRec_frame { sev := .info, uid := u, code := BitVec.ofNat 8 c, cyc := d.time.cyc }
  exact ⟨_, p, q, o, h⟩

theorem Die.logInfo_engine (u : W16) (c : Nat) (d : Die) (k : Fin 80) : (d.log .info u c).engine k = d.engine k := by
  obtain ⟨_, _, _, _, h⟩ := d.logInfo_frame u c; rw [h]; rfl

/-- Everything a step of engine `e` can do besides its registers and its control: the relation is
transitive, so that it is read off operation by operation. -/
structure Die.engSame (e : Fin 80) (d d' : Die) : Prop where
  except : d'.exceptEng = d.exceptEng
  other : ∀ k, k ≠ e → d'.engine k = d.engine k
  rest : (d'.engine e).rest = (d.engine e).rest
  err : d.eccSoft = [] → d'.err = d.err
  soft : d'.eccSoft = d.eccSoft
  bad : d'.eccBad = d.eccBad

theorem Die.engSame.refl (e : Fin 80) (d : Die) : Die.engSame e d d := ⟨rfl, fun _ _ => rfl, rfl, fun _ => rfl, rfl, rfl⟩

theorem Die.engSame.trans {e : Fin 80} {d d' d'' : Die} (h : Die.engSame e d d') (h' : Die.engSame e d' d'') :
    Die.engSame e d d'' :=
  ⟨h'.except.trans h.except, fun k hk => (h'.other k hk).trans (h.other k hk), h'.rest.trans h.rest,
   fun hs => (h'.err (h.soft.trans hs)).trans (h.err hs), h'.soft.trans h.soft, h'.bad.trans h.bad⟩

theorem Die.engSame.upd (e : Fin 80) (f : Engine → Engine) (d : Die) (h : ∀ g, (f g).rest = g.rest) :
    Die.engSame e d (d.updEng e f) :=
  ⟨rfl, fun k hk => Die.updEng_other e k f d hk, by rw [Die.updEng_eng, h], fun _ => rfl, rfl, rfl⟩

theorem Die.engSame.log (e : Fin 80) (u : W16) (c : Nat) (d : Die) (h : d.eccSoft ≠ []) :
    Die.engSame e d (d.log .info u c) := by
  obtain ⟨r, p, q, o, eq⟩ := d.logInfo_frame u c
  rw [eq]
  exact ⟨rfl, fun _ _ => rfl, rfl, fun hs => absurd hs h, rfl, rfl⟩

/-- What a correctable error can leave: nothing, or cycles and a count, with a record at times (R321, R326). -/
theorem Die.eccTouch_cases (e : Fin 80) (a : Nat) (d : Die) :
    d.eccTouch e a = d ∨ (d.eccSoft ≠ [] ∧ ∃ h c k u x,
      d.eccTouch e a = d.updEng e (fun g => { g with hz := h, cnt := c, eccRec := k }) ∨
      d.eccTouch e a = (d.updEng e (fun g => { g with hz := h, cnt := c, eccRec := k })).log .info u x) := by
  have key : ∀ f f' : Engine → Engine, (d.updEng e f).updEng e f' = d.updEng e (f' ∘ f) := by
    intro f f'
    unfold Die.updEng
    simp [vupd, vget, vset]
  unfold Die.eccTouch
  by_cases hin : inEccWord d.eccSoft a = true
  · right
    rw [if_pos hin]
    refine ⟨fun hs => by rw [hs] at hin; simp [inEccWord] at hin,
      { (d.engine e).hz with now := (d.engine e).hz.now + 2 }, vupd (d.engine e).cnt 3 satInc, ?_⟩
    dsimp only
    unfold Die.addCycles
    rw [key, key]
    (repeat' split) <;> first
      | exact ⟨(d.engine e).eccRec, 0, 0, .inl rfl⟩
      | exact ⟨some d.time.cyc, _, _, .inr rfl⟩
  · left
    rw [if_neg hin]

/-- A correctable error costs cycles, counts and may record; registers, control and memory stay (R321). -/
theorem Die.eccTouch_same (e : Fin 80) (a : Nat) (d : Die) : Die.engSame e d (d.eccTouch e a) := by
  rcases d.eccTouch_cases e a with h | ⟨hs, _, _, _, _, _, h | h⟩
  · rw [h]; exact .refl e d
  · rw [h]; exact .upd e _ d (fun _ => rfl)
  · rw [h]
    exact Die.engSame.trans (.upd e _ d (by exact fun _ => rfl)) (.log e _ _ _ hs)

theorem Die.eccTouch_engine (e : Fin 80) (a : Nat) (d : Die) : ∃ h c k,
    (d.eccTouch e a).engine e = { d.engine e with hz := h, cnt := c, eccRec := k } := by
  rcases d.eccTouch_cases e a with h | ⟨_, _, _, _, _, _, h | h⟩
  · exact ⟨(d.engine e).hz, (d.engine e).cnt, (d.engine e).eccRec, by rw [h]⟩
  · exact ⟨_, _, _, by rw [h, Die.updEng_eng]⟩
  · exact ⟨_, _, _, by rw [h, Die.logInfo_engine, Die.updEng_eng]⟩

theorem Die.eccTouch_sram (e : Fin 80) (a : Nat) (d : Die) : (d.eccTouch e a).sram = d.sram := by
  rcases d.eccTouch_cases e a with h | ⟨_, _, _, _, u, x, h | h⟩
  · rw [h]
  · rw [h]; rfl
  · obtain ⟨_, _, _, _, eq⟩ := Die.logInfo_frame u x (d.updEng e _)
    rw [h, eq]; rfl

/-- The die in which an instruction has its effect: hazards and the cost of the fetch are charged. -/
def Die.fetched (e : Fin 80) (op : EngOp) (d : Die) : Die :=
  (d.updEng e fun g => { g with hz := g.hz.issue op }).eccTouch e (progBase e + 4 * (d.engine e).pc.toNat)

theorem Die.fetched_same (e : Fin 80) (op : EngOp) (d : Die) : Die.engSame e d (d.fetched e op) :=
  Die.engSame.trans (.upd e _ d (by exact fun _ => rfl)) (Die.eccTouch_same ..)

theorem Die.fetched_engine (e : Fin 80) (op : EngOp) (d : Die) : ∃ h c k,
    (d.fetched e op).engine e = { d.engine e with hz := h, cnt := c, eccRec := k } := by
  obtain ⟨h, c, k, eq⟩ := Die.eccTouch_engine e (progBase e + 4 * (d.engine e).pc.toNat)
    (d.updEng e fun g => { g with hz := g.hz.issue op })
  exact ⟨h, c, k, by rw [Die.fetched, eq, Die.updEng_eng]⟩

theorem Die.fetched_sram (e : Fin 80) (op : EngOp) (d : Die) : (d.fetched e op).sram = d.sram := by
  rw [Die.fetched, Die.eccTouch_sram]; rfl

@[simp] theorem Die.fetched_regs (e : Fin 80) (op : EngOp) (d : Die) :
    ((d.fetched e op).engine e).regs = (d.engine e).regs := by
  obtain ⟨_, _, _, h⟩ := d.fetched_engine e op; rw [h]

/-- An instruction that issues runs in the fetched die, and control moves on; END ends the run. -/
theorem Die.runEng_issue (e : Fin 80) (op : EngOp) (d : Die) (h : d.issues e op = true) :
    d.runEng e op = match (d.fetched e op).engOp e op with
      | .error c => d.engFault e c
      | .ok r => match op with
        | .endRun _ => ((r.1.finishRun e).resumeProducers).drainStep e
        | _ => Die.engNext e r := by
  simp only [Die.issues, Bool.and_eq_true, decide_eq_true_eq, Bool.not_eq_true'] at h
  obtain ⟨⟨⟨h1, h2⟩, h3⟩, h4⟩ := h
  unfold Die.runEng
  rw [if_pos (by simp [h1, h2])]
  unfold Die.engIssue Die.fetched
  simp only [h3, h4, Bool.not_true, Bool.false_eq_true, if_false]
  cases hop : Die.engOp e op (Die.eccTouch e (progBase ↑e + 4 * (d.engine e).pc.toNat)
        (d.updEng e fun g => { g with hz := g.hz.issue op })) with
  | error c => rfl
  | ok r => cases op <;> rfl

theorem Engine.loopEnd_rest (g : Engine) (l : Fin 2) (r : LoopRec) : (g.loopEnd l r).1.rest = g.rest := by
  unfold Engine.loopEnd Engine.setLoop
  dsimp only
  split
  · split <;> rfl
  · rfl

theorem Engine.advance_rest (g : Engine) : g.advance.rest = g.rest := by
  unfold Engine.advance
  dsimp only
  (repeat' split) <;> first | rfl | exact Engine.loopEnd_rest ..

theorem Engine.jump_rest (t : BitVec 12) (g : Engine) : (g.jump t).rest = g.rest := rfl

theorem Engine.loopEnd_regs (g : Engine) (l : Fin 2) (r : LoopRec) :
    (g.loopEnd l r).1.regs = { g.regs with lc := (g.loopEnd l r).1.regs.lc } := by
  unfold Engine.loopEnd Engine.setLoop
  dsimp only
  split
  · split <;> rfl
  · rfl

/-- The step to the next index changes no register but LC. -/
theorem Engine.advance_regs (g : Engine) : g.advance.regs = { g.regs with lc := g.advance.regs.lc } := by
  unfold Engine.advance
  dsimp only
  (repeat' split) <;> first | rfl | exact Engine.loopEnd_regs ..

theorem Engine.advance_noLoop (g : Engine) (h : g.noLoop = true) : g.advance = { g with pc := g.pc + 1 } := by
  simp only [Engine.noLoop, Bool.and_eq_true, Option.isNone_iff_eq_none] at h
  obtain ⟨h0, h1⟩ := h
  cases g
  subst h0 h1
  rfl

/-- Control after an instruction that neither jumps nor waits. -/
theorem Die.engNext_advance (e : Fin 80) (d : Die) (h : (d.engine e).wait = .none) :
    Die.engNext e (d, none) = d.updEng e Engine.advance := by
  exact Die.updEng_congr e _ _ d (by rw [h])

/-- The instruction issues, has its effect and neither jumps nor waits. -/
theorem Die.runEng_next (e : Fin 80) (op : EngOp) (d d' : Die) (h : d.issues e op = true)
    (hop : (d.fetched e op).engOp e op = .ok (d', none)) (hw : (d'.engine e).wait = .none)
    (hend : ∀ c, op ≠ .endRun c) : d.runEng e op = d'.updEng e Engine.advance := by
  rw [Die.runEng_issue e op d h, hop]
  cases op
  case endRun c => exact absurd rfl (hend c)
  all_goals exact Die.engNext_advance e _ hw

/-- The instruction issues, has its effect and jumps. -/
theorem Die.runEng_jump (e : Fin 80) (op : EngOp) (d d' : Die) (t : BitVec 12) (h : d.issues e op = true)
    (hop : (d.fetched e op).engOp e op = .ok (d', some t)) (hw : (d'.engine e).wait = .none)
    (hend : ∀ c, op ≠ .endRun c) : d.runEng e op = d'.updEng e (Engine.jump t) := by
  rw [Die.runEng_issue e op d h, hop]
  have : Die.engNext e (d', some t) = d'.updEng e (Engine.jump t) := by
    unfold Die.engNext
    exact Die.updEng_congr e _ _ d' (by rw [hw])
  cases op
  case endRun c => exact absurd rfl (hend c)
  all_goals exact this

theorem Die.issues_wait {e : Fin 80} {op : EngOp} {d : Die} (h : d.issues e op = true) :
    (d.engine e).wait = .none := by
  simp only [Die.issues, Bool.and_eq_true, decide_eq_true_eq] at h
  exact h.1.1.2

theorem Die.fetched_wait {e : Fin 80} {op : EngOp} {d : Die} (h : d.issues e op = true) :
    ((d.fetched e op).engine e).wait = .none := by
  obtain ⟨_, _, _, hf⟩ := d.fetched_engine e op
  rw [hf]; exact Die.issues_wait h

theorem Engine.loopEnd_still (g : Engine) (l : Fin 2) (r : LoopRec) (h : g.wait = .none) :
    Engine.still g (g.loopEnd l r).1 := by
  unfold Engine.loopEnd Engine.setLoop Engine.still
  dsimp only
  split
  · split <;> exact ⟨rfl, rfl, rfl, h⟩
  · exact ⟨rfl, rfl, rfl, h⟩

theorem Engine.advance_still (g : Engine) (h : g.wait = .none) : Engine.still g g.advance := by
  unfold Engine.advance
  dsimp only
  (repeat' split) <;> first | exact ⟨rfl, rfl, rfl, h⟩ | exact Engine.loopEnd_still _ _ _ h

/-- Registers `g` and the step to the next index. -/
theorem Die.advance_takes (e : Fin 80) (d d' : Die) (g : EngRegs) (hg : (d'.engine e).regs = g)
    (hs : Engine.still (d.engine e) (d'.engine e)) (hpc : (d'.engine e).pc = (d.engine e).pc)
    (h0 : (d'.engine e).loop0 = (d.engine e).loop0) (h1 : (d'.engine e).loop1 = (d.engine e).loop1) :
    Die.takesRegs e g d (d'.updEng e Engine.advance) := by
  have nl : (d.engine e).noLoop = true → (d'.engine e).noLoop = true := by
    unfold Engine.noLoop; rw [h0, h1]; exact fun hn => hn
  refine ⟨?_, fun hn => ?_, ?_, fun hn => ?_⟩
  · rw [Die.updEng_eng]
    obtain ⟨a, b, c, w⟩ := hs
    obtain ⟨a', b', c', w'⟩ := Engine.advance_still _ w
    exact ⟨a'.trans a, b'.trans b, c'.trans c, w'⟩
  · rw [Die.updEng_eng, Engine.advance_noLoop _ (nl hn)]
    exact ⟨congrArg (· + 1) hpc, nl hn⟩
  · rw [Die.updEng_eng, ← hg]
    exact Engine.advance_regs _
  · rw [Die.updEng_eng, Engine.advance_noLoop _ (nl hn)]
    exact hg

/-- A field of 32 or 72 bits holds what R330 fits into it. -/
theorem EngRegs.fitTo_eq (w : Nat) (hw : w = 32 ∨ w = 72) (r : Int) (g : EngRegs) :
    g.fitTo w r = (g.fitted w r, { g with flg := g.vs w r }) := by
  have key : ∀ c : Int, 0 < c → (decide ((if r < -c then -c else if r > c - 1 then c - 1 else r) ≠ r)) =
      !(decide (-c ≤ r) && decide (r < c)) := by
    intro c hc
    by_cases h1 : r < -c <;> by_cases h2 : r > c - 1 <;>
      simp only [h1, h2, if_true, if_false] <;>
      rw [Bool.eq_iff_iff] <;> simp <;> omega
  have hov : overflowS w r = !inField w r := by
    unfold overflowS clampS inField
    rcases hw with rfl | rfl
    · exact key 2147483648 (by decide)
    · exact key 2361183241434822606848 (by decide)
  unfold EngRegs.fitTo
  dsimp only
  rw [hov]
  refine Prod.ext ?_ rfl
  show (if g.sat = true then BitVec.ofInt w (clampS w r) else BitVec.ofInt w r) = g.fitted w r
  unfold EngRegs.fitted
  cases hf : inField w r
  · cases hs : g.sat
    · rfl
    · simp only [if_true, Bool.false_eq_true, if_false]
      have hlt : (if r < 0 then BitVec.ofInt w (-(2 ^ (w - 1))) else BitVec.ofInt w (2 ^ (w - 1) - 1)) =
          if r < 0 then BitVec.intMin w else BitVec.intMax w := by
        rcases hw with rfl | rfl <;> rfl
      rw [← hlt]
      unfold inField at hf
      unfold clampS
      rcases hw with rfl | rfl <;> (simp at hf ⊢) <;> (repeat' split) <;> first | rfl | omega
  · have : clampS w r = r := by
      have := hov
      rw [hf] at this
      unfold overflowS at this
      simpa using this
    rw [this]; simp

/-- The command of an instruction: what is shown of the die is shown of the state it answers. -/
theorem engStep_of {i : Instr} {id : DieId} {e : Fin 80} {op : EngOp} {hyp : Die → Prop} {post : Die → Die → Prop}
    (hx : ∀ s, exec i s = onDie id (Die.runEng e op) s)
    (same : ∀ d : Die, d.issues e op = true → hyp d → Die.engSame e d (d.runEng e op))
    (hp : ∀ d : Die, d.issues e op = true → hyp d → post d (d.runEng e op))
    (keep : ∀ (d u : Die) p q o st r n y f z g, post d u → post d
      { u with host := { u.host with pba := p, pba1 := q }, out := o,
               img := { u.img with state := st, result := r, done := n, pushReady := y, buf := f, pass2 := z },
               red := { u.red with gateOpen := g } }) : EngStep i id e op hyp post := by
  intro s hs hh
  have same := same _ hs hh
  have hp := hp _ hs hh
  have hd := State.settle_die s (s.upd id (Die.runEng e op)) id
  obtain ⟨core, frame⟩ := settle_upd s id (Die.runEng e op)
  refine ⟨_, hx s, frame, ⟨?_, ?_, ?_, ?_⟩, ?_⟩
  · have := congrArg (fun d : Die => { d with eng := Vector.replicate 80 {}, err := {}, sram := ⟨[]⟩ }) core
    exact this.trans same.except
  all_goals
    obtain ⟨_, _, _, _, _, _, _, _, _, _, eq⟩ := hd
    rw [State.upd_die] at eq
    rw [eq]
    first | exact same.other | exact same.rest | exact same.err | exact keep _ _ _ _ _ _ _ _ _ _ _ _ hp

/-- The command of an instruction on registers alone: registers `f` of what they were, and its frame. -/
theorem engResult_of {i : Instr} {id : DieId} {e : Fin 80} {op : EngOp} (f : EngRegs → EngRegs)
    (hx : ∀ s, exec i s = onDie id (Die.runEng e op) s) (hend : ∀ c, op ≠ .endRun c)
    (hop : ∀ d : Die, d.engOp e op = .ok (d.updRegs e f, none)) (res : EngRegs → EngRegs) (hr : ∀ g, f g = res g) :
    EngResult i id e op res := by
  have hf : f = res := funext hr
  subst hf
  have run : ∀ d : Die, d.issues e op = true →
      d.runEng e op = ((d.fetched e op).updEng e fun g => { g with regs := f g.regs }).updEng e Engine.advance :=
    fun d h => Die.runEng_next e op d _ h (hop _)
      (by rw [Die.updEng_eng]; exact Die.fetched_wait h) hend
  unfold EngResult EngResultOf
  refine engStep_of hx (fun d h _ => ?_) (fun d h _ => ?_) ?_
  · rw [run d h]
    exact (d.fetched_same e op).trans (Die.engSame.trans
      (.upd e (fun g => { g with regs := f g.regs }) _ (fun _ => rfl)) (.upd e _ _ Engine.advance_rest))
  · rw [run d h]
    obtain ⟨_, _, _, hf⟩ := d.fetched_engine e op
    refine ⟨d.fetched_sram e op, Die.advance_takes e d _ _ ?_ ?_ ?_ ?_ ?_⟩ <;> rw [Die.updEng_eng, hf]
    exact ⟨rfl, rfl, rfl, Die.issues_wait h⟩
  · intro _ _ _ _ _ _ _ _ _ _ _ _ h
    exact h

end Sys2Proof.Machine
end

