-- ==== Sys2Proof/Laws/Frames.lean ====
section
/-! SUPPORT. What the update of one unit leaves: every other field of the die, field by field, and the other
units of its kind. -/

namespace Sys2Proof.Machine

@[simp] theorem Die.updEng_frame (d : Die) (e : Fin 80) (f : Engine → Engine) :
    (d.updEng e f).id = d.id ∧ (d.updEng e f).time = d.time ∧ (d.updEng e f).trig = d.trig ∧
    (d.updEng e f).capt = d.capt ∧ (d.updEng e f).eth = d.eth ∧ (d.updEng e f).red = d.red ∧
    (d.updEng e f).qrc = d.qrc ∧ (d.updEng e f).cairnSel = d.cairnSel ∧ (d.updEng e f).cairnState = d.cairnState ∧
    (d.updEng e f).joints = d.joints ∧ (d.updEng e f).regions = d.regions ∧ (d.updEng e f).sep = d.sep ∧
    (d.updEng e f).axes = d.axes ∧ (d.updEng e f).pwm = d.pwm ∧ (d.updEng e f).encs = d.encs ∧
    (d.updEng e f).encPins = d.encPins ∧ (d.updEng e f).captPins = d.captPins ∧ (d.updEng e f).lanes = d.lanes ∧
    (d.updEng e f).cans = d.cans ∧ (d.updEng e f).img = d.img ∧ (d.updEng e f).boot = d.boot ∧
    (d.updEng e f).sec = d.sec ∧ (d.updEng e f).jtag = d.jtag ∧ (d.updEng e f).rst = d.rst ∧
    (d.updEng e f).pwr = d.pwr ∧ (d.updEng e f).clk = d.clk ∧ (d.updEng e f).host = d.host ∧
    (d.updEng e f).qspi = d.qspi ∧ (d.updEng e f).dma = d.dma ∧ (d.updEng e f).mon = d.mon ∧
    (d.updEng e f).err = d.err ∧ (d.updEng e f).safe = d.safe ∧ (d.updEng e f).sram = d.sram ∧
    (d.updEng e f).eccBad = d.eccBad ∧ (d.updEng e f).eccSoft = d.eccSoft ∧ (d.updEng e f).out = d.out ∧
    (d.updEng e f).real = d.real ∧ (d.updEng e f).fresh = d.fresh :=
  ⟨rfl, rfl, rfl, rfl, rfl, rfl, rfl, rfl, rfl, rfl, rfl, rfl, rfl, rfl, rfl, rfl, rfl, rfl, rfl, rfl, rfl, rfl, rfl, rfl, rfl, rfl, rfl, rfl, rfl, rfl, rfl, rfl, rfl, rfl, rfl, rfl, rfl, rfl⟩

@[simp] theorem Die.updJnt_frame (d : Die) (j : Nat) (f : Joint → Joint) :
    (d.updJnt j f).id = d.id ∧ (d.updJnt j f).time = d.time ∧ (d.updJnt j f).trig = d.trig ∧
    (d.updJnt j f).capt = d.capt ∧ (d.updJnt j f).eth = d.eth ∧ (d.updJnt j f).red = d.red ∧
    (d.updJnt j f).qrc = d.qrc ∧ (d.updJnt j f).eng = d.eng ∧ (d.updJnt j f).cairnSel = d.cairnSel ∧
    (d.updJnt j f).cairnState = d.cairnState ∧ (d.updJnt j f).regions = d.regions ∧ (d.updJnt j f).sep = d.sep ∧
    (d.updJnt j f).axes = d.axes ∧ (d.updJnt j f).pwm = d.pwm ∧ (d.updJnt j f).encs = d.encs ∧
    (d.updJnt j f).encPins = d.encPins ∧ (d.updJnt j f).captPins = d.captPins ∧ (d.updJnt j f).lanes = d.lanes ∧
    (d.updJnt j f).cans = d.cans ∧ (d.updJnt j f).img = d.img ∧ (d.updJnt j f).boot = d.boot ∧
    (d.updJnt j f).sec = d.sec ∧ (d.updJnt j f).jtag = d.jtag ∧ (d.updJnt j f).rst = d.rst ∧
    (d.updJnt j f).pwr = d.pwr ∧ (d.updJnt j f).clk = d.clk ∧ (d.updJnt j f).host = d.host ∧
    (d.updJnt j f).qspi = d.qspi ∧ (d.updJnt j f).dma = d.dma ∧ (d.updJnt j f).mon = d.mon ∧
    (d.updJnt j f).err = d.err ∧ (d.updJnt j f).safe = d.safe ∧ (d.updJnt j f).sram = d.sram ∧
    (d.updJnt j f).eccBad = d.eccBad ∧ (d.updJnt j f).eccSoft = d.eccSoft ∧ (d.updJnt j f).out = d.out ∧
    (d.updJnt j f).real = d.real ∧ (d.updJnt j f).fresh = d.fresh :=
  ⟨rfl, rfl, rfl, rfl, rfl, rfl, rfl, rfl, rfl, rfl, rfl, rfl, rfl, rfl, rfl, rfl, rfl, rfl, rfl, rfl, rfl, rfl, rfl, rfl, rfl, rfl, rfl, rfl, rfl, rfl, rfl, rfl, rfl, rfl, rfl, rfl, rfl, rfl⟩

@[simp] theorem Die.updAxis_frame (d : Die) (a : Nat) (f : Axis → Axis) :
    (d.updAxis a f).id = d.id ∧ (d.updAxis a f).time = d.time ∧ (d.updAxis a f).trig = d.trig ∧
    (d.updAxis a f).capt = d.capt ∧ (d.updAxis a f).eth = d.eth ∧ (d.updAxis a f).red = d.red ∧
    (d.updAxis a f).qrc = d.qrc ∧ (d.updAxis a f).eng = d.eng ∧ (d.updAxis a f).cairnSel = d.cairnSel ∧
    (d.updAxis a f).cairnState = d.cairnState ∧ (d.updAxis a f).joints = d.joints ∧
    (d.updAxis a f).regions = d.regions ∧ (d.updAxis a f).sep = d.sep ∧ (d.updAxis a f).pwm = d.pwm ∧
    (d.updAxis a f).encs = d.encs ∧ (d.updAxis a f).encPins = d.encPins ∧ (d.updAxis a f).captPins = d.captPins ∧
    (d.updAxis a f).lanes = d.lanes ∧ (d.updAxis a f).cans = d.cans ∧ (d.updAxis a f).img = d.img ∧
    (d.updAxis a f).boot = d.boot ∧ (d.updAxis a f).sec = d.sec ∧ (d.updAxis a f).jtag = d.jtag ∧
    (d.updAxis a f).rst = d.rst ∧ (d.updAxis a f).pwr = d.pwr ∧ (d.updAxis a f).clk = d.clk ∧
    (d.updAxis a f).host = d.host ∧ (d.updAxis a f).qspi = d.qspi ∧ (d.updAxis a f).dma = d.dma ∧
    (d.updAxis a f).mon = d.mon ∧ (d.updAxis a f).err = d.err ∧ (d.updAxis a f).safe = d.safe ∧
    (d.updAxis a f).sram = d.sram ∧ (d.updAxis a f).eccBad = d.eccBad ∧ (d.updAxis a f).eccSoft = d.eccSoft ∧
    (d.updAxis a f).out = d.out ∧ (d.updAxis a f).real = d.real ∧ (d.updAxis a f).fresh = d.fresh :=
  ⟨rfl, rfl, rfl, rfl, rfl, rfl, rfl, rfl, rfl, rfl, rfl, rfl, rfl, rfl, rfl, rfl, rfl, rfl, rfl, rfl, rfl, rfl, rfl, rfl, rfl, rfl, rfl, rfl, rfl, rfl, rfl, rfl, rfl, rfl, rfl, rfl, rfl, rfl⟩

@[simp] theorem Die.updEnc_frame (d : Die) (k : Nat) (f : Enc → Enc) :
    (d.updEnc k f).id = d.id ∧ (d.updEnc k f).time = d.time ∧ (d.updEnc k f).trig = d.trig ∧
    (d.updEnc k f).capt = d.capt ∧ (d.updEnc k f).eth = d.eth ∧ (d.updEnc k f).red = d.red ∧
    (d.updEnc k f).qrc = d.qrc ∧ (d.updEnc k f).eng = d.eng ∧ (d.updEnc k f).cairnSel = d.cairnSel ∧
    (d.updEnc k f).cairnState = d.cairnState ∧ (d.updEnc k f).joints = d.joints ∧
    (d.updEnc k f).regions = d.regions ∧ (d.updEnc k f).sep = d.sep ∧ (d.updEnc k f).axes = d.axes ∧
    (d.updEnc k f).pwm = d.pwm ∧ (d.updEnc k f).encPins = d.encPins ∧ (d.updEnc k f).captPins = d.captPins ∧
    (d.updEnc k f).lanes = d.lanes ∧ (d.updEnc k f).cans = d.cans ∧ (d.updEnc k f).img = d.img ∧
    (d.updEnc k f).boot = d.boot ∧ (d.updEnc k f).sec = d.sec ∧ (d.updEnc k f).jtag = d.jtag ∧
    (d.updEnc k f).rst = d.rst ∧ (d.updEnc k f).pwr = d.pwr ∧ (d.updEnc k f).clk = d.clk ∧
    (d.updEnc k f).host = d.host ∧ (d.updEnc k f).qspi = d.qspi ∧ (d.updEnc k f).dma = d.dma ∧
    (d.updEnc k f).mon = d.mon ∧ (d.updEnc k f).err = d.err ∧ (d.updEnc k f).safe = d.safe ∧
    (d.updEnc k f).sram = d.sram ∧ (d.updEnc k f).eccBad = d.eccBad ∧ (d.updEnc k f).eccSoft = d.eccSoft ∧
    (d.updEnc k f).out = d.out ∧ (d.updEnc k f).real = d.real ∧ (d.updEnc k f).fresh = d.fresh :=
  ⟨rfl, rfl, rfl, rfl, rfl, rfl, rfl, rfl, rfl, rfl, rfl, rfl, rfl, rfl, rfl, rfl, rfl, rfl, rfl, rfl, rfl, rfl, rfl, rfl, rfl, rfl, rfl, rfl, rfl, rfl, rfl, rfl, rfl, rfl, rfl, rfl, rfl, rfl⟩

@[simp] theorem Die.updLane_frame (d : Die) (l : Nat) (f : Lane → Lane) :
    (d.updLane l f).id = d.id ∧ (d.updLane l f).time = d.time ∧ (d.updLane l f).trig = d.trig ∧
    (d.updLane l f).capt = d.capt ∧ (d.updLane l f).eth = d.eth ∧ (d.updLane l f).red = d.red ∧
    (d.updLane l f).qrc = d.qrc ∧ (d.updLane l f).eng = d.eng ∧ (d.updLane l f).cairnSel = d.cairnSel ∧
    (d.updLane l f).cairnState = d.cairnState ∧ (d.updLane l f).joints = d.joints ∧
    (d.updLane l f).regions = d.regions ∧ (d.updLane l f).sep = d.sep ∧ (d.updLane l f).axes = d.axes ∧
    (d.updLane l f).pwm = d.pwm ∧ (d.updLane l f).encs = d.encs ∧ (d.updLane l f).encPins = d.encPins ∧
    (d.updLane l f).captPins = d.captPins ∧ (d.updLane l f).cans = d.cans ∧ (d.updLane l f).img = d.img ∧
    (d.updLane l f).boot = d.boot ∧ (d.updLane l f).sec = d.sec ∧ (d.updLane l f).jtag = d.jtag ∧
    (d.updLane l f).rst = d.rst ∧ (d.updLane l f).pwr = d.pwr ∧ (d.updLane l f).clk = d.clk ∧
    (d.updLane l f).host = d.host ∧ (d.updLane l f).qspi = d.qspi ∧ (d.updLane l f).dma = d.dma ∧
    (d.updLane l f).mon = d.mon ∧ (d.updLane l f).err = d.err ∧ (d.updLane l f).safe = d.safe ∧
    (d.updLane l f).sram = d.sram ∧ (d.updLane l f).eccBad = d.eccBad ∧ (d.updLane l f).eccSoft = d.eccSoft ∧
    (d.updLane l f).out = d.out ∧ (d.updLane l f).real = d.real ∧ (d.updLane l f).fresh = d.fresh :=
  ⟨rfl, rfl, rfl, rfl, rfl, rfl, rfl, rfl, rfl, rfl, rfl, rfl, rfl, rfl, rfl, rfl, rfl, rfl, rfl, rfl, rfl, rfl, rfl, rfl, rfl, rfl, rfl, rfl, rfl, rfl, rfl, rfl, rfl, rfl, rfl, rfl, rfl, rfl⟩

@[simp] theorem Die.updCan_frame (d : Die) (n : Nat) (f : Can → Can) :
    (d.updCan n f).id = d.id ∧ (d.updCan n f).time = d.time ∧ (d.updCan n f).trig = d.trig ∧
    (d.updCan n f).capt = d.capt ∧ (d.updCan n f).eth = d.eth ∧ (d.updCan n f).red = d.red ∧
    (d.updCan n f).qrc = d.qrc ∧ (d.updCan n f).eng = d.eng ∧ (d.updCan n f).cairnSel = d.cairnSel ∧
    (d.updCan n f).cairnState = d.cairnState ∧ (d.updCan n f).joints = d.joints ∧
    (d.updCan n f).regions = d.regions ∧ (d.updCan n f).sep = d.sep ∧ (d.updCan n f).axes = d.axes ∧
    (d.updCan n f).pwm = d.pwm ∧ (d.updCan n f).encs = d.encs ∧ (d.updCan n f).encPins = d.encPins ∧
    (d.updCan n f).captPins = d.captPins ∧ (d.updCan n f).lanes = d.lanes ∧ (d.updCan n f).img = d.img ∧
    (d.updCan n f).boot = d.boot ∧ (d.updCan n f).sec = d.sec ∧ (d.updCan n f).jtag = d.jtag ∧
    (d.updCan n f).rst = d.rst ∧ (d.updCan n f).pwr = d.pwr ∧ (d.updCan n f).clk = d.clk ∧
    (d.updCan n f).host = d.host ∧ (d.updCan n f).qspi = d.qspi ∧ (d.updCan n f).dma = d.dma ∧
    (d.updCan n f).mon = d.mon ∧ (d.updCan n f).err = d.err ∧ (d.updCan n f).safe = d.safe ∧
    (d.updCan n f).sram = d.sram ∧ (d.updCan n f).eccBad = d.eccBad ∧ (d.updCan n f).eccSoft = d.eccSoft ∧
    (d.updCan n f).out = d.out ∧ (d.updCan n f).real = d.real ∧ (d.updCan n f).fresh = d.fresh :=
  ⟨rfl, rfl, rfl, rfl, rfl, rfl, rfl, rfl, rfl, rfl, rfl, rfl, rfl, rfl, rfl, rfl, rfl, rfl, rfl, rfl, rfl, rfl, rfl, rfl, rfl, rfl, rfl, rfl, rfl, rfl, rfl, rfl, rfl, rfl, rfl, rfl, rfl, rfl⟩

@[simp] theorem Die.updRegion_frame (d : Die) (w : Nat) (f : Region → Region) :
    (d.updRegion w f).id = d.id ∧ (d.updRegion w f).time = d.time ∧ (d.updRegion w f).trig = d.trig ∧
    (d.updRegion w f).capt = d.capt ∧ (d.updRegion w f).eth = d.eth ∧ (d.updRegion w f).red = d.red ∧
    (d.updRegion w f).qrc = d.qrc ∧ (d.updRegion w f).eng = d.eng ∧ (d.updRegion w f).cairnSel = d.cairnSel ∧
    (d.updRegion w f).cairnState = d.cairnState ∧ (d.updRegion w f).joints = d.joints ∧
    (d.updRegion w f).sep = d.sep ∧ (d.updRegion w f).axes = d.axes ∧ (d.updRegion w f).pwm = d.pwm ∧
    (d.updRegion w f).encs = d.encs ∧ (d.updRegion w f).encPins = d.encPins ∧
    (d.updRegion w f).captPins = d.captPins ∧ (d.updRegion w f).lanes = d.lanes ∧ (d.updRegion w f).cans = d.cans ∧
    (d.updRegion w f).img = d.img ∧ (d.updRegion w f).boot = d.boot ∧ (d.updRegion w f).sec = d.sec ∧
    (d.updRegion w f).jtag = d.jtag ∧ (d.updRegion w f).rst = d.rst ∧ (d.updRegion w f).pwr = d.pwr ∧
    (d.updRegion w f).clk = d.clk ∧ (d.updRegion w f).host = d.host ∧ (d.updRegion w f).qspi = d.qspi ∧
    (d.updRegion w f).dma = d.dma ∧ (d.updRegion w f).mon = d.mon ∧ (d.updRegion w f).err = d.err ∧
    (d.updRegion w f).safe = d.safe ∧ (d.updRegion w f).sram = d.sram ∧ (d.updRegion w f).eccBad = d.eccBad ∧
    (d.updRegion w f).eccSoft = d.eccSoft ∧ (d.updRegion w f).out = d.out ∧ (d.updRegion w f).real = d.real ∧
    (d.updRegion w f).fresh = d.fresh :=
  ⟨rfl, rfl, rfl, rfl, rfl, rfl, rfl, rfl, rfl, rfl, rfl, rfl, rfl, rfl, rfl, rfl, rfl, rfl, rfl, rfl, rfl, rfl, rfl, rfl, rfl, rfl, rfl, rfl, rfl, rfl, rfl, rfl, rfl, rfl, rfl, rfl, rfl, rfl⟩

@[simp] theorem Die.updQueue_frame (d : Die) (q : Nat) (f : Queue → Queue) :
    (d.updQueue q f).id = d.id ∧ (d.updQueue q f).time = d.time ∧ (d.updQueue q f).trig = d.trig ∧
    (d.updQueue q f).capt = d.capt ∧ (d.updQueue q f).eth = d.eth ∧ (d.updQueue q f).red = d.red ∧
    (d.updQueue q f).eng = d.eng ∧ (d.updQueue q f).cairnSel = d.cairnSel ∧
    (d.updQueue q f).cairnState = d.cairnState ∧ (d.updQueue q f).joints = d.joints ∧
    (d.updQueue q f).regions = d.regions ∧ (d.updQueue q f).sep = d.sep ∧ (d.updQueue q f).axes = d.axes ∧
    (d.updQueue q f).pwm = d.pwm ∧ (d.updQueue q f).encs = d.encs ∧ (d.updQueue q f).encPins = d.encPins ∧
    (d.updQueue q f).captPins = d.captPins ∧ (d.updQueue q f).lanes = d.lanes ∧ (d.updQueue q f).cans = d.cans ∧
    (d.updQueue q f).img = d.img ∧ (d.updQueue q f).boot = d.boot ∧ (d.updQueue q f).sec = d.sec ∧
    (d.updQueue q f).jtag = d.jtag ∧ (d.updQueue q f).rst = d.rst ∧ (d.updQueue q f).pwr = d.pwr ∧
    (d.updQueue q f).clk = d.clk ∧ (d.updQueue q f).host = d.host ∧ (d.updQueue q f).qspi = d.qspi ∧
    (d.updQueue q f).dma = d.dma ∧ (d.updQueue q f).mon = d.mon ∧ (d.updQueue q f).err = d.err ∧
    (d.updQueue q f).safe = d.safe ∧ (d.updQueue q f).sram = d.sram ∧ (d.updQueue q f).eccBad = d.eccBad ∧
    (d.updQueue q f).eccSoft = d.eccSoft ∧ (d.updQueue q f).out = d.out ∧ (d.updQueue q f).real = d.real ∧
    (d.updQueue q f).fresh = d.fresh :=
  ⟨rfl, rfl, rfl, rfl, rfl, rfl, rfl, rfl, rfl, rfl, rfl, rfl, rfl, rfl, rfl, rfl, rfl, rfl, rfl, rfl, rfl, rfl, rfl, rfl, rfl, rfl, rfl, rfl, rfl, rfl, rfl, rfl, rfl, rfl, rfl, rfl, rfl, rfl⟩

@[simp] theorem Die.updSep_frame (d : Die) (f : Sep → Sep) :
    (d.updSep f).id = d.id ∧ (d.updSep f).time = d.time ∧ (d.updSep f).trig = d.trig ∧ (d.updSep f).capt = d.capt ∧
    (d.updSep f).eth = d.eth ∧ (d.updSep f).red = d.red ∧ (d.updSep f).qrc = d.qrc ∧ (d.updSep f).eng = d.eng ∧
    (d.updSep f).cairnSel = d.cairnSel ∧ (d.updSep f).cairnState = d.cairnState ∧ (d.updSep f).joints = d.joints ∧
    (d.updSep f).regions = d.regions ∧ (d.updSep f).axes = d.axes ∧ (d.updSep f).pwm = d.pwm ∧
    (d.updSep f).encs = d.encs ∧ (d.updSep f).encPins = d.encPins ∧ (d.updSep f).captPins = d.captPins ∧
    (d.updSep f).lanes = d.lanes ∧ (d.updSep f).cans = d.cans ∧ (d.updSep f).img = d.img ∧
    (d.updSep f).boot = d.boot ∧ (d.updSep f).sec = d.sec ∧ (d.updSep f).jtag = d.jtag ∧ (d.updSep f).rst = d.rst ∧
    (d.updSep f).pwr = d.pwr ∧ (d.updSep f).clk = d.clk ∧ (d.updSep f).host = d.host ∧ (d.updSep f).qspi = d.qspi ∧
    (d.updSep f).dma = d.dma ∧ (d.updSep f).mon = d.mon ∧ (d.updSep f).err = d.err ∧ (d.updSep f).safe = d.safe ∧
    (d.updSep f).sram = d.sram ∧ (d.updSep f).eccBad = d.eccBad ∧ (d.updSep f).eccSoft = d.eccSoft ∧
    (d.updSep f).out = d.out ∧ (d.updSep f).real = d.real ∧ (d.updSep f).fresh = d.fresh :=
  ⟨rfl, rfl, rfl, rfl, rfl, rfl, rfl, rfl, rfl, rfl, rfl, rfl, rfl, rfl, rfl, rfl, rfl, rfl, rfl, rfl, rfl, rfl, rfl, rfl, rfl, rfl, rfl, rfl, rfl, rfl, rfl, rfl, rfl, rfl, rfl, rfl, rfl, rfl⟩

@[simp] theorem Die.updTrig_frame (d : Die) (k : Fin 8) (f : Trigger → Trigger) :
    (d.updTrig k f).id = d.id ∧ (d.updTrig k f).time = d.time ∧ (d.updTrig k f).capt = d.capt ∧
    (d.updTrig k f).eth = d.eth ∧ (d.updTrig k f).red = d.red ∧ (d.updTrig k f).qrc = d.qrc ∧
    (d.updTrig k f).eng = d.eng ∧ (d.updTrig k f).cairnSel = d.cairnSel ∧ (d.updTrig k f).cairnState = d.cairnState ∧
    (d.updTrig k f).joints = d.joints ∧ (d.updTrig k f).regions = d.regions ∧ (d.updTrig k f).sep = d.sep ∧
    (d.updTrig k f).axes = d.axes ∧ (d.updTrig k f).pwm = d.pwm ∧ (d.updTrig k f).encs = d.encs ∧
    (d.updTrig k f).encPins = d.encPins ∧ (d.updTrig k f).captPins = d.captPins ∧ (d.updTrig k f).lanes = d.lanes ∧
    (d.updTrig k f).cans = d.cans ∧ (d.updTrig k f).img = d.img ∧ (d.updTrig k f).boot = d.boot ∧
    (d.updTrig k f).sec = d.sec ∧ (d.updTrig k f).jtag = d.jtag ∧ (d.updTrig k f).rst = d.rst ∧
    (d.updTrig k f).pwr = d.pwr ∧ (d.updTrig k f).clk = d.clk ∧ (d.updTrig k f).host = d.host ∧
    (d.updTrig k f).qspi = d.qspi ∧ (d.updTrig k f).dma = d.dma ∧ (d.updTrig k f).mon = d.mon ∧
    (d.updTrig k f).err = d.err ∧ (d.updTrig k f).safe = d.safe ∧ (d.updTrig k f).sram = d.sram ∧
    (d.updTrig k f).eccBad = d.eccBad ∧ (d.updTrig k f).eccSoft = d.eccSoft ∧ (d.updTrig k f).out = d.out ∧
    (d.updTrig k f).real = d.real ∧ (d.updTrig k f).fresh = d.fresh :=
  ⟨rfl, rfl, rfl, rfl, rfl, rfl, rfl, rfl, rfl, rfl, rfl, rfl, rfl, rfl, rfl, rfl, rfl, rfl, rfl, rfl, rfl, rfl, rfl, rfl, rfl, rfl, rfl, rfl, rfl, rfl, rfl, rfl, rfl, rfl, rfl, rfl, rfl, rfl⟩

@[simp] theorem Die.updPort_frame (d : Die) (p : Fin 2) (f : EthPort → EthPort) :
    (d.updPort p f).id = d.id ∧ (d.updPort p f).time = d.time ∧ (d.updPort p f).trig = d.trig ∧
    (d.updPort p f).capt = d.capt ∧ (d.updPort p f).red = d.red ∧ (d.updPort p f).qrc = d.qrc ∧
    (d.updPort p f).eng = d.eng ∧ (d.updPort p f).cairnSel = d.cairnSel ∧ (d.updPort p f).cairnState = d.cairnState ∧
    (d.updPort p f).joints = d.joints ∧ (d.updPort p f).regions = d.regions ∧ (d.updPort p f).sep = d.sep ∧
    (d.updPort p f).axes = d.axes ∧ (d.updPort p f).pwm = d.pwm ∧ (d.updPort p f).encs = d.encs ∧
    (d.updPort p f).encPins = d.encPins ∧ (d.updPort p f).captPins = d.captPins ∧ (d.updPort p f).lanes = d.lanes ∧
    (d.updPort p f).cans = d.cans ∧ (d.updPort p f).img = d.img ∧ (d.updPort p f).boot = d.boot ∧
    (d.updPort p f).sec = d.sec ∧ (d.updPort p f).jtag = d.jtag ∧ (d.updPort p f).rst = d.rst ∧
    (d.updPort p f).pwr = d.pwr ∧ (d.updPort p f).clk = d.clk ∧ (d.updPort p f).host = d.host ∧
    (d.updPort p f).qspi = d.qspi ∧ (d.updPort p f).dma = d.dma ∧ (d.updPort p f).mon = d.mon ∧
    (d.updPort p f).err = d.err ∧ (d.updPort p f).safe = d.safe ∧ (d.updPort p f).sram = d.sram ∧
    (d.updPort p f).eccBad = d.eccBad ∧ (d.updPort p f).eccSoft = d.eccSoft ∧ (d.updPort p f).out = d.out ∧
    (d.updPort p f).real = d.real ∧ (d.updPort p f).fresh = d.fresh :=
  ⟨rfl, rfl, rfl, rfl, rfl, rfl, rfl, rfl, rfl, rfl, rfl, rfl, rfl, rfl, rfl, rfl, rfl, rfl, rfl, rfl, rfl, rfl, rfl, rfl, rfl, rfl, rfl, rfl, rfl, rfl, rfl, rfl, rfl, rfl, rfl, rfl, rfl, rfl⟩

@[simp] theorem Die.updSafe_frame (d : Die) (k : Fin 4) (f : SafeIn → SafeIn) :
    (d.updSafe k f).id = d.id ∧ (d.updSafe k f).time = d.time ∧ (d.updSafe k f).trig = d.trig ∧
    (d.updSafe k f).capt = d.capt ∧ (d.updSafe k f).eth = d.eth ∧ (d.updSafe k f).red = d.red ∧
    (d.updSafe k f).qrc = d.qrc ∧ (d.updSafe k f).eng = d.eng ∧ (d.updSafe k f).cairnSel = d.cairnSel ∧
    (d.updSafe k f).cairnState = d.cairnState ∧ (d.updSafe k f).joints = d.joints ∧
    (d.updSafe k f).regions = d.regions ∧ (d.updSafe k f).sep = d.sep ∧ (d.updSafe k f).axes = d.axes ∧
    (d.updSafe k f).pwm = d.pwm ∧ (d.updSafe k f).encs = d.encs ∧ (d.updSafe k f).encPins = d.encPins ∧
    (d.updSafe k f).captPins = d.captPins ∧ (d.updSafe k f).lanes = d.lanes ∧ (d.updSafe k f).cans = d.cans ∧
    (d.updSafe k f).img = d.img ∧ (d.updSafe k f).boot = d.boot ∧ (d.updSafe k f).sec = d.sec ∧
    (d.updSafe k f).jtag = d.jtag ∧ (d.updSafe k f).rst = d.rst ∧ (d.updSafe k f).pwr = d.pwr ∧
    (d.updSafe k f).clk = d.clk ∧ (d.updSafe k f).host = d.host ∧ (d.updSafe k f).qspi = d.qspi ∧
    (d.updSafe k f).dma = d.dma ∧ (d.updSafe k f).mon = d.mon ∧ (d.updSafe k f).err = d.err ∧
    (d.updSafe k f).sram = d.sram ∧ (d.updSafe k f).eccBad = d.eccBad ∧ (d.updSafe k f).eccSoft = d.eccSoft ∧
    (d.updSafe k f).out = d.out ∧ (d.updSafe k f).real = d.real ∧ (d.updSafe k f).fresh = d.fresh :=
  ⟨rfl, rfl, rfl, rfl, rfl, rfl, rfl, rfl, rfl, rfl, rfl, rfl, rfl, rfl, rfl, rfl, rfl, rfl, rfl, rfl, rfl, rfl, rfl, rfl, rfl, rfl, rfl, rfl, rfl, rfl, rfl, rfl, rfl, rfl, rfl, rfl, rfl, rfl⟩

@[simp] theorem Die.updDma_frame (d : Die) (c : Fin 4) (f : Dma → Dma) :
    (d.updDma c f).id = d.id ∧ (d.updDma c f).time = d.time ∧ (d.updDma c f).trig = d.trig ∧
    (d.updDma c f).capt = d.capt ∧ (d.updDma c f).eth = d.eth ∧ (d.updDma c f).red = d.red ∧
    (d.updDma c f).qrc = d.qrc ∧ (d.updDma c f).eng = d.eng ∧ (d.updDma c f).cairnSel = d.cairnSel ∧
    (d.updDma c f).cairnState = d.cairnState ∧ (d.updDma c f).joints = d.joints ∧
    (d.updDma c f).regions = d.regions ∧ (d.updDma c f).sep = d.sep ∧ (d.updDma c f).axes = d.axes ∧
    (d.updDma c f).pwm = d.pwm ∧ (d.updDma c f).encs = d.encs ∧ (d.updDma c f).encPins = d.encPins ∧
    (d.updDma c f).captPins = d.captPins ∧ (d.updDma c f).lanes = d.lanes ∧ (d.updDma c f).cans = d.cans ∧
    (d.updDma c f).img = d.img ∧ (d.updDma c f).boot = d.boot ∧ (d.updDma c f).sec = d.sec ∧
    (d.updDma c f).jtag = d.jtag ∧ (d.updDma c f).rst = d.rst ∧ (d.updDma c f).pwr = d.pwr ∧
    (d.updDma c f).clk = d.clk ∧ (d.updDma c f).host = d.host ∧ (d.updDma c f).qspi = d.qspi ∧
    (d.updDma c f).mon = d.mon ∧ (d.updDma c f).err = d.err ∧ (d.updDma c f).safe = d.safe ∧
    (d.updDma c f).sram = d.sram ∧ (d.updDma c f).eccBad = d.eccBad ∧ (d.updDma c f).eccSoft = d.eccSoft ∧
    (d.updDma c f).out = d.out ∧ (d.updDma c f).real = d.real ∧ (d.updDma c f).fresh = d.fresh :=
  ⟨rfl, rfl, rfl, rfl, rfl, rfl, rfl, rfl, rfl, rfl, rfl, rfl, rfl, rfl, rfl, rfl, rfl, rfl, rfl, rfl, rfl, rfl, rfl, rfl, rfl, rfl, rfl, rfl, rfl, rfl, rfl, rfl, rfl, rfl, rfl, rfl, rfl, rfl⟩

@[simp] theorem Die.updUnit_frame (d : Die) (kind idx : Nat) (f : UnitRec → UnitRec) :
    (d.updUnit kind idx f).id = d.id ∧ (d.updUnit kind idx f).time = d.time ∧ (d.updUnit kind idx f).trig = d.trig ∧
    (d.updUnit kind idx f).capt = d.capt ∧ (d.updUnit kind idx f).eth = d.eth ∧ (d.updUnit kind idx f).qrc = d.qrc ∧
    (d.updUnit kind idx f).eng = d.eng ∧ (d.updUnit kind idx f).cairnSel = d.cairnSel ∧
    (d.updUnit kind idx f).cairnState = d.cairnState ∧ (d.updUnit kind idx f).joints = d.joints ∧
    (d.updUnit kind idx f).regions = d.regions ∧ (d.updUnit kind idx f).sep = d.sep ∧
    (d.updUnit kind idx f).axes = d.axes ∧ (d.updUnit kind idx f).pwm = d.pwm ∧
    (d.updUnit kind idx f).encs = d.encs ∧ (d.updUnit kind idx f).encPins = d.encPins ∧
    (d.updUnit kind idx f).captPins = d.captPins ∧ (d.updUnit kind idx f).lanes = d.lanes ∧
    (d.updUnit kind idx f).cans = d.cans ∧ (d.updUnit kind idx f).img = d.img ∧
    (d.updUnit kind idx f).boot = d.boot ∧ (d.updUnit kind idx f).sec = d.sec ∧
    (d.updUnit kind idx f).jtag = d.jtag ∧ (d.updUnit kind idx f).rst = d.rst ∧ (d.updUnit kind idx f).pwr = d.pwr ∧
    (d.updUnit kind idx f).clk = d.clk ∧ (d.updUnit kind idx f).host = d.host ∧
    (d.updUnit kind idx f).qspi = d.qspi ∧ (d.updUnit kind idx f).dma = d.dma ∧ (d.updUnit kind idx f).mon = d.mon ∧
    (d.updUnit kind idx f).err = d.err ∧ (d.updUnit kind idx f).safe = d.safe ∧
    (d.updUnit kind idx f).sram = d.sram ∧ (d.updUnit kind idx f).eccBad = d.eccBad ∧
    (d.updUnit kind idx f).eccSoft = d.eccSoft ∧ (d.updUnit kind idx f).out = d.out ∧
    (d.updUnit kind idx f).real = d.real ∧ (d.updUnit kind idx f).fresh = d.fresh :=
  ⟨rfl, rfl, rfl, rfl, rfl, rfl, rfl, rfl, rfl, rfl, rfl, rfl, rfl, rfl, rfl, rfl, rfl, rfl, rfl, rfl, rfl, rfl, rfl, rfl, rfl, rfl, rfl, rfl, rfl, rfl, rfl, rfl, rfl, rfl, rfl, rfl, rfl, rfl⟩

@[simp] theorem Die.updDom_frame (d : Die) (i : Nat) (f : Domain → Domain) :
    (d.updDom i f).id = d.id ∧ (d.updDom i f).time = d.time ∧ (d.updDom i f).trig = d.trig ∧
    (d.updDom i f).capt = d.capt ∧ (d.updDom i f).eth = d.eth ∧ (d.updDom i f).red = d.red ∧
    (d.updDom i f).qrc = d.qrc ∧ (d.updDom i f).eng = d.eng ∧ (d.updDom i f).cairnSel = d.cairnSel ∧
    (d.updDom i f).cairnState = d.cairnState ∧ (d.updDom i f).joints = d.joints ∧
    (d.updDom i f).regions = d.regions ∧ (d.updDom i f).sep = d.sep ∧ (d.updDom i f).axes = d.axes ∧
    (d.updDom i f).pwm = d.pwm ∧ (d.updDom i f).encs = d.encs ∧ (d.updDom i f).encPins = d.encPins ∧
    (d.updDom i f).captPins = d.captPins ∧ (d.updDom i f).lanes = d.lanes ∧ (d.updDom i f).cans = d.cans ∧
    (d.updDom i f).img = d.img ∧ (d.updDom i f).boot = d.boot ∧ (d.updDom i f).sec = d.sec ∧
    (d.updDom i f).jtag = d.jtag ∧ (d.updDom i f).rst = d.rst ∧ (d.updDom i f).clk = d.clk ∧
    (d.updDom i f).host = d.host ∧ (d.updDom i f).qspi = d.qspi ∧ (d.updDom i f).dma = d.dma ∧
    (d.updDom i f).mon = d.mon ∧ (d.updDom i f).err = d.err ∧ (d.updDom i f).safe = d.safe ∧
    (d.updDom i f).sram = d.sram ∧ (d.updDom i f).eccBad = d.eccBad ∧ (d.updDom i f).eccSoft = d.eccSoft ∧
    (d.updDom i f).out = d.out ∧ (d.updDom i f).real = d.real ∧ (d.updDom i f).fresh = d.fresh :=
  ⟨rfl, rfl, rfl, rfl, rfl, rfl, rfl, rfl, rfl, rfl, rfl, rfl, rfl, rfl, rfl, rfl, rfl, rfl, rfl, rfl, rfl, rfl, rfl, rfl, rfl, rfl, rfl, rfl, rfl, rfl, rfl, rfl, rfl, rfl, rfl, rfl, rfl, rfl⟩

@[simp] theorem Die.updTime_frame (d : Die) (f : TimeUnit → TimeUnit) :
    (d.updTime f).id = d.id ∧ (d.updTime f).trig = d.trig ∧ (d.updTime f).capt = d.capt ∧ (d.updTime f).eth = d.eth ∧
    (d.updTime f).red = d.red ∧ (d.updTime f).qrc = d.qrc ∧ (d.updTime f).eng = d.eng ∧
    (d.updTime f).cairnSel = d.cairnSel ∧ (d.updTime f).cairnState = d.cairnState ∧ (d.updTime f).joints = d.joints ∧
    (d.updTime f).regions = d.regions ∧ (d.updTime f).sep = d.sep ∧ (d.updTime f).axes = d.axes ∧
    (d.updTime f).pwm = d.pwm ∧ (d.updTime f).encs = d.encs ∧ (d.updTime f).encPins = d.encPins ∧
    (d.updTime f).captPins = d.captPins ∧ (d.updTime f).lanes = d.lanes ∧ (d.updTime f).cans = d.cans ∧
    (d.updTime f).img = d.img ∧ (d.updTime f).boot = d.boot ∧ (d.updTime f).sec = d.sec ∧
    (d.updTime f).jtag = d.jtag ∧ (d.updTime f).rst = d.rst ∧ (d.updTime f).pwr = d.pwr ∧ (d.updTime f).clk = d.clk ∧
    (d.updTime f).host = d.host ∧ (d.updTime f).qspi = d.qspi ∧ (d.updTime f).dma = d.dma ∧
    (d.updTime f).mon = d.mon ∧ (d.updTime f).err = d.err ∧ (d.updTime f).safe = d.safe ∧
    (d.updTime f).sram = d.sram ∧ (d.updTime f).eccBad = d.eccBad ∧ (d.updTime f).eccSoft = d.eccSoft ∧
    (d.updTime f).out = d.out ∧ (d.updTime f).real = d.real ∧ (d.updTime f).fresh = d.fresh :=
  ⟨rfl, rfl, rfl, rfl, rfl, rfl, rfl, rfl, rfl, rfl, rfl, rfl, rfl, rfl, rfl, rfl, rfl, rfl, rfl, rfl, rfl, rfl, rfl, rfl, rfl, rfl, rfl, rfl, rfl, rfl, rfl, rfl, rfl, rfl, rfl, rfl, rfl, rfl⟩

@[simp] theorem Die.updImg_frame (d : Die) (f : ImageUnit → ImageUnit) :
    (d.updImg f).id = d.id ∧ (d.updImg f).time = d.time ∧ (d.updImg f).trig = d.trig ∧ (d.updImg f).capt = d.capt ∧
    (d.updImg f).eth = d.eth ∧ (d.updImg f).red = d.red ∧ (d.updImg f).qrc = d.qrc ∧ (d.updImg f).eng = d.eng ∧
    (d.updImg f).cairnSel = d.cairnSel ∧ (d.updImg f).cairnState = d.cairnState ∧ (d.updImg f).joints = d.joints ∧
    (d.updImg f).regions = d.regions ∧ (d.updImg f).sep = d.sep ∧ (d.updImg f).axes = d.axes ∧
    (d.updImg f).pwm = d.pwm ∧ (d.updImg f).encs = d.encs ∧ (d.updImg f).encPins = d.encPins ∧
    (d.updImg f).captPins = d.captPins ∧ (d.updImg f).lanes = d.lanes ∧ (d.updImg f).cans = d.cans ∧
    (d.updImg f).boot = d.boot ∧ (d.updImg f).sec = d.sec ∧ (d.updImg f).jtag = d.jtag ∧ (d.updImg f).rst = d.rst ∧
    (d.updImg f).pwr = d.pwr ∧ (d.updImg f).clk = d.clk ∧ (d.updImg f).host = d.host ∧ (d.updImg f).qspi = d.qspi ∧
    (d.updImg f).dma = d.dma ∧ (d.updImg f).mon = d.mon ∧ (d.updImg f).err = d.err ∧ (d.updImg f).safe = d.safe ∧
    (d.updImg f).sram = d.sram ∧ (d.updImg f).eccBad = d.eccBad ∧ (d.updImg f).eccSoft = d.eccSoft ∧
    (d.updImg f).out = d.out ∧ (d.updImg f).real = d.real ∧ (d.updImg f).fresh = d.fresh :=
  ⟨rfl, rfl, rfl, rfl, rfl, rfl, rfl, rfl, rfl, rfl, rfl, rfl, rfl, rfl, rfl, rfl, rfl, rfl, rfl, rfl, rfl, rfl, rfl, rfl, rfl, rfl, rfl, rfl, rfl, rfl, rfl, rfl, rfl, rfl, rfl, rfl, rfl, rfl⟩

@[simp] theorem Die.updHost_frame (d : Die) (f : HostIf → HostIf) :
    (d.updHost f).id = d.id ∧ (d.updHost f).time = d.time ∧ (d.updHost f).trig = d.trig ∧
    (d.updHost f).capt = d.capt ∧ (d.updHost f).eth = d.eth ∧ (d.updHost f).red = d.red ∧ (d.updHost f).qrc = d.qrc ∧
    (d.updHost f).eng = d.eng ∧ (d.updHost f).cairnSel = d.cairnSel ∧ (d.updHost f).cairnState = d.cairnState ∧
    (d.updHost f).joints = d.joints ∧ (d.updHost f).regions = d.regions ∧ (d.updHost f).sep = d.sep ∧
    (d.updHost f).axes = d.axes ∧ (d.updHost f).pwm = d.pwm ∧ (d.updHost f).encs = d.encs ∧
    (d.updHost f).encPins = d.encPins ∧ (d.updHost f).captPins = d.captPins ∧ (d.updHost f).lanes = d.lanes ∧
    (d.updHost f).cans = d.cans ∧ (d.updHost f).img = d.img ∧ (d.updHost f).boot = d.boot ∧
    (d.updHost f).sec = d.sec ∧ (d.updHost f).jtag = d.jtag ∧ (d.updHost f).rst = d.rst ∧ (d.updHost f).pwr = d.pwr ∧
    (d.updHost f).clk = d.clk ∧ (d.updHost f).qspi = d.qspi ∧ (d.updHost f).dma = d.dma ∧ (d.updHost f).mon = d.mon ∧
    (d.updHost f).err = d.err ∧ (d.updHost f).safe = d.safe ∧ (d.updHost f).sram = d.sram ∧
    (d.updHost f).eccBad = d.eccBad ∧ (d.updHost f).eccSoft = d.eccSoft ∧ (d.updHost f).out = d.out ∧
    (d.updHost f).real = d.real ∧ (d.updHost f).fresh = d.fresh :=
  ⟨rfl, rfl, rfl, rfl, rfl, rfl, rfl, rfl, rfl, rfl, rfl, rfl, rfl, rfl, rfl, rfl, rfl, rfl, rfl, rfl, rfl, rfl, rfl, rfl, rfl, rfl, rfl, rfl, rfl, rfl, rfl, rfl, rfl, rfl, rfl, rfl, rfl, rfl⟩

@[simp] theorem Die.updJnt_jnt (d : Die) (j : Nat) (f : Joint → Joint) (h : j < 128) :
    (d.updJnt j f).jnt j = f (d.jnt j) := by
  simp [Die.updJnt, Die.jnt, h]
theorem Die.updJnt_other (d : Die) (j i : Nat) (f : Joint → Joint) (h : i ≠ j) :
    (d.updJnt j f).jnt i = d.jnt i := by
  simp [Die.updJnt, Die.jnt, Ne.symm h]

@[simp] theorem Die.updAxis_axis (d : Die) (a : Nat) (f : Axis → Axis) (h : a < 16) :
    (d.updAxis a f).axis a = f (d.axis a) := by
  simp [Die.updAxis, Die.axis, h]
theorem Die.updAxis_other (d : Die) (a i : Nat) (f : Axis → Axis) (h : i ≠ a) :
    (d.updAxis a f).axis i = d.axis i := by
  simp [Die.updAxis, Die.axis, Ne.symm h]

@[simp] theorem Die.updEnc_enc (d : Die) (k : Nat) (f : Enc → Enc) (h : k < 16) :
    (d.updEnc k f).enc k = f (d.enc k) := by
  simp [Die.updEnc, Die.enc, h]
theorem Die.updEnc_other (d : Die) (k i : Nat) (f : Enc → Enc) (h : i ≠ k) :
    (d.updEnc k f).enc i = d.enc i := by
  simp [Die.updEnc, Die.enc, Ne.symm h]

@[simp] theorem Die.updLane_lane (d : Die) (l : Nat) (f : Lane → Lane) (h : l < 8) :
    (d.updLane l f).lane l = f (d.lane l) := by
  simp [Die.updLane, Die.lane, h]
theorem Die.updLane_other (d : Die) (l i : Nat) (f : Lane → Lane) (h : i ≠ l) :
    (d.updLane l f).lane i = d.lane i := by
  simp [Die.updLane, Die.lane, Ne.symm h]

@[simp] theorem Die.updCan_can (d : Die) (n : Nat) (f : Can → Can) (h : n < 4) :
    (d.updCan n f).can n = f (d.can n) := by
  simp [Die.updCan, Die.can, h]
theorem Die.updCan_other (d : Die) (n i : Nat) (f : Can → Can) (h : i ≠ n) :
    (d.updCan n f).can i = d.can i := by
  simp [Die.updCan, Die.can, Ne.symm h]

@[simp] theorem Die.updRegion_region (d : Die) (w : Nat) (f : Region → Region) (h : w < 4) :
    (d.updRegion w f).region w = f (d.region w) := by
  simp [Die.updRegion, Die.region, h]
theorem Die.updRegion_other (d : Die) (w i : Nat) (f : Region → Region) (h : i ≠ w) :
    (d.updRegion w f).region i = d.region i := by
  simp [Die.updRegion, Die.region, Ne.symm h]

end Sys2Proof.Machine
end

