-- ==== Sys2Proof/Laws/Wire.lean ====
section
/-! SUPPORT. The wire code of a Mirrad lane: a receiver reads from the groups of a frame the bytes that were sent. -/

namespace Sys2Proof.Machine

set_option maxRecDepth 100000

/-- A data group reads as its byte at the running disparity it was made at. -/
@[simp] theorem decodeGroup_codeGroup : ∀ (rd : Bool) (b : Byte), decodeGroup rd (codeGroup rd false b).1 = some b := by
  decide +kernel

/-- A data group is no EOF at its disparity, and no SOF at either. -/
theorem codeGroup_data : ∀ (rd : Bool) (b : Byte), (codeGroup rd false b).1 ≠ (codeGroup rd true chEof.2).1 ∧
    (codeGroup rd false b).1 ≠ (codeGroup false true chSof.2).1 ∧
    (codeGroup rd false b).1 ≠ (codeGroup true true chSof.2).1 := by
  decide +kernel

/-- The groups of bytes and an EOF add these bytes to a frame. -/
theorem receiveGroups_data (b : List Byte) : ∀ (rd : Bool) (n : Nat) (x : Received), x.bytes.length + b.length ≤ 524 →
    receiveGroups rd n x (codeGroups rd (b.map (fun v => (false, v)) ++ [chEof])) = { x with bytes := x.bytes ++ b } := by
  induction b with
  | nil => intro rd n x _; simp [codeGroups, receiveGroups, chEof]
  | cons v b ih =>
    intro rd n x h
    simp only [List.length_cons] at h
    have hd := codeGroup_data rd v
    simp only [List.map_cons, List.cons_append, codeGroups]
    rw [receiveGroups]
    simp only [if_neg hd.1, if_neg hd.2.1, if_neg hd.2.2, if_neg (show ¬ x.bytes.length = 524 by omega), decodeGroup_codeGroup]
    rw [ih _ _ _ (by simp only [List.length_append, List.length_cons, List.length_nil]; omega)]
    simp

/-- What is sent is received, from its SOF on (R352, R354). -/
theorem received_wireGroups (b : List Byte) (h : b.length ≤ 524) : received (wireGroups 0 b) = { bytes := b } := by
  unfold wireGroups received
  simp only [List.replicate_zero, List.nil_append, List.cons_append, codeGroups]
  have hs : (codeGroup false chSof.1 chSof.2) = (codeGroup false true chSof.2) := rfl
  rw [hs, if_pos rfl, receiveGroups_data b _ _ _ (by simpa using h)]
  simp

end Sys2Proof.Machine
end

