-- ==== Sys2Proof/Tests/Slice0.lean ====
section
/-! SUPPORT. Tests of the model's functions against the worked examples of the spec, and for every obligation with
hypotheses a state and operands that meet them, clause by clause. -/

set_option maxRecDepth 100000
set_option linter.unusedVariables false
set_option Elab.async false

open Sys2Proof Sys2Proof.Machine

namespace Sys2Proof.Tests

/-! Well-formedness: for each check a term that it refuses. -/

theorem test_wf_announce : (Instr.nodeAnnounceRx .a 0 [1, 2, 3, 4, 5] []).wf = false := by decide
theorem test_wf_pmod : (Instr.pmod .a 0 ⟨1, .plain⟩).wf = false := by decide
theorem test_wf_qmac : (Instr.qmac .a 0 false 1 ⟨1, .offset 4⟩).wf = false := by decide
theorem test_wf_qmsu : (Instr.qmsu .a 0 false 1 ⟨1, .postImm 4096⟩).wf = false := by decide
theorem test_wf_dmac : (Instr.dmac .a 0 false false 1 ⟨1, .offset 4⟩).wf = false := by decide
theorem test_wf_dmsu : (Instr.dmsu .a 0 false false 1 ⟨1, .postImm 4096⟩).wf = false := by decide
theorem test_wf_nst : (Instr.nst .a 0 1 3 ⟨1, .offset 512⟩).wf = false := by decide
theorem test_wf_mfs : (Instr.mfs .a 0 1 0x28).wf = false := by decide
theorem test_wf_mts : (Instr.mts .a 0 0x24 1).wf = false := by decide
theorem test_wf_branch : (Instr.branch .a 0 15 3).wf = false := by decide
theorem test_wf_reply : (Instr.replyRx .a 0 0 (List.replicate 527 0)).wf = false := by decide
theorem test_wf_acycReply : (Instr.acycReplyRx .a 0 0 (List.replicate 527 0)).wf = false := by decide
theorem test_wf_invalid : (Instr.frameRxInvalid .a 0 (List.replicate 527 0)).wf = false := by decide
theorem test_wf_beacon : (Instr.beaconRx .a 0 0 (List.replicate 13 0)).wf = false := by decide
theorem test_wf_startup : (Instr.startupRx .a 0 (List.replicate 13 0)).wf = false := by decide
theorem test_wf_poll : (Instr.pollRx .a 0 (List.replicate 13 0)).wf = false := by decide
theorem test_wf_retpoll : (Instr.retpollRx .a 0 (List.replicate 13 0)).wf = false := by decide
theorem test_wf_acyc : (Instr.acycRx .a 0 (List.replicate 13 0)).wf = false := by decide
theorem test_wf_idle : (Instr.idleRx .a 0 (List.replicate 13 0)).wf = false := by decide
theorem test_wf_can : (Instr.canFrameRx .a 0 ⟨0, 0, List.replicate 65 0⟩ 0).wf = false := by decide
theorem test_wf_eth : (Instr.ethFrameRx .a 0 (List.replicate 13 0) true 0).wf = false := by decide
theorem test_wf_ptpTx : (Instr.ptpEventTx .a 0 [1] 2 false 0).wf = false := by decide
theorem test_wf_selftest : (Instr.selftestDone .a 15 1023 true).wf = false := by decide
theorem test_wf_silent : (Instr.dataPathSilent .a 15 1023).wf = false := by decide
theorem test_wf_unitReset : (Instr.unitResetComplete .a 15 1023).wf = false := by decide
theorem test_wf_holder : (Instr.holderSilent .a (List.replicate 17 0)).wf = false := by decide
theorem test_wf_register : (Instr.registerWrite .a .pcie 0x1002 0 15).wf = false := by decide
theorem test_wf_bar2 : (Instr.bar2Access .a .pcie 0 0 none).wf = false := by decide
theorem test_wf_bar2_data : (Instr.bar2Access .a .pcie 0 4 (some [])).wf = false := by decide
theorem test_wf_cellView : (Instr.cellViewAccess .a 0x1002 none false).wf = false := by decide
theorem test_wf_smbRead : (Instr.smbRead .a 4 0 256 true).wf = false := by decide
theorem test_wf_smbWrite : (Instr.smbWrite .a 256 0 [] true).wf = false := by decide
theorem test_wf_dma (l : List Byte) (h : 16777216 < l.length) : (Instr.dmaDone .a 0 l 0).wf = false :=
  decide_eq_false (by omega)

/-! The worked examples of the spec, each against the function that it is about. -/

/-- 01 after R34: CL06.E2, CL06.E4 on die B, J045. -/
theorem test_uid : uid 0 0 32 = 0x0020 ∧ uid 1 0 34 = 0x4022 ∧ uidJoint 45 = 0xAC2D := by decide
/-- 02 after R57: the relaxation factor. -/
theorem test_s16e8 : s16e8 0xCCCD0000 = 52429 / 32768 ∧ s16e8 0x831200F6 = 33554 / 33554432 := by decide +kernel
/-- The three-arm template of 02, after R77. -/
def threeArms : Tmpl :=
  { n := 448, m := 832, mv := 96, h := 8, ns := 54, nt := 16, rs := 90, rt := 16, vfmt := 16, resid := true, warm := true
    iterCap := 600, checkInt := 8, shift := 1, deadlineNs := 800000, epsAbs := 0, epsRel := 0, rho0 := 0, rho1 := 0
    sigma := 0, alpha := 0, npb := 14, nab := 64, rhoInit := 0, sig := 0, fmt := []
    pmap := (List.range 256).map fun i => decide (i / 16 = i % 16 ∧ i / 16 < 14)
    amap := (List.range 512).map fun i => decide (i % 16 < if i / 16 < 18 then 3 else if i / 16 < 23 then 2 else 0) }
theorem test_template : threeArms.nb = 14 ∧ threeArms.mf = 23 ∧ threeArms.kb = 3 ∧ threeArms.mb = 26 := by decide
theorem test_cycles : threeArms.solveCycles false true 40 = 56120 ∧ threeArms.solveCycles true true 40 = 92686 ∧
    threeArms.factCycles = 7296 + 29270 := by decide +kernel
/-- 09 after R305: narrowing by 16. -/
theorem test_narrow : [0x18000, 0x28000, -0x18000, -0x28000].map (narrowInt false · 16) = [2, 2, -2, -2] ∧
    [0x18000, 0x28000, -0x18000, -0x28000].map (narrowInt true · 16) = [1, 2, -2, -3] := by decide +kernel
/-- 09 after R309: the history buffer, steps 1, 2, 4 and 5. -/
theorem test_postmod : postmod 0x1020 0x1000 40 8 = 0x1000 ∧ postmod 0x1000 0x1000 40 8 = 0x1008 ∧
    postmod 0x1018 0x1000 24 8 = 0x1008 ∧ postmod 0x1008 0x1000 24 8 = 0x1010 := by decide
/-- 12 after R381: occupancy of the entries; 11 and 15: how long frames last. -/
theorem test_schedule : ([⟨400, 1, 0, 64, 96, 250⟩, ⟨2700, 2, 0, 64, 96, 250⟩, ⟨5000, 1, 1, 64, 0, 0⟩, ⟨6736, 0, 2, 12, 12, 250⟩] :
    List SchedEntry).map (schedEnd 2) = [10520, 19720, 23200, 30424] ∧ frameNs 2 16 = 1280 ∧ frameNs 2 24 = 1600 := by decide
/-- 19 after R581: the SMBus address of die B with ADDR_SEL = 3. -/
theorem test_smb : smbAddress 3 .b = 0x67 := by decide
/-- 20 after R602: the record of a die takeover in cycle 100,000. -/
theorem test_record : (ErrRec.toWord { sev := .warn, uid := 0xBC00, code := 0xE2, cyc := 100000 }) = 0x20BC00E2000186A0 := by decide
/-- 21 after R622: balls of three signals. -/
theorem test_balls : Sig.ball false (.saIn 4 0) = (2, 17) ∧ Sig.ball false (.saIn 4 1) = (3, 17) := by decide
/-- The published check values of CRC-32C and CRC-64/XZ over "123456789" (R63, R314). -/
theorem test_crc : crc32c [0x31, 0x32, 0x33, 0x34, 0x35, 0x36, 0x37, 0x38, 0x39] = 0xE3069283 ∧
    crc64xz [0x31, 0x32, 0x33, 0x34, 0x35, 0x36, 0x37, 0x38, 0x39] = 0x995DC9BBDF1939FA := by decide +kernel
/-- FIPS 197: SubBytes of 0x53, and the product of 0x57 and 0x83. FIPS 180-4: the first start value of SHA-256. -/
theorem test_crypto : aesSub 0x53 = 0xED ∧ gfMul 0x57 8 0x83 = 0xC1 ∧ rootFrac 2 32 2 = 0x6A09E667 := by decide +kernel
/-- 8b/10b groups as published: K28.5, K29.7, D21.5 and D0.0 at negative disparity, K28.5 at positive (R352, R353). -/
theorem test_groups : codeGroup false true 0xBC = (0b0011111010, true) ∧ (codeGroup false true 0xFD).1 = 0b1011101000 ∧
    codeGroup false false 0xB5 = (0b1010101010, false) ∧ (codeGroup false false 0x00).1 = 0b1001110100 ∧
    (codeGroup true true 0xBC).1 = 0b1100000101 := by decide +kernel
/-- Engine words written out from R329: NOP, TIME x1, ADD x1, x2, x3. -/
theorem test_words : decodeEng 0xD0000000 = some .nop ∧ decodeEng 0xC0400000 = some (.time 1) ∧ decodeEng 0x0048C001 = some (.add 1 2 3) ∧
    decodeEng 0 = none := by decide

/-! The states in which the hypotheses are met. -/

/-- A die that serves: firmware runs, every domain is ON, an image is in force. -/
def liveDie (id : DieId) : Die :=
  { id := id, boot := { phase := .complete }, pwr := { doms := Vector.replicate 36 { state := .on, req := 2, closed := true } },
    clk := { sel := true, selReq := true, lock := true, pllEn := true, pllRunning := true, irc := true },
    img := { state := .running }, red := { linkUp := true, degraded := false },
    time := { cycRun := true, nominal := 31250, cyc := 5, ns := 1000 } }

/-- Die A holds the grant, die B stands by. -/
def live : State :=
  { a := { liveDie .a with red := { linkUp := true, degraded := false, grant := true, live := true, gateOpen := true, tk := .duty } },
    b := liveDie .b, pkg := {}, pending := [] }

/-- The state with die A rewritten. -/
def onA (f : Die → Die) : State := live.upd .a f

/-- Engine 0 of die A runs its own role, with the engine rewritten. -/
def eng0 (f : Engine → Engine) : State :=
  onA fun d => ({ d with eng := vupd d.eng 0 fun g => f { g with running := true, role := 0, pc := 7 } }).updUnit 0 0
    fun u => { u with state := .active }
/-- Engine 0 with registers x2 and x3, accumulators 1 and 2, and EMODE.SAT. -/
def regs0 (x2 x3 : W32) (a1 a2 : BitVec 72) (sat rnd : Bool) : State := eng0 fun g =>
  { g with regs := { g.regs with x := vset (vset g.regs.x 2 x2) 3 x3, acc := vset (vset g.regs.acc 1 a1) 2 a2, sat := sat, rnd := rnd } }

/-- Engine 0 with pointer 4 at `p` of a buffer of `l` bytes at `b`, words in its data partition, x2 and accumulators. -/
def mem0 (p b l : BitVec 20) : State :=
  (eng0 fun g => { g with regs := { g.regs with
    p := vset g.regs.p 4 p, b := vset g.regs.b 4 b, l := vset g.regs.l 4 l, m := vset g.regs.m 5 0xFFFF0
    x := vset (vset g.regs.x 2 0x80000001) 3 0x12345
    acc := vset (vset g.regs.acc 1 0x7FFFFFFFFFFFFFFFFF) 2 0x123456789A } }).upd .a fun d =>
  { d with sram := (((d.sram.putWord (dataBase 0 + 0x100) 0x80000000).putWord (dataBase 0 + 0x104) 0x7FFFFFFF).putWord
      (dataBase 0 + 0x108) 5).putWord (dataBase 0 + 0x10C) 0xFFFFFFF0 }

/-- A port binding of role 0: port 2 on queue 9. -/
def portBind (consumer : Bool) : PortBind :=
  { eng := 0, port := 2, queue := 9, consumer := consumer, waitNs := 5000, tofs := 1, fStart := none, entries := 1 }
/-- Queue 9 holds a committed group for cycle 5. -/
def entry9 : QEntry := { epoch := 0, tgt := 5, commit := true, last := true, payload := [0xAA, 0xBB] }
def port0 (consumer : Bool) (q : Queue → Queue) (f : Engine → Engine) : State :=
  (eng0 fun g => f { g with regs := { g.regs with rcyc := 5, x := vset g.regs.x 3 0x77 } }).upd .a fun d =>
    ({ d with img := { d.img with ports := [portBind consumer] } }).updQueue 9 fun _ =>
      q { used := true, depth := 8, words := 2, lookout := 4, hc := 2, cap := 8, grant := 8 }
/-- A claim of engine 4 for role 0. -/
def take0 : EngTake := { role := 0, fromEng := 0, toEng := 4, cyc := 5, cross := false, drain := false }
/-- Region 2 of die A, rewritten. -/
def rgn2 (f : Region → Region) : State := onA fun d => { d with regions := vset d.regions 2 (f {}) }
/-- The same with one byte of its template record written. -/
def rgn2w (a : Nat) (v : BitVec 8) (f : Region → Region) : State :=
  (rgn2 f).upd .a fun d => { d with sram := ⟨[(storeBase 2 + a + 1, v)]⟩ }
/-- A solve for a period, armed. -/
def sq (p : W32) (spec : Bool) : SolveRun := { period := p, spec := spec, refactorCmd := false, vbank := false }
/-- Region 2 in a solve of period 7, by a template of `n` variables with ITERCAP 1, a deadline of 51,200 ns and
SIGMA of the top byte `g` and exponent 120. -/
def slv (n g : BitVec 8) (q : SolveRun) : State :=
  (rgn2 fun r => { r with period := 7, state := .solving, tj := 1000, run := some q }).upd .a fun d =>
    { d with sram := ⟨[(storeBase 2, n), (storeBase 2 + 0x10, 1), (storeBase 2 + 0x15, 200), (storeBase 2 + 0x28, 120),
                       (storeBase 2 + 0x2B, g)].filter fun c => c.2 ≠ 0⟩ }
/-- A sensor payload without points: sensor, flags, SEQ; TS 1000; the tag under an all-zero key. -/
def sensPay (k flags seq : BitVec 8) : List (BitVec 8) :=
  let b : List (BitVec 8) := [1, k, 0, flags, seq, 0, 0, 0, 0xE8, 3, 0, 0, 5, 0, 0, 0]
  b ++ aesCmac (List.replicate 16 0) b
/-- Sensor 3 of die A: used, keyed, MAXAGE 5,000 ns. -/
def sens3 (f : Sensor → Sensor) : State := onA fun d => { d with sep := { d.sep with
  geom := { sensors := [{ sensor := 3, maxAge := 5000, c := 0, zd := 0 }] }
  sensors := vset d.sep.sensors 3 (f { state := .absent, key := some (List.replicate 16 0) }) } }
/-- The monitor of die A runs over arm 1 of region 0, which has no links. -/
def sep1 (f : Sep → Sep) : State := onA fun d => { d with sep := f { d.sep with
  state := .run
  geom := { arms := [{ arm := 1, region := 0, zr := 0, baseTrans := ⟨0, 0, 0⟩, baseRot := ⟨2 ^ 30, 0, 0, 0⟩,
                       links := [], caps := [], envelope := ⟨⟨0, 0, 0⟩, ⟨0, 0, 0⟩, 0⟩ }] } } }
/-- Queue 9 of die A, declared with 8 entries of 2 words. -/
def q9 (f : Queue → Queue) : State := onA fun d => d.updQueue 9 fun _ =>
  f { used := true, depth := 8, words := 2, lookout := 4, hc := 2, cap := 8, grant := 8 }
/-- Joint 5 of die A, used. -/
def jnt5 (f : Joint → Joint) : State := onA fun d => { d with joints := vset d.joints 5 (f { used := true, cfg := { arm := 1, cluster := 0, engine := 0 } }) }
/-- Joints 5 and 6 of one arm, joint 7 of another. -/
def arm2 (f g : Joint → Joint) : State := (jnt5 f).upd .a fun d => { d with
  joints := vset (vset d.joints 6 (g { used := true, cfg := { arm := 1, slot := 1 } })) 7 { used := true, cfg := { arm := 2, engine := 1 } }
  axes := vset d.axes 3 { state := .rest, vt := 5, cfg := { bind := true, arm := 1 } } }
/-- Joint 5 with queue 9 as its PG queue. -/
def pg5 (f : Joint → Joint) : State := (jnt5 f).upd .a fun d => d.updQueue 9 fun _ =>
  { used := true, cls := .pg, prod := uidJoint 5, depth := 8, words := 4, lookout := 4, hc := 2, cap := 8, grant := 8 }
/-- Joint 5 of class F with queue 9 as the TX queue of its role on lane 2. -/
def tx5 (f : Queue → Queue) : State := (jnt5 fun x => { x with cfg := { x.cfg with classF := true, lane := 2 } }).upd .a fun d =>
  d.updQueue 9 fun _ => f { used := true, cls := .tx, prod := roleUid 0, cons := uid 0 6 2, depth := 8, words := 1, lookout := 4, hc := 2, cap := 8, grant := 8 }
/-- Axis 3 of die A. -/
def ax3 (f : Axis → Axis) : State := onA fun d => { d with axes := vset d.axes 3 (f { state := .rest }), pwm := { d.pwm with top := 100 } }
/-- Limits of axis 3 in use, and its registers. -/
def lim3 : AxLimits := { vstart := 2 ^ 36, v1 := 2 ^ 40, vmax := 2 ^ 42, a1 := 2 ^ 30, a2 := 2 ^ 31, d1 := 2 ^ 30, d2 := 2 ^ 31, dstop := 2 ^ 33, floor := 2 ^ 38 }
def reg3 : AxRegs := { vmax := 1000, v1 := 0, a2 := 5, d2 := 5, dstop := 5, homeVfast := 900, homeVslow := 100, homeBackoff := 20, homeOffset := 1000 }
/-- Axis 3 with queue 9 as its PW queue, which holds one committed word for cycle 5. -/
def pw3 (w : W32) (f : Axis → Axis) : State := (ax3 f).upd .a fun d => d.updQueue 9 fun _ =>
  { used := true, cls := .pw, cons := d.uidAxis 3, depth := 8, words := 1, lookout := 4, hc := 2, cap := 8, grant := 8
    ring := [{ epoch := 0, tgt := 5, commit := true, last := true, payload := [w] }] }
/-- A record that uses the ball of a shared signal; both dies with such records. -/
def ball (s : Sig) : BallRec := { row := (s.ball false).1, col := (s.ball false).2, use := true, pull := 0, drive := 0, fast := false, rsvd := 0 }
def useBalls (l : List Sig) (s : State) : State := s.both fun d => { d with img := { d.img with pins := { d.img.pins with balls := l.map ball } } }
/-- Input 2 of die A with its pins in use, which have stood at `pins` for longer than the filter time. -/
def sfe (pins : BitVec 8) (s : State) (f : SafeIn → SafeIn) : State :=
  useBalls [.safeIn 2 false, .safeIn 2 true] (s.upd .a fun d =>
    ({ d with real := 200000, safe := { d.safe with pins := pins } }).updSafe 2 fun x => f { x with en := true })
/-- Die A with time port 1 used by the image, and the port rewritten. -/
def eth1 (f : Die → Die) : State := onA fun d => f { d with img := { d.img with pins := { d.img.pins with eths := [1] } } }
/-- Axis 3 with its input balls in use. -/
def axin (f : Axis → Axis) : State := useBalls [.saIn 3 0, .saIn 3 1, .saIn 3 2, .saFlt 3] (ax3 fun x => f { x with debounce := 0 })
/-- Port 3 of die A in INC mode, and in SSI mode with words of 10 bits. -/
def inc3 (f : Enc → Enc) : State := live.both fun d => { d with encs := vset d.encs 3 (f { state := .run, cfg := { mode := 1, errLimit := 3 } }) }
/-- The same with the ball of ENC03_A in use. -/
def pin3 (f : Enc → Enc) : State := (inc3 f).both fun d => { d with img := { d.img with
  pins := { balls := [{ row := 48, col := sigColumn 6, use := true, pull := 0, drive := 0, fast := false, rsvd := 0 }] } } }
def ssi3 (f : Enc → Enc) : State := onA fun d => { d with encs := vset d.encs 3 (f { state := .sync, cfg := { mode := 2, len := 10, errLimit := 3 } }) }
/-- Port 3 of both dies with an emulator on the way to its target. -/
def emu3 (f : Enc → Enc) : State := live.both fun d => { d with encs := vset d.encs 3 (f
  { state := .run, cfg := { mode := 2, pt := 2, len := 10, emuLines := 8, emuDiv := 20 }, emuOn := true, emuC := 3, unwrapped := 500, emuN := 30 }) }
/-- Lane 2 of die A, a head in full service that drives. -/
def head2 : Lane :=
  { state := .head, session := some 2, epoch := 7, laneOfs := 1, cfg := { rank := 1, preN := 2, beaconOfs := 25, schedId := 0x11223344, sched := [
    { offset := 400, node := 3, cls := 0, pollLen := 8, replyLen := 12, deadline := 500 },
    { offset := 900, node := 3, cls := 1, pollLen := 8, replyLen := 0, deadline := 0 },
    { offset := 1400, node := 0, cls := 2, pollLen := 24, replyLen := 24, deadline := 600 },
    { offset := 1900, node := 0, cls := 3, pollLen := 4, replyLen := 0, deadline := 0 }] } }
def mb2 (f : Lane → Lane) : State := onA fun d =>
  { (d.updUnit 6 2 fun u => { u with state := .active }) with
    lanes := vset d.lanes 2 (f head2), img := { d.img with pins := { d.img.pins with lanes := [2] } } }
/-- Joint 5 is the one joint of node 3 of lane 2, with queue 9 as the TX queue of its role. -/
def mbj (f : Lane → Lane) (g : Queue → Queue) : State := (mb2 f).upd .a fun d =>
  ({ d with joints := vset d.joints 5 { used := true, en := true, cfg := { arm := 1, lane := 2, node := 3, jidx := 1 } } }).updQueue 9 fun _ =>
    g { used := true, cls := .tx, prod := roleUid 0, cons := uid 0 6 2, depth := 8, words := 1, lookout := 4, hc := 2, cap := 8, grant := 8 }
/-- A head waits for the reply of node 3, and for that of its acyclic request; a frame between SOF and EOF. -/
def wait2 (acyc : Bool) (f : Lane → Lane) : State := mb2 fun x => f { x with
  waiting := some { slot := 0, seq := 9, node := 3, acyc := acyc, replyLen := 12, deadline := 500, eof := 900, queued := acyc } }
def req3 : AcycReq := { op := 1, node := 3, obj := 1, sub := 0, ofs := 0, data := [], count := 2, own := false, sends := 1, seq := 9 }
def ans (type flags : Nat) (epoch : BitVec 8) (p : List (BitVec 8)) : List (BitVec 8) := makeFrame type 0 0 9 flags epoch p
def ansf (type flags : Nat) (epoch : BitVec 8) (p : List (BitVec 8)) : MbFrame :=
  { type := type, dest := 0, slot := 0, seq := 9, flags := flags, epoch := epoch, payload := p }
/-- Lane 2 of die A as node 3 of another head's lane; a beacon of lane cycle `c` in epoch 7. -/
def nod2 (f : Lane → Lane) : State := mb2 fun x => f { x with
  state := .node, nodeSt := .joined, session := none, lastEof := 0xFFFFF000, lastCyc := 70, lastStart := 900, cfg := { x.cfg with node := true, addr := 3, sched := [] } }
def beac (epoch : BitVec 8) (start c : W32) : List (BitVec 8) :=
  makeFrame 1 0xFF 0 0 0 epoch (leBytes 4 c.toNat ++ leBytes 4 start.toNat ++ leBytes 2 80 ++ [0, 2] ++ leBytes 4 0x11223344)
def beacf (epoch : BitVec 8) (start c : W32) : MbFrame := readFrame (beac epoch start c)
/-- The code groups of a frame from its SOF on; with one group that is none of the code. -/
def wir (b : List (BitVec 8)) : List (BitVec 10) := wireGroups 0 b
def wirBad (b : List (BitVec 8)) : List (BitVec 10) := (wir b).set 3 0
/-- Controller 1 of die A, error active, on the bus. -/
def can1 (f : Can → Can) : State := onA fun d =>
  { (d.updUnit 7 1 fun u => { u with state := .active }) with
    cans := vset d.cans 1 (f { st := .active }), img := { d.img with pins := { d.img.pins with cans := [1] } } }
/-- A base frame of two bytes; a filter for it; buffer 2 pending and on the bus. -/
def cfr : CanFrame := { id := 0x123 <<< 18, fmt := 2, data := [0xAA, 0xBB] }
def flt5 : CanCfg := { filters := vset (Vector.replicate 32 {}) 5 { id := 0x80000000 ||| (0x123 <<< 18), mask := 0x1FFC0000 } }
def txb (fmt : BitVec 7) : TxBuf := { id := 0x123 <<< 18, fmt := fmt, data := List.replicate 64 7, pending := true }
def can1t (fmt : BitVec 7) (f : Can → Can) : State := can1 fun c => f { c with bufs := vset c.bufs 2 (txb fmt), offer := .buf 2 }
/-- CAN controller 1 of die A as the unit of RED_UNIT_SEL, rewritten; engine 3 with a role, drained to spare 4. -/
def sel71 (f : UnitRec → UnitRec) : State := onA fun d =>
  ({ d with red := { d.red with sel := uid 0 7 1 } }).updUnit 7 1 fun u => f { u with state := .standby }
def selE : State := onA fun d =>
  ({ (({ d with eng := vupd d.eng 3 fun g => { g with role := roleUid 3 } }).updUnit 0 3 fun u => { u with state := .active }) with
    red := { (d.updUnit 0 3 fun u => { u with state := .active }).red with sel := uid 0 0 3 } }).updUnit 0 4 fun u => { u with state := .standby }
/-- Die B in a takeover of cycle 5: its state, its view of the holder, and where in cycle 6 it stands. -/
def tkB (tk : TkState) (at' : W32) (f : Red → Red) : State := live.upd .b fun d =>
  { d with
    red := f { d.red with tk := tk, silentAt := 5, hbSeen := true, hbLast := 4, fit := true }
    time := { d.time with cyc := 6, start := 0, ns := at', nominal := 31250 } }
/-- An image unit in CHECK of an empty flash, and in PLACE of a push. -/
def chk (f : ImageUnit → ImageUnit) : State := onA fun d => { d with img := f { d.img with state := .check } }
def plc (f : ImageUnit → ImageUnit) : State := onA fun d => { d with time := { d.time with cycRun := false }, img := f { d.img with state := .place } }
def stg : State := live.both fun d => { d with img := { d.img with state := .staged, stagedId := [1], staged := [] } }
/-- An update of one DATA section: four bytes at 0x40 of the data partition of role 0. -/
def upd1 : List (BitVec 8) :=
  List.replicate 6 0 ++ [1] ++ List.replicate 9 0 ++ [1] ++ List.replicate 111 0 ++ [6, 0, 0, 0, 160, 0, 0, 0, 4, 0, 0, 0, 0, 0, 0, 0, 0x40, 0] ++
    List.replicate 14 0 ++ [1, 2, 3, 4]
def apl (st : List (BitVec 8)) (k : W32) : State := (eng0 fun g => g).both fun d =>
  { d with img := { d.img with state := .applying, staged := st, stagedId := [1], applyK := k } }
/-- Die A in a phase of its start. -/
def boo (p : BootPhase) (f : Die → Die) : State := onA fun d =>
  f { d with boot := { d.boot with phase := p }, red := { d.red with grant := false, live := false, gateOpen := false } }
/-- A domain of die A rewritten; the same on the IRC, with nothing but AON, FAB and KEEP on. -/
def dmn (i : Nat) (f : Domain → Domain) : State := onA fun d => d.updDom i f
def irc (f : Die → Die) : State := onA fun d => f { d with
  clk := { irc := true }
  pwr := { d.pwr with doms := vmap d.pwr.doms fun i m => if i = 1 ∨ i = 27 then m else {} } }
/-- A read of eight bytes of the SRAM of cluster 3, which is domain 5. -/
def acc5 : Stalled := { initiator := .pcie, src := .pcie, bar2 := true, addr := 0x020C0108, len := 8, data := none }
/-- A domain of die A that wakes, with no image in force. -/
def wkg (i : Nat) : State := (dmn i fun m => { m with state := .waking, closed := true, lost := true, attempts := 2 }).upd .a fun d => { d with img := {} }
/-- A read and a write of SYS_CV_CFG through the cell view. -/
def cvr : CvAccess := { off := 0x20, data := none }
def cvw : CvAccess := { off := 0x20, data := some 300 }
def hst (f : HostIf → HostIf) : State := onA fun d => { d with host := f d.host }
/-- No die holds the grant. -/
def nobody (f : HostIf → HostIf) : State := (hst f).upd .a fun d => { d with red := { d.red with grant := false, gateOpen := false } }
/-- A region of die A in a solve that has started. -/
def solving : State := onA fun d => { d with regions := vset d.regions 2 { run := some { sq 5 false with started := true } } }
def qsp (f : Qspi → Qspi) : State := onA fun d => { d with qspi := f d.qspi }
/-- Channel 2 of die A. -/
def dm2 (f : Dma → Dma) : State := onA fun d => { d with dma := vupd d.dma 2 f, sram := ⟨[(0x101, 7), (0x103, 9)]⟩ }

/-! Witnesses, in the order of the obligations. -/

/-- The hypotheses of each clause of `EngineAluRegister` can be met. -/
theorem wit_EngineAluRegister :
   (let d : DieId := .a
    let e : Fin 80 := 0
    let xd : Fin 16 := 1
    let xa : Fin 16 := 2
    let xb : Fin 16 := 3
    let s : State := (regs0 0x7FFFFFFF 1 5 6 true false)
    ((s.die d).issues e (.add xd xa xb) = true)) ∧
   (let d : DieId := .a
    let e : Fin 80 := 0
    let xd : Fin 16 := 1
    let xa : Fin 16 := 2
    let xb : Fin 16 := 3
    let s : State := (regs0 0x7FFFFFFF 1 5 6 true false)
    ((s.die d).issues e (.sub xd xa xb) = true)) ∧
   (let d : DieId := .a
    let e : Fin 80 := 0
    let xd : Fin 16 := 1
    let xa : Fin 16 := 2
    let xb : Fin 16 := 3
    let s : State := (regs0 0x7FFFFFFF 1 5 6 true false)
    ((s.die d).issues e (.and xd xa xb) = true)) ∧
   (let d : DieId := .a
    let e : Fin 80 := 0
    let xd : Fin 16 := 1
    let xa : Fin 16 := 2
    let xb : Fin 16 := 3
    let s : State := (regs0 0x7FFFFFFF 1 5 6 true false)
    ((s.die d).issues e (.or xd xa xb) = true)) ∧
   (let d : DieId := .a
    let e : Fin 80 := 0
    let xd : Fin 16 := 1
    let xa : Fin 16 := 2
    let xb : Fin 16 := 3
    let s : State := (regs0 0x7FFFFFFF 1 5 6 true false)
    ((s.die d).issues e (.xor xd xa xb) = true)) ∧
   (let d : DieId := .a
    let e : Fin 80 := 0
    let xa : Fin 16 := 2
    let xb : Fin 16 := 3
    let s : State := (regs0 0x7FFFFFFF 1 5 6 true false)
    ((s.die d).issues e (.cmp xa xb) = true)) ∧
   (let d : DieId := .a
    let e : Fin 80 := 0
    let xd : Fin 16 := 1
    let xa : Fin 16 := 2
    let xb : Fin 16 := 3
    let s : State := (regs0 0x7FFFFFFF 1 5 6 true false)
    ((s.die d).issues e (.min xd xa xb) = true)) ∧
   (let d : DieId := .a
    let e : Fin 80 := 0
    let xd : Fin 16 := 1
    let xa : Fin 16 := 2
    let xb : Fin 16 := 3
    let s : State := (regs0 0x7FFFFFFF 1 5 6 true false)
    ((s.die d).issues e (.max xd xa xb) = true)) ∧
   (let d : DieId := .a
    let e : Fin 80 := 0
    let xd : Fin 16 := 1
    let xa : Fin 16 := 2
    let s : State := (regs0 0x7FFFFFFF 1 5 6 true false)
    ((s.die d).issues e (.abs xd xa) = true)) ∧
   (let d : DieId := .a
    let e : Fin 80 := 0
    let xd : Fin 16 := 1
    let xa : Fin 16 := 2
    let s : State := (regs0 0x7FFFFFFF 1 5 6 true false)
    ((s.die d).issues e (.neg xd xa) = true)) ∧
   (let d : DieId := .a
    let e : Fin 80 := 0
    let xd : Fin 16 := 1
    let xa : Fin 16 := 2
    let s : State := (regs0 0x7FFFFFFF 1 5 6 true false)
    ((s.die d).issues e (.mov xd xa) = true)) := by
  refine ⟨?_, ?_, ?_, ?_, ?_, ?_, ?_, ?_, ?_, ?_, ?_⟩ <;> (try dsimp only [Die.readable, Die.busReadable]) <;> decide +kernel

/-- The hypotheses of each clause of `EngineShiftImmediate` can be met. -/
theorem wit_EngineShiftImmediate :
   (let d : DieId := .a
    let e : Fin 80 := 0
    let xd : Fin 16 := 1
    let xa : Fin 16 := 2
    let xb : Fin 16 := 3
    let s : State := (regs0 0x7FFFFFFF 1 5 6 true false)
    ((s.die d).issues e (.sll xd xa xb) = true)) ∧
   (let d : DieId := .a
    let e : Fin 80 := 0
    let xd : Fin 16 := 1
    let xa : Fin 16 := 2
    let xb : Fin 16 := 3
    let s : State := (regs0 0x7FFFFFFF 1 5 6 true false)
    ((s.die d).issues e (.sra xd xa xb) = true)) ∧
   (let d : DieId := .a
    let e : Fin 80 := 0
    let xd : Fin 16 := 1
    let xa : Fin 16 := 2
    let xb : Fin 16 := 3
    let s : State := (regs0 0x7FFFFFFF 1 5 6 true false)
    ((s.die d).issues e (.srl xd xa xb) = true)) ∧
   (let d : DieId := .a
    let e : Fin 80 := 0
    let xd : Fin 16 := 1
    let xa : Fin 16 := 2
    let sh : BitVec 6 := 5
    let s : State := (regs0 0x7FFFFFFF 1 5 6 true false)
    ((s.die d).issues e (.slli xd xa sh) = true)) ∧
   (let d : DieId := .a
    let e : Fin 80 := 0
    let xd : Fin 16 := 1
    let xa : Fin 16 := 2
    let sh : BitVec 6 := 5
    let s : State := (regs0 0x7FFFFFFF 1 5 6 true false)
    ((s.die d).issues e (.srai xd xa sh) = true)) ∧
   (let d : DieId := .a
    let e : Fin 80 := 0
    let xd : Fin 16 := 1
    let xa : Fin 16 := 2
    let sh : BitVec 6 := 5
    let s : State := (regs0 0x7FFFFFFF 1 5 6 true false)
    ((s.die d).issues e (.srli xd xa sh) = true)) ∧
   (let d : DieId := .a
    let e : Fin 80 := 0
    let xd : Fin 16 := 1
    let xa : Fin 16 := 2
    let s : State := (regs0 0x7FFFFFFF 1 5 6 true false)
    ((s.die d).issues e (.expx xd xa) = true)) ∧
   (let d : DieId := .a
    let e : Fin 80 := 0
    let xd : Fin 16 := 1
    let xa : Fin 16 := 2
    let xc : Fin 16 := 4
    let s : State := (regs0 0x7FFFFFFF 1 5 6 true false)
    ((s.die d).issues e (.norm xd xc xa) = true)) ∧
   (let d : DieId := .a
    let e : Fin 80 := 0
    let xd : Fin 16 := 1
    let xa : Fin 16 := 2
    let imm : BitVec 18 := 0x3FFF0
    let s : State := (regs0 0x7FFFFFFF 1 5 6 true false)
    ((s.die d).issues e (.addi xd xa imm) = true)) ∧
   (let d : DieId := .a
    let e : Fin 80 := 0
    let xd : Fin 16 := 1
    let xa : Fin 16 := 2
    let imm : BitVec 18 := 0x3FFF0
    let s : State := (regs0 0x7FFFFFFF 1 5 6 true false)
    ((s.die d).issues e (.andi xd xa imm) = true)) ∧
   (let d : DieId := .a
    let e : Fin 80 := 0
    let xd : Fin 16 := 1
    let xa : Fin 16 := 2
    let imm : BitVec 18 := 0x3FFF0
    let s : State := (regs0 0x7FFFFFFF 1 5 6 true false)
    ((s.die d).issues e (.ori xd xa imm) = true)) ∧
   (let d : DieId := .a
    let e : Fin 80 := 0
    let xd : Fin 16 := 1
    let xa : Fin 16 := 2
    let imm : BitVec 18 := 0x3FFF0
    let s : State := (regs0 0x7FFFFFFF 1 5 6 true false)
    ((s.die d).issues e (.xori xd xa imm) = true)) ∧
   (let d : DieId := .a
    let e : Fin 80 := 0
    let xa : Fin 16 := 2
    let imm : BitVec 18 := 0x3FFF0
    let s : State := (regs0 0x7FFFFFFF 1 5 6 true false)
    ((s.die d).issues e (.cmpi xa imm) = true)) ∧
   (let d : DieId := .a
    let e : Fin 80 := 0
    let xd : Fin 16 := 1
    let imm22 : BitVec 22 := 0x3FFFF0
    let s : State := (regs0 0x7FFFFFFF 1 5 6 true false)
    ((s.die d).issues e (.movi xd imm22) = true)) ∧
   (let d : DieId := .a
    let e : Fin 80 := 0
    let xd : Fin 16 := 1
    let imm16 : BitVec 16 := 0xABCD
    let s : State := (regs0 0x7FFFFFFF 1 5 6 true false)
    ((s.die d).issues e (.movh xd imm16) = true)) := by
  refine ⟨?_, ?_, ?_, ?_, ?_, ?_, ?_, ?_, ?_, ?_, ?_, ?_, ?_, ?_, ?_⟩ <;> (try dsimp only [Die.readable, Die.busReadable]) <;> decide +kernel

/-- The hypotheses of each clause of `EngineAccumulate` can be met. -/
theorem wit_EngineAccumulate :
   (let d : DieId := .a
    let e : Fin 80 := 0
    let xd : Fin 16 := 1
    let xa : Fin 16 := 2
    let xb : Fin 16 := 3
    let sh : BitVec 6 := 4
    let s : State := (regs0 0x7FFFFFFF 3 0x7FFFFFFFFFFFFFFFFF 0xFFFFFFFFFFFFFFFF00 true false)
    ((s.die d).issues e (.muln xd xa xb sh) = true)) ∧
   (let d : DieId := .a
    let e : Fin 80 := 0
    let xa : Fin 16 := 2
    let xb : Fin 16 := 3
    let acc : Fin 4 := 1
    let z : Bool := false
    let s : State := (regs0 0x7FFFFFFF 3 0x7FFFFFFFFFFFFFFFFF 0xFFFFFFFFFFFFFFFF00 true false)
    ((s.die d).issues e (.mac false z acc xa xb) = true)) ∧
   (let d : DieId := .a
    let e : Fin 80 := 0
    let xa : Fin 16 := 2
    let xb : Fin 16 := 3
    let acc : Fin 4 := 1
    let z : Bool := false
    let s : State := (regs0 0x7FFFFFFF 3 0x7FFFFFFFFFFFFFFFFF 0xFFFFFFFFFFFFFFFF00 true false)
    ((s.die d).issues e (.mac true z acc xa xb) = true)) ∧
   (let d : DieId := .a
    let e : Fin 80 := 0
    let acc : Fin 4 := 1
    let s : State := (regs0 0x7FFFFFFF 3 0x7FFFFFFFFFFFFFFFFF 0xFFFFFFFFFFFFFFFF00 true false)
    ((s.die d).issues e (.clra acc) = true)) ∧
   (let d : DieId := .a
    let e : Fin 80 := 0
    let xa : Fin 16 := 2
    let acc : Fin 4 := 1
    let sh : BitVec 6 := 4
    let s : State := (regs0 0x7FFFFFFF 3 0x7FFFFFFFFFFFFFFFFF 0xFFFFFFFFFFFFFFFF00 true false)
    ((s.die d).issues e (.mova false acc xa sh) = true)) ∧
   (let d : DieId := .a
    let e : Fin 80 := 0
    let xa : Fin 16 := 2
    let acc : Fin 4 := 1
    let sh : BitVec 6 := 4
    let s : State := (regs0 0x7FFFFFFF 3 0x7FFFFFFFFFFFFFFFFF 0xFFFFFFFFFFFFFFFF00 true false)
    ((s.die d).issues e (.mova true acc xa sh) = true)) ∧
   (let d : DieId := .a
    let e : Fin 80 := 0
    let acc : Fin 4 := 1
    let accs : Fin 4 := 2
    let s : State := (regs0 0x7FFFFFFF 3 0x7FFFFFFFFFFFFFFFFF 0xFFFFFFFFFFFFFFFF00 true false)
    ((s.die d).issues e (.adda false acc accs) = true)) ∧
   (let d : DieId := .a
    let e : Fin 80 := 0
    let acc : Fin 4 := 1
    let accs : Fin 4 := 2
    let s : State := (regs0 0x7FFFFFFF 3 0x7FFFFFFFFFFFFFFFFF 0xFFFFFFFFFFFFFFFF00 true false)
    ((s.die d).issues e (.adda true acc accs) = true)) ∧
   (let d : DieId := .a
    let e : Fin 80 := 0
    let acc : Fin 4 := 1
    let sh : BitVec 6 := 4
    let s : State := (regs0 0x7FFFFFFF 3 0x7FFFFFFFFFFFFFFFFF 0xFFFFFFFFFFFFFFFF00 true false)
    ((s.die d).issues e (.shra acc sh) = true)) ∧
   (let d : DieId := .a
    let e : Fin 80 := 0
    let acc : Fin 4 := 1
    let sh : BitVec 6 := 4
    let s : State := (regs0 0x7FFFFFFF 3 0x7FFFFFFFFFFFFFFFFF 0xFFFFFFFFFFFFFFFF00 true false)
    ((s.die d).issues e (.shla acc sh) = true)) ∧
   (let d : DieId := .a
    let e : Fin 80 := 0
    let acc : Fin 4 := 1
    let accs : Fin 4 := 2
    let s : State := (regs0 0x7FFFFFFF 3 0x7FFFFFFFFFFFFFFFFF 0xFFFFFFFFFFFFFFFF00 true false)
    ((s.die d).issues e (.cpya acc accs) = true)) ∧
   (let d : DieId := .a
    let e : Fin 80 := 0
    let xd : Fin 16 := 1
    let acc : Fin 4 := 1
    let s : State := (regs0 0x7FFFFFFF 3 0x7FFFFFFFFFFFFFFFFF 0xFFFFFFFFFFFFFFFF00 true false)
    ((s.die d).issues e (.expxAcc xd acc) = true)) ∧
   (let d : DieId := .a
    let e : Fin 80 := 0
    let xd : Fin 16 := 1
    let acc : Fin 4 := 1
    let s : State := (regs0 0x7FFFFFFF 3 0x7FFFFFFFFFFFFFFFFF 0xFFFFFFFFFFFFFFFF00 true false)
    ((s.die d).issues e (.normAcc acc xd) = true)) ∧
   (let d : DieId := .a
    let e : Fin 80 := 0
    let xd : Fin 16 := 1
    let acc : Fin 4 := 1
    let sh : BitVec 6 := 4
    let s : State := (regs0 0x7FFFFFFF 3 0x7FFFFFFFFFFFFFFFFF 0xFFFFFFFFFFFFFFFF00 true false)
    ((s.die d).issues e (.nrw xd acc sh) = true)) := by
  refine ⟨?_, ?_, ?_, ?_, ?_, ?_, ?_, ?_, ?_, ?_, ?_, ?_, ?_, ?_⟩ <;> (try dsimp only [Die.readable, Die.busReadable]) <;> decide +kernel

/-- The hypotheses of each clause of `EngineMemory` can be met. -/
theorem wit_EngineMemory :
   (let d : DieId := .a
    let e : Fin 80 := 0
    let xd : Fin 16 := 2
    let m : MemOp := (MemOp.mk 4 .plain)
    let s : State := (mem0 0x100 0 0)
    ((s.die d).issues e (.ld xd m) = true) ∧ ((fun u => u.readable e m) (s.die d))) ∧
   (let d : DieId := .a
    let e : Fin 80 := 0
    let xd : Fin 16 := 2
    let m : MemOp := (MemOp.mk 4 .plain)
    let s : State := (mem0 0x100 0 0)
    ((s.die d).issues e (.st xd m) = true) ∧ ((fun u => addrOk ((u.engine e).regs.address m) = true) (s.die d))) ∧
   (let d : DieId := .a
    let e : Fin 80 := 0
    let m : MemOp := (MemOp.mk 4 (.postReg 5))
    let s : State := (mem0 0x100 0x100 0x30)
    ((s.die d).issues e (.pmod m) = true)) ∧
   (let d : DieId := .a
    let e : Fin 80 := 0
    let acc : Fin 4 := 1
    let sh : BitVec 6 := 40
    let m : MemOp := (MemOp.mk 4 .plain)
    let s : State := (mem0 0x100 0 0)
    ((s.die d).issues e (.nst acc sh m) = true) ∧ ((fun u => addrOk ((u.engine e).regs.address m) = true) (s.die d))) := by
  refine ⟨?_, ?_, ?_, ?_⟩ <;> (try dsimp only [Die.readable, Die.busReadable]) <;> decide +kernel

theorem bus_readable (d : Die) (e : Fin 80) (m : MemOp) (h : (((d.engine e).regs.busAddrs m).all fun a =>
    addrOk a && !inEccWord d.eccBad (dataBase e + a.toNat)) = true) : d.busReadable e m := by
  intro a ha
  simpa using List.all_eq_true.mp h a ha
/-- The hypotheses of each clause of `EngineVector` can be met. -/
theorem wit_EngineVector :
   (let d : DieId := .a
    let e : Fin 80 := 0
    let z : Bool := false
    let xa : Fin 16 := 2
    let m : MemOp := (MemOp.mk 4 .plain)
    let s : State := (mem0 0x100 0 0)
    ((s.die d).issues e (.qmac false z xa m) = true) ∧ ((fun u => u.busReadable e m) (s.die d))) ∧
   (let d : DieId := .a
    let e : Fin 80 := 0
    let z : Bool := false
    let xa : Fin 16 := 2
    let m : MemOp := (MemOp.mk 4 .plain)
    let s : State := (mem0 0x100 0 0)
    ((s.die d).issues e (.qmac true z xa m) = true) ∧ ((fun u => u.busReadable e m) (s.die d))) ∧
   (let d : DieId := .a
    let e : Fin 80 := 0
    let z : Bool := false
    let hi : Bool := false
    let pair : Fin 8 := 1
    let m : MemOp := (MemOp.mk 4 .plain)
    let s : State := (mem0 0x100 0 0)
    ((s.die d).issues e (.dmac false z hi pair m) = true) ∧ ((fun u => u.busReadable e m) (s.die d))) ∧
   (let d : DieId := .a
    let e : Fin 80 := 0
    let z : Bool := false
    let hi : Bool := false
    let pair : Fin 8 := 1
    let m : MemOp := (MemOp.mk 4 .plain)
    let s : State := (mem0 0x100 0 0)
    ((s.die d).issues e (.dmac true z hi pair m) = true) ∧ ((fun u => u.busReadable e m) (s.die d))) := by
  refine ⟨⟨?_, bus_readable _ _ _ ?_⟩, ⟨?_, bus_readable _ _ _ ?_⟩, ⟨?_, bus_readable _ _ _ ?_⟩, ?_, bus_readable _ _ _ ?_⟩ <;>
    decide +kernel

/-- The hypotheses of each clause of `EngineFlow` can be met. -/
theorem wit_EngineFlow :
   (let d : DieId := .a
    let e : Fin 80 := 0
    let cond : BitVec 4 := 0
    let target : BitVec 12 := 100
    let s : State := (eng0 fun g => g)
    ((s.die d).issues e (.branch cond target) = true) ∧ ((fun u => (u.engine e).regs.flg.conds[cond.toNat]? = some true) (s.die d))) ∧
   (let d : DieId := .a
    let e : Fin 80 := 0
    let cond : BitVec 4 := 1
    let target : BitVec 12 := 100
    let s : State := (eng0 fun g => g)
    ((s.die d).issues e (.branch cond target) = true) ∧ ((fun u => (u.engine e).regs.flg.conds[cond.toNat]? = some false) (s.die d))) ∧
   (let d : DieId := .a
    let e : Fin 80 := 0
    let target : BitVec 12 := 100
    let s : State := (eng0 fun g => { g with stack := [1,2,3] })
    ((s.die d).issues e (.call target) = true) ∧ ((fun u => (u.engine e).stack.length < 4) (s.die d))) ∧
   (let d : DieId := .a
    let e : Fin 80 := 0
    let target : BitVec 12 := 100
    let rest : List (BitVec 12) := [9]
    let s : State := (eng0 fun g => { g with stack := [100,9] })
    ((s.die d).issues e .ret = true) ∧ ((fun u => (u.engine e).stack = target :: rest) (s.die d))) ∧
   (let d : DieId := .a
    let e : Fin 80 := 0
    let target : BitVec 12 := 100
    let lvl : Fin 2 := 0
    let s : State := (eng0 fun g => { g with regs := { g.regs with lc := vset g.regs.lc 1 6 } })
    ((s.die d).issues e (.loop lvl target) = true) ∧ ((fun u => ((u.engine e).loopAt lvl).isNone = true ∧ vget (u.engine e).regs.lc lvl = 0) (s.die d))) ∧
   (let d : DieId := .a
    let e : Fin 80 := 0
    let target : BitVec 12 := 100
    let lvl : Fin 2 := 1
    let s : State := (eng0 fun g => { g with regs := { g.regs with lc := vset g.regs.lc 1 6 } })
    let free (u : Die) (last : BitVec 12) : Prop :=
      ((u.engine e).loopAt lvl).isNone = true ∧ (u.engine e).pc.toNat < last.toNat ∧
        ∀ r, (u.engine e).loopAt (1 - lvl) = some r → r.last ≠ (u.engine e).pc
    ((s.die d).issues e (.loop lvl target) = true) ∧ ((fun u => free u target ∧ vget (u.engine e).regs.lc lvl ≠ 0) (s.die d))) ∧
   (let d : DieId := .a
    let e : Fin 80 := 0
    let target : BitVec 12 := 100
    let lvl : Fin 2 := 1
    let s : State := (eng0 fun g => { g with regs := { g.regs with lc := vset g.regs.lc 1 6 } })
    ((s.die d).issues e (.loopi lvl 0 target) = true) ∧ ((fun u => ((u.engine e).loopAt lvl).isNone = true) (s.die d))) ∧
   (let d : DieId := .a
    let e : Fin 80 := 0
    let target : BitVec 12 := 100
    let cnt : BitVec 12 := 3
    let lvl : Fin 2 := 1
    let s : State := (eng0 fun g => { g with loop0 := some { first := 5, last := 200 }, regs := { g.regs with lc := vset g.regs.lc 0 6 } })
    let free (u : Die) (last : BitVec 12) : Prop :=
      ((u.engine e).loopAt lvl).isNone = true ∧ (u.engine e).pc.toNat < last.toNat ∧
        ∀ r, (u.engine e).loopAt (1 - lvl) = some r → r.last ≠ (u.engine e).pc
    (cnt ≠ 0) ∧ ((s.die d).issues e (.loopi lvl cnt target) = true) ∧ ((fun u => free u target) (s.die d))) := by
  refine ⟨?_, ?_, ?_, ?_, ?_, ?_, ?_, ?_⟩ <;> (try dsimp only [Die.readable, Die.busReadable]) <;> decide +kernel

/-- The hypotheses of each clause of `EngineLoopEnd` can be met. -/
theorem wit_EngineLoopEnd :
   (let d : DieId := .a
    let e : Fin 80 := 0
    let lvl : Fin 2 := 0
    let r : LoopRec := (LoopRec.mk 5 7)
    let s : State := (eng0 fun g => { g with loop0 := some { first := 5, last := 7 }, regs := { g.regs with lc := vset g.regs.lc 0 6 } })
    let atEnd (u : Die) : Prop :=
      (u.engine e).loopAt lvl = some r ∧ (u.engine e).pc = r.last ∧ (lvl = 0 → (u.engine e).loop1 = none)
    ((s.die d).issues e .nop = true) ∧ ((fun u => atEnd u ∧ 1 < (vget (u.engine e).regs.lc lvl).toNat) (s.die d))) ∧
   (let d : DieId := .a
    let e : Fin 80 := 0
    let lvl : Fin 2 := 0
    let r : LoopRec := (LoopRec.mk 5 7)
    let s : State := (eng0 fun g => { g with loop0 := some { first := 5, last := 7 }, regs := { g.regs with lc := vset g.regs.lc 0 1 } })
    let atEnd (u : Die) : Prop :=
      (u.engine e).loopAt lvl = some r ∧ (u.engine e).pc = r.last ∧ (lvl = 0 → (u.engine e).loop1 = none)
    ((s.die d).issues e .nop = true) ∧ ((fun u => atEnd u ∧ (vget (u.engine e).regs.lc lvl).toNat ≤ 1) (s.die d))) := by
  refine ⟨?_, ?_⟩ <;> (try dsimp only [Die.readable, Die.busReadable]) <;> decide +kernel

/-- The hypotheses of each clause of `EngineEnd` can be met. -/
theorem wit_EngineEnd :
   (let d : DieId := .a
    let e : Fin 80 := 0
    let imm : BitVec 16 := 0
    let s : State := (eng0 fun g => { g with regs := { g.regs with flg := { s := true, crv := true } } })
    let u := s.die d
    (u.issues e (.endRun imm) = true) ∧ ((u.engine e).regs.cfs = imm) ∧ ((u.red.takes.find? fun t => t.drain && t.fromEng = e.val) = none)) := by
  (try dsimp only [Die.readable, Die.busReadable]) <;> decide +kernel

/-- The hypotheses of each clause of `EngineStops` can be met. -/
theorem wit_EngineStops :
   (let d : DieId := .a
    let e : Fin 80 := 0
    let s : State := (eng0 fun g => g)
    let g := (s.die d).engine e
    let runs : Prop := (s.die d).engRuns e = true ∧ g.wait = .none ∧
      inEccWord (s.die d).eccBad (progBase e + 4 * g.pc.toNat) = false
    (runs)) ∧
   (let d : DieId := .a
    let e : Fin 80 := 0
    let sreg : BitVec 6 := 0x28
    let s : State := (eng0 fun g => g)
    let g := (s.die d).engine e
    let runs : Prop := (s.die d).engRuns e = true ∧ g.wait = .none ∧
      inEccWord (s.die d).eccBad (progBase e + 4 * g.pc.toNat) = false
    (runs) ∧ (0x27 < sreg.toNat)) ∧
   (let d : DieId := .a
    let e : Fin 80 := 0
    let sreg : BitVec 6 := 0x24
    let s : State := (eng0 fun g => g)
    let g := (s.die d).engine e
    let runs : Prop := (s.die d).engRuns e = true ∧ g.wait = .none ∧
      inEccWord (s.die d).eccBad (progBase e + 4 * g.pc.toNat) = false
    (runs) ∧ (0x23 < sreg.toNat)) ∧
   (let d : DieId := .a
    let e : Fin 80 := 0
    let s : State := (eng0 fun g => { g with stack := [1,2,3,4] })
    let g := (s.die d).engine e
    let runs : Prop := (s.die d).engRuns e = true ∧ g.wait = .none ∧
      inEccWord (s.die d).eccBad (progBase e + 4 * g.pc.toNat) = false
    (runs) ∧ (4 ≤ g.stack.length)) ∧
   (let d : DieId := .a
    let e : Fin 80 := 0
    let s : State := (eng0 fun g => g)
    let g := (s.die d).engine e
    let runs : Prop := (s.die d).engRuns e = true ∧ g.wait = .none ∧
      inEccWord (s.die d).eccBad (progBase e + 4 * g.pc.toNat) = false
    (runs) ∧ (g.stack = [])) ∧
   (let d : DieId := .a
    let e : Fin 80 := 0
    let s : State := (eng0 fun g => { g with loop0 := some { first := 1, last := 20 } })
    let g := (s.die d).engine e
    let runs : Prop := (s.die d).engRuns e = true ∧ g.wait = .none ∧
      inEccWord (s.die d).eccBad (progBase e + 4 * g.pc.toNat) = false
    (runs) ∧ (g.loop0.isSome = true)) ∧
   (let d : DieId := .a
    let e : Fin 80 := 0
    let m : MemOp := (MemOp.mk 4 .plain)
    let s : State := (mem0 0x6000 0 0)
    let g := (s.die d).engine e
    let runs : Prop := (s.die d).engRuns e = true ∧ g.wait = .none ∧
      inEccWord (s.die d).eccBad (progBase e + 4 * g.pc.toNat) = false
    (runs) ∧ (addrOk (g.regs.address m) = false)) ∧
   (let d : DieId := .a
    let e : Fin 80 := 0
    let m : MemOp := (MemOp.mk 4 .plain)
    let s : State := ((mem0 0x104 0 0).upd .a fun d => { d with eccBad := [dataBase 0 + 0x100] })
    let g := (s.die d).engine e
    let runs : Prop := (s.die d).engRuns e = true ∧ g.wait = .none ∧
      inEccWord (s.die d).eccBad (progBase e + 4 * g.pc.toNat) = false
    (runs) ∧ (addrOk (g.regs.address m) = true) ∧ (inEccWord (s.die d).eccBad (g.cell e m) = true)) ∧
   (let d : DieId := .a
    let e : Fin 80 := 0
    let imm : BitVec 16 := 1
    let s : State := (eng0 fun g => g)
    let g := (s.die d).engine e
    let runs : Prop := (s.die d).engRuns e = true ∧ g.wait = .none ∧
      inEccWord (s.die d).eccBad (progBase e + 4 * g.pc.toNat) = false
    (runs) ∧ (g.regs.cfs ≠ imm)) ∧
   (let d : DieId := .a
    let e : Fin 80 := 0
    let s : State := (eng0 fun g => { g with dl := 1000 })
    let u := s.reach d (Die.dueOverrun e)
    ((u.die d).engRuns e = true) ∧ ((if (u.die d).red.tk = .shadow then (u.die d).img.cell.tc - 500 else ((u.die d).engine e).dl.toNat * 16) ≤ (u.die d).sinceStart)) ∧
   (let d : DieId := .a
    let e : Fin 80 := 0
    let qp : Fin 16 := 2
    let s : State := (eng0 fun g => g)
    let g := (s.die d).engine e
    let runs : Prop := (s.die d).engRuns e = true ∧ g.wait = .none ∧
      inEccWord (s.die d).eccBad (progBase e + 4 * g.pc.toNat) = false
    (runs) ∧ ((s.die d).bind e qp = none)) := by
  refine ⟨?_, ?_, ?_, ?_, ?_, ?_, ?_, ?_, ?_, ?_, ?_⟩ <;> (try dsimp only [Die.readable, Die.busReadable]) <;> decide +kernel

/-- The hypotheses of each clause of `EngineService` can be met. -/
theorem wit_EngineService :
   (let d : DieId := .a
    let e : Fin 80 := 0
    let s : State := (eng0 fun g => { g with cnt := Vector.replicate 6 3, runMax := 77 })
    ((s.die d).reached (2 + e.val / 5) = true)) ∧
   (let d : DieId := .a
    let e : Fin 80 := 0
    let s : State := ((mem0 0x100 0 0).upd .a fun d => d.updEng 0 fun g => { g with rm0 := 0x1FFFFF, rm1 := 0xFFFFFFFF, rng := vset g.rng 0 0x00100100, size := 400 })
    ((s.die d).issues e .cairn = true)) ∧
   (let d : DieId := .a
    let e : Fin 80 := 4
    let t : EngTake := take0
    let s : State := ((eng0 fun g => { g with running := false }).upd .a fun d => (({ d with red := { d.red with takes := [take0] } }).updUnit 0 0 fun u => { u with state := .faulted }).updUnit 0 4 fun u => { u with state := .standby, inTakeover := true })
    ((s.die d).red.takes.find? (fun t => t.toEng = e.val) = some t) ∧ (t.drain = false) ∧ (t.cross = true → (s.die d).time.cyc ≠ t.cyc) ∧ (t.fromEng < 80) ∧ (t.fromEng ≠ e.val) ∧ (t.role < 80) ∧ (((s.die d).red.cairnCyc[t.role]?).getD none = none)) := by
  refine ⟨?_, ?_, ?_⟩ <;> (try dsimp only [Die.readable, Die.busReadable]) <;> decide +kernel

/-- The hypotheses of each clause of `EnginePorts` can be met. -/
theorem wit_EnginePorts :
   (let d : DieId := .a
    let e : Fin 80 := 0
    let qp : Fin 16 := 2
    let b : PortBind := (portBind true)
    let s : State := (port0 true (fun q => { q with ring := [{ entry9 with tgt := 3 }, entry9, { entry9 with tgt := 6, commit := false }] }) fun g => g)
    let u := s.die d
    let g := u.engine e
    let p := vget g.ports qp
    let q := u.queue b.queue
    let bound (consumer : Bool) : Prop :=
      u.bind e qp = some b ∧ b.queue < 1024 ∧ b.consumer = consumer ∧ g.replay = false
    (bound true) ∧ (u.issues e (.waitq qp) = true) ∧ (p.waited = false) ∧ (q.ready g.regs.rcyc = true) ∧ (b.fStart.getD 0 ≤ u.sinceStart)) ∧
   (let d : DieId := .a
    let e : Fin 80 := 0
    let qp : Fin 16 := 2
    let b : PortBind := (portBind true)
    let s : State := (port0 true (fun q => { q with ring := [{ entry9 with commit := false }] }) fun g => g)
    let u := s.die d
    let g := u.engine e
    let p := vget g.ports qp
    let q := u.queue b.queue
    let bound (consumer : Bool) : Prop :=
      u.bind e qp = some b ∧ b.queue < 1024 ∧ b.consumer = consumer ∧ g.replay = false
    (bound true) ∧ (u.issues e (.waitq qp) = true) ∧ (p.waited = false) ∧ (q.ready g.regs.rcyc = false) ∧ (u.sinceStart < max b.waitNs (b.fStart.getD 0))) ∧
   (let d : DieId := .a
    let e : Fin 80 := 0
    let qp : Fin 16 := 2
    let xr : Fin 16 := 3
    let w : W32 := 0xAA
    let b : PortBind := (portBind true)
    let s : State := (port0 true (fun q => q) fun g => { g with ports := vupd g.ports 2 fun p => { p with waited := true, words := [1, 0xAA], next := 1 } })
    let u := s.die d
    let g := u.engine e
    let p := vget g.ports qp
    let bound (consumer : Bool) : Prop :=
      u.bind e qp = some b ∧ b.queue < 1024 ∧ b.consumer = consumer ∧ g.replay = false
    (bound true) ∧ (u.issues e (.getq xr qp) = true) ∧ (p.waited = true) ∧ (p.words[p.next]? = some w)) ∧
   (let d : DieId := .a
    let e : Fin 80 := 0
    let qp : Fin 16 := 2
    let xr : Fin 16 := 3
    let b : PortBind := (portBind false)
    let s : State := (port0 false (fun q => q) fun g => g)
    let u := s.die d
    let g := u.engine e
    let p := vget g.ports qp
    let q := u.queue b.queue
    let bound (consumer : Bool) : Prop :=
      u.bind e qp = some b ∧ b.queue < 1024 ∧ b.consumer = consumer ∧ g.replay = false
    (bound false) ∧ (u.issues e (.putq xr qp false) = true) ∧ (p.build.length + 1 ≠ q.words) ∧ (p.credit.isSome = true ∨ 0 < q.free)) ∧
   (let d : DieId := .a
    let e : Fin 80 := 0
    let qp : Fin 16 := 2
    let xr : Fin 16 := 3
    let last : Bool := true
    let b : PortBind := (portBind false)
    let s : State := (port0 false (fun q => { q with taken := 1, ring := [entry9] }) fun g => { g with ports := vupd g.ports 2 fun p => { p with build := [1], credit := some 0 } })
    let u := s.die d
    let g := u.engine e
    let p := vget g.ports qp
    let q := u.queue b.queue
    let tgt := tgtOf (g.regs.rcyc + BitVec.ofNat 32 b.tofs)
    let bound (consumer : Bool) : Prop :=
      u.bind e qp = some b ∧ b.queue < 1024 ∧ b.consumer = consumer ∧ g.replay = false
    (bound false) ∧ (u.issues e (.putq xr qp last) = true) ∧ (p.build.length + 1 = q.words) ∧ (p.credit = some q.epoch) ∧ (q.judge q.epoch tgt u.time.cyc = .done)) ∧
   (let d : DieId := .a
    let e : Fin 80 := 0
    let qp : Fin 16 := 2
    let xr : Fin 16 := 3
    let b : PortBind := (portBind false)
    let s : State := (port0 false (fun q => { q with grant := 1, taken := 1 }) fun g => g)
    let u := s.die d
    let g := u.engine e
    let p := vget g.ports qp
    let q := u.queue b.queue
    let bound (consumer : Bool) : Prop :=
      u.bind e qp = some b ∧ b.queue < 1024 ∧ b.consumer = consumer ∧ g.replay = false
    (bound false) ∧ (u.issues e (.putq xr qp false) = true) ∧ (p.credit = none) ∧ (q.free = 0)) ∧
   (let d : DieId := .a
    let e : Fin 80 := 0
    let qp : Fin 16 := 2
    let w : W32 := 0xAA
    let b : PortBind := (portBind true)
    let s : State := (port0 true (fun q => { q with ring := [entry9] }) fun g => { g with wait := .group 2 })
    let w := s.reach d (Die.dueWaitq e)
    ((w.die d).bind e qp = some b) ∧ (b.queue < 1024) ∧ ((w.die d).engRuns e = true) ∧ (((w.die d).engine e).wait = .group qp) ∧ (((w.die d).queue b.queue).ready ((w.die d).engine e).regs.rcyc = true) ∧ (b.fStart.getD 0 ≤ (w.die d).sinceStart)) ∧
   (let d : DieId := .a
    let e : Fin 80 := 0
    let qp : Fin 16 := 2
    let xr : Fin 16 := 3
    let b : PortBind := (portBind false)
    let s : State := (port0 false (fun q => q) fun g => { g with wait := .credit 3 2 false })
    let u := s.die d
    let g := u.engine e
    let p := vget g.ports qp
    let q := u.queue b.queue
    let bound (consumer : Bool) : Prop :=
      u.bind e qp = some b ∧ b.queue < 1024 ∧ b.consumer = consumer ∧ g.replay = false
    (bound false) ∧ (u.engRuns e = true) ∧ (g.wait = .credit xr qp false) ∧ (0 < q.free) ∧ (p.credit = none) ∧ (p.build.length + 1 ≠ q.words)) ∧
   (let d : DieId := .a
    let e : Fin 80 := 0
    let qp : Fin 16 := 2
    let last : Bool := true
    let b : PortBind := (portBind false)
    let s : State := (port0 false (fun q => { q with taken := 1 }) fun g => { g with wait := .lookout 2 true, ports := vupd g.ports 2 fun p => { p with build := [1,2], credit := some 0 } })
    let u := s.die d
    let g := u.engine e
    let p := vget g.ports qp
    let q := u.queue b.queue
    let tgt := tgtOf (g.regs.rcyc + BitVec.ofNat 32 b.tofs)
    let bound (consumer : Bool) : Prop :=
      u.bind e qp = some b ∧ b.queue < 1024 ∧ b.consumer = consumer ∧ g.replay = false
    (bound false) ∧ (u.engRuns e = true) ∧ (g.wait = .lookout qp last) ∧ (p.credit = some q.epoch) ∧ (q.judge q.epoch tgt u.time.cyc = .done)) := by
  refine ⟨?_, ?_, ?_, ?_, ?_, ?_, ?_, ?_, ?_⟩ <;> (try dsimp only [Die.readable, Die.busReadable]) <;> decide +kernel

/-- The hypotheses of each clause of `TimeCorrections` can be met. -/
theorem wit_TimeCorrections :
   (let d : DieId := .a
    let s : State := live
    let u := s.die d
    let t := u.time
    (t.token = true) ∧ ((s.die d).reached 1 = true)) ∧
   (let d : DieId := .a
    let o : BitVec 32 := (BitVec.ofInt 32 (-77))
    let s : State := (onA fun d => { d with time := { d.time with token := false } })
    let u := s.die d
    let t := u.time
    (t.token = false) ∧ (t.jumpTh ≠ 0) ∧ (o.toInt.natAbs ≤ t.jumpTh.toNat) ∧ ((s.die d).reached 1 = true)) ∧
   (let d : DieId := .a
    let o : BitVec 32 := 1001
    let s : State := (onA fun d => { d with time := { d.time with token := false } })
    let u := s.die d
    let t := u.time
    (t.token = false) ∧ (t.jumpTh = 0 ∨ t.jumpTh.toNat < o.toInt.natAbs) ∧ ((s.die d).reached 1 = true)) ∧
   (let d : DieId := .a
    let s : State := live
    ((s.die d).reached 1 = true)) ∧
   (let d : DieId := .a
    let s : State := (onA fun d => { d with time := { d.time with token := false } })
    ((s.die d).reached 1 = true)) ∧
   (let d : DieId := .a
    let s : State := (onA fun d => { d with time := { d.time with cnt := Vector.replicate 6 3 } })
    ((s.die d).reached 1 = true)) := by
  refine ⟨?_, ?_, ?_, ?_, ?_, ?_⟩ <;> (try dsimp only [Die.readable, Die.busReadable]) <;> decide +kernel

/-- The hypotheses of each clause of `TimeEpoch` can be met. -/
theorem wit_TimeEpoch :
   (let d : DieId := .a
    let s : State := (onA fun d => { d with time := { d.time with wrap8 := 7 } })
    ((s.die d).reached 1 = true)) ∧
   (let d : DieId := .a
    let tag : BitVec 8 := 6
    let s : State := (onA fun d => { d with time := { d.time with wrap8 := 7, epochSecLo := 5, epochSecHi := 2, epochNs := 99 } })
    let u := s.die d
    let t := u.time
    (tag = t.wrap8 ∨ tag + 1 = t.wrap8) ∧ ((s.die d).reached 1 = true)) ∧
   (let d : DieId := .a
    let tag : BitVec 8 := 9
    let s : State := live
    let u := s.die d
    let t := u.time
    (tag ≠ t.wrap8) ∧ (tag + 1 ≠ t.wrap8) ∧ ((s.die d).reached 1 = true)) ∧
   (let d : DieId := .a
    let n : Nat := 5
    let s : State := (onA fun d => { d with time := { d.time with ns := 0xFFFFFFEC, nominal := 0x4000 } })
    let u := s.die d
    (u.ticksToWrap = some n)) ∧
   (let d : DieId := .a
    let n : Nat := 5
    let s : State := (onA fun d => { d with time := { d.time with ns := 999999980, nominal := 1000001000, wrap8 := 3, epoch := some { sec := 1, ns := 2, tag := 2 } } })
    let u := s.die d
    (u.ticksToStale = some n)) := by
  refine ⟨?_, ?_, ?_, ?_, ?_⟩ <;> (try dsimp only [Die.readable, Die.busReadable]) <;> decide +kernel

/-- The hypotheses of each clause of `TriggersCaptures` can be met. -/
theorem wit_TriggersCaptures :
   (let d : DieId := .a
    let k : Fin 8 := 3
    let v : BitVec 32 := 5000
    let s : State := (onA fun d => { d with trig := vset d.trig 3 { mode := 1 } })
    let u := s.die d
    let x := vget u.trig k
    let late : Bool := decide (0 ≤ diff32 u.time.ns v)
    let idle : Prop := u.trigReached k = false
    (idle) ∧ (x.mode = 1 ∧ late = false ∨ x.mode = 2 ∧ late = false ∧ 100 ≤ x.period.toNat ∧ 8 * x.pw.toNat ≤ x.period.toNat) ∧ ((s.die d).reached 1 = true)) ∧
   (let d : DieId := .a
    let k : Fin 8 := 3
    let v : BitVec 32 := 1000
    let s : State := (onA fun d => { d with trig := vset d.trig 3 { mode := 1 } })
    let u := s.die d
    let x := vget u.trig k
    let late : Bool := decide (0 ≤ diff32 u.time.ns v)
    let idle : Prop := u.trigReached k = false
    (idle) ∧ (x.mode = 1) ∧ (late = true) ∧ ((s.die d).reached 1 = true)) ∧
   (let d : DieId := .a
    let k : Fin 8 := 3
    let s : State := (onA fun d => { d with trig := vset d.trig 3 { mode := 2, period := 99, pw := 1 } })
    let u := s.die d
    let x := vget u.trig k
    let idle : Prop := u.trigReached k = false
    (idle) ∧ (x.mode = 2) ∧ (x.period.toNat < 100 ∨ x.period.toNat < 8 * x.pw.toNat) ∧ ((s.die d).reached 1 = true)) ∧
   (let d : DieId := .a
    let k : Fin 8 := 3
    let v : BitVec 32 := 5000
    let s : State := (onA fun d => { d with trig := vset d.trig 3 { mode := 1, armed := true, cmp := 900 } })
    let u := s.die d
    let x := vget u.trig k
    let late : Bool := decide (0 ≤ diff32 u.time.ns v)
    (x.mode = 1) ∧ (x.armed = true) ∧ (late = false) ∧ (0 ≤ diff32 u.time.ns x.cmp) ∧ ((s.die d).reached 1 = true)) ∧
   (let d : DieId := .a
    let k : Fin 8 := 3
    let v : BitVec 32 := 40000
    let s : State := (onA fun d => { d with trig := vset d.trig 3 { mode := 3, cmp := 9, onCyc := some 5 }, img := { d.img with cell := { d.img.cell with tc := 30000 } } })
    let u := s.die d
    let x := vget u.trig k
    let idle : Prop := u.trigReached k = false
    (idle) ∧ (x.mode = 3) ∧ (u.img.cell.tc ≤ v.toNat) ∧ ((s.die d).reached 1 = true)) ∧
   (let d : DieId := .a
    let k : Fin 8 := 3
    let n : Nat := 1000
    let s : State := (onA fun d => { d with trig := vset d.trig 3 { mode := 2, period := 1000, pw := 12, armed := true, cmp := 5000 } })
    let u := s.die d
    (u.ticksToTrigger k = some n)) ∧
   (let d : DieId := .a
    let k : Fin 8 := 3
    let n : Nat := 500
    let s : State := (onA fun d => { d with trig := vset d.trig 3 { mode := 3, cmp := 3000, cdiv := 5 } })
    let u := s.die d
    let x := vget u.trig k
    (u.time.cycRun = true) ∧ (x.mode = 3) ∧ (x.onCyc ≠ some u.time.cyc) ∧ (u.time.cyc.toNat % max 1 x.cdiv.toNat = 0) ∧ (u.ticksAhead (diff32 (u.time.start + x.cmp) u.time.ns).toNat = some n)) ∧
   (let d : DieId := .a
    let k : Fin 8 := 3
    let s : State := (onA fun d => { d with trig := vset d.trig 3 { mode := 1, active := true } })
    let u := s.die d
    let x := vget u.trig k
    let ends := (x.onAt + x.pw.toNat) - u.time.per
    (x.active = true) ∧ (u.ticksIn ends = some ends)) ∧
   (let d : DieId := .a
    let k : Fin 8 := 3
    let la : Bool := true
    let s : State := (useBalls [.capt 3] (onA fun d => { d with capt := vset d.capt 3 { edge := 1, filt := 2 } }))
    let u := s.die d
    let c := vget u.capt k
    let calm : Prop := (u.pending.all fun i => decide (u.time.per < i.due)) = true
    (calm) ∧ (u.ballUsed (.capt k) = true) ∧ (u.awake domKeep = true) ∧ (bit u.captPins k ≠ la) ∧ (c.pend = [])) ∧
   (let d : DieId := .a
    let k : Fin 8 := 3
    let la : Bool := true
    let n : Nat := 9
    let g : InEdge := ({ due := 5, ch := 0, level := true, ns := 77 } : InEdge)
    let s : State := (onA fun d => { d with captPins := 8, capt := vset d.capt 3 { edge := 1, fifo := [(1, true)], pend := [{ due := 5, ch := 0, level := true, ns := 77 }] } })
    let u := s.die d
    let c := vget u.capt k
    let due : Prop := bit u.captPins k = la ∧ u.awake domKeep = true ∧ u.pending = [g] ∧ c.pend = [g] ∧ u.clkPer = true ∧ u.time.per ≤ g.due ∧
      g.due ≤ u.time.per + n
    let takes : Prop := bit c.edge (if g.level then 0 else 1) = true
    (due) ∧ (takes) ∧ (c.fifo.length < 4)) ∧
   (let d : DieId := .a
    let k : Fin 8 := 3
    let la : Bool := true
    let n : Nat := 9
    let g : InEdge := ({ due := 5, ch := 0, level := true, ns := 77 } : InEdge)
    let s : State := (onA fun d => { d with captPins := 8, capt := vset d.capt 3 { edge := 1, fifo := [(1, true), (2, true), (3, true), (4, true)], pend := [{ due := 5, ch := 0, level := true, ns := 77 }] } })
    let u := s.die d
    let c := vget u.capt k
    let due : Prop := bit u.captPins k = la ∧ u.awake domKeep = true ∧ u.pending = [g] ∧ c.pend = [g] ∧ u.clkPer = true ∧ u.time.per ≤ g.due ∧
      g.due ≤ u.time.per + n
    let takes : Prop := bit c.edge (if g.level then 0 else 1) = true
    (due) ∧ (takes) ∧ (4 ≤ c.fifo.length)) ∧
   (let d : DieId := .a
    let k : Fin 8 := 3
    let la : Bool := true
    let n : Nat := 9
    let g : InEdge := ({ due := 5, ch := 0, level := true, ns := 77 } : InEdge)
    let s : State := (onA fun d => { d with captPins := 8, capt := vset d.capt 3 { edge := 2, pend := [{ due := 5, ch := 0, level := true, ns := 77 }] } })
    let u := s.die d
    let c := vget u.capt k
    let due : Prop := bit u.captPins k = la ∧ u.awake domKeep = true ∧ u.pending = [g] ∧ c.pend = [g] ∧ u.clkPer = true ∧ u.time.per ≤ g.due ∧
      g.due ≤ u.time.per + n
    let takes : Prop := bit c.edge (if g.level then 0 else 1) = true
    (due) ∧ (¬ takes)) ∧
   (let d : DieId := .a
    let s : State := (onA fun d => { d with capt := vset d.capt 3 { edge := 1, fifo := [(1, true), (2, true)] } })
    ((s.die d).reached 1 = true)) := by
  refine ⟨?_, ?_, ?_, ?_, ?_, ?_, ?_, ?_, ?_, ?_, ?_, ?_, ?_⟩ <;> (try dsimp only [Die.readable, Die.busReadable]) <;> decide +kernel

/-- The hypotheses of each clause of `CellCycleStart` can be met. -/
theorem wit_CellCycleStart :
   (let d : DieId := .a
    let s : State := live
    let u := s.die d
    (u.time.cycRun = true) ∧ (u.clkPer = true) ∧ (u.img.state ≠ .place) ∧ (u.led (s.die d.peer) = false)) ∧
   (let d : DieId := .b
    let s : State := live
    let u := s.die d
    (u.led (s.die d.peer) = true) ∧ (u.follows (s.die d.peer) = false)) ∧
   (let d : DieId := .b
    let s : State := (onA fun d => { d with time := { d.time with cyc := 6, start := 900 } })
    let u := s.die d
    (u.time.cycRun = true) ∧ (u.clkPer = true) ∧ (u.img.state ≠ .place) ∧ (u.follows (s.die d.peer) = true)) := by
  refine ⟨?_, ?_, ?_⟩ <;> (try dsimp only [Die.readable, Die.busReadable]) <;> decide +kernel

/-- The hypotheses of each clause of `TimePorts` can be met. -/
theorem wit_TimePorts :
   (let d : DieId := .a
    let p : Fin 2 := 1
    let m : List (BitVec 8) := (List.replicate 44 0)
    let n : Nat := 3
    let s : State := (eth1 fun d => { d with eth := vset d.eth 1 { mode := 1, rxLat := 300 } })
    let e := s.elapse n
    let z := e.die d
    let x := vget z.eth p
    (z.portOn p = true) ∧ (fieldAt m 4 1 = z.img.pins.ptpDomain) ∧ (fieldAt m 0 1 % 16 < 2) ∧ (x.host = false) ∧ (x.rxFifo.length < 16)) ∧
   (let d : DieId := .a
    let p : Fin 2 := 1
    let m : List (BitVec 8) := (List.replicate 44 0)
    let n : Nat := 3
    let s : State := (eth1 fun d => { d with eth := vset d.eth 1 { mode := 1, rxFifo := List.replicate 16 { ns := 0, wrap8 := 0, messageType := 0, oneStep := false, sequenceId := 0 } } })
    let e := s.elapse n
    let z := e.die d
    let x := vget z.eth p
    (z.portOn p = true) ∧ (fieldAt m 4 1 = z.img.pins.ptpDomain) ∧ (fieldAt m 0 1 % 16 < 2) ∧ (x.host = false) ∧ (16 ≤ x.rxFifo.length)) ∧
   (let d : DieId := .a
    let p : Fin 2 := 1
    let frame : List (BitVec 8) := (List.replicate 60 0)
    let ofs : Nat := 14
    let n : Nat := 3
    let s : State := (eth1 fun d => { d with eth := vset d.eth 1 { mode := 1, txLat := 300 } })
    let e := s.elapse n
    let z := e.die d
    let x := vget z.eth p
    let y := frame.drop ofs
    (z.portOn p = true) ∧ (fieldAt y 0 1 % 16 < 2) ∧ (x.host = false) ∧ (x.txFifo.length < 16)) ∧
   (let d : DieId := .a
    let p : Fin 2 := 1
    let s : State := (eth1 fun d => { d with eth := vset d.eth 1 { mode := 1, rxFifo := List.replicate 16 { ns := 0, wrap8 := 0, messageType := 0, oneStep := false, sequenceId := 0 } } })
    ((s.die d).reached (30 + p.val) = true)) ∧
   (let d : DieId := .a
    let p : Fin 2 := 1
    let s : State := (eth1 fun d => { d with eth := vset d.eth 1 { mode := 1, link := true } })
    let u := s.die d
    (u.portOn p = true) ∧ ((vget u.eth p).link = true)) ∧
   (let d : DieId := .a
    let p : Fin 2 := 1
    let s : State := (eth1 fun d => { d with eth := vset d.eth 1 { mode := 1, link := false } })
    let u := s.die d
    (u.portOn p = true) ∧ ((vget u.eth p).link = false)) := by
  refine ⟨?_, ?_, ?_, ?_, ?_, ?_⟩ <;> (try dsimp only [Die.readable, Die.busReadable]) <;> decide +kernel

/-- The hypotheses of each clause of `TimeFrames` can be met. -/
theorem wit_TimeFrames :
   (let d : DieId := .a
    let p : Fin 2 := 1
    let n : Nat := 3
    let s : State := (eth1 fun d => { d with eth := vset d.eth 1 { mode := 1 } })
    let e := s.elapse n
    let z := e.die d
    (z.portOn p = true)) ∧
   (let d : DieId := .a
    let p : Fin 2 := 1
    let frame : List (BitVec 8) := (List.replicate 60 0)
    let n : Nat := 3
    let s : State := (eth1 fun d => { d with eth := vset d.eth 1 { mode := 1 } })
    let e := s.elapse n
    let z := e.die d
    let body := frame.drop (if sliceBytes frame 12 2 = [0x81, 0x00] then 16 else 12)
    (z.portOn p = true) ∧ (body.take 2 ∉ [[0x88, 0xF7], [0x88, 0xB5], [0x08, 0x00], [0x08, 0x06]])) ∧
   (let d : DieId := .a
    let p : Fin 2 := 1
    let frame : List (BitVec 8) := (List.replicate 12 0 ++ [0x88, 0xF7, 9] ++ List.replicate 45 0)
    let n : Nat := 3
    let s : State := (eth1 fun d => { d with eth := vset d.eth 1 { mode := 1 } })
    let e := s.elapse n
    let z := e.die d
    let body := frame.drop (if sliceBytes frame 12 2 = [0x81, 0x00] then 16 else 12)
    (z.portOn p = true) ∧ (body.take 2 = [0x88, 0xF7]) ∧ (fieldAt (body.drop 2) 0 1 % 16 = 9)) ∧
   (let d : DieId := .a
    let p : Fin 2 := 1
    let src : List (BitVec 8) := [2,0,0,0,0,9]
    let payload : List (BitVec 8) := [0x81,0,5,0x10]
    let s : State := (eth1 fun d => { d with eth := vset d.eth 1 { mode := 1 }, host := { d.host with nodeId := 5 } })
    let u := s.die d
    (u.portOn p = true) ∧ (fieldAt payload 0 1 = 0x81) ∧ (u.img.isEmpty = false) ∧ (fieldAt payload 2 2 % 4096 = u.host.nodeId.toNat) ∧ (u.img.pins.macs.contains src = false)) := by
  refine ⟨?_, ?_, ?_, ?_⟩ <;> (try dsimp only [Die.readable, Die.busReadable]) <;> decide +kernel

/-- The hypotheses of each clause of `RegionCommands` can be met. -/
theorem wit_RegionCommands :
   (let d : DieId := .a
    let w : Fin 4 := 2
    let spec : Bool := true
    let period : BitVec 16 := 8
    let s : State := (rgn2 fun r => { r with period := 7, state := .idle, act := { r.act with specLead := 9 } })
    let u := s.die d
    let r := u.region w
    let lead : Nat := (u.time.ns - r.tj).toNat + r.act.specLead.toNat
    (r.state = .idle) ∧ (r.run = none) ∧ (u.red.grant = true) ∧ (period = BitVec.ofNat 16 (r.period + 1).toNat) ∧ (spec = true → r.act.specLead ≠ 0 ∧ lead < 1000000) ∧ ((s.die d).reached (18 + w.val) = true)) ∧
   (let d : DieId := .a
    let w : Fin 4 := 2
    let spec : Bool := false
    let period : BitVec 16 := 7
    let s : State := (rgn2 fun r => { r with period := 7, state := .idle, cmdPeriod := 3 })
    let u := s.die d
    let r := u.region w
    (r.state = .idle) ∧ (r.run = none) ∧ (u.red.grant = true) ∧ (u.mon.capOver = false) ∧ (period = BitVec.ofNat 16 r.period.toNat) ∧ (r.published = false) ∧ (r.noSolve = false) ∧ (spec = true → r.act.specLead ≠ 0 ∧ r.verifyDone = false ∧ (u.time.ns - r.tj).toNat < r.act.specVmax.toNat) ∧ (u.badBounds w = false) ∧ ((s.die d).reached (18 + w.val) = true)) ∧
   (let d : DieId := .a
    let w : Fin 4 := 2
    let spec : Bool := true
    let period : BitVec 16 := 9
    let s : State := (rgn2 fun r => { r with period := 7, state := .idle })
    let u := s.die d
    let r := u.region w
    (r.state = .off ∨ r.state = .tail ∨ r.state = .host ∨ r.run.isSome = true ∨ (period ≠ BitVec.ofNat 16 r.period.toNat ∧ period ≠ BitVec.ofNat 16 (r.period + 1).toNat) ∨ (period = BitVec.ofNat 16 r.period.toNat ∧ r.published = true) ∨ (spec = true ∧ r.act.specLead = 0) ∨ (spec = true ∧ period = BitVec.ofNat 16 r.period.toNat ∧ (r.verifyDone = true ∨ r.act.specVmax.toNat ≤ (u.time.ns - r.tj).toNat)) ∨ u.red.grant = false) ∧ ((s.die d).reached (18 + w.val) = true)) ∧
   (let d : DieId := .a
    let w : Fin 4 := 2
    let s : State := (rgn2 fun r => r)
    let u := s.die d
    let r := u.region w
    (r.state = .off) ∧ ((s.die d).reached (18 + w.val) = true)) ∧
   (let d : DieId := .a
    let w : Fin 4 := 2
    let s : State := (rgn2 fun r => { r with state := .idle })
    let u := s.die d
    let r := u.region w
    (r.state ≠ .off) ∧ ((s.die d).reached (18 + w.val) = true)) ∧
   (let d : DieId := .a
    let w : Fin 4 := 2
    let s : State := (rgn2 fun r => { r with state := .tail, missConsec := 5 })
    let u := s.die d
    let r := u.region w
    (r.state = .tail) ∧ (∀ j : Fin 128, (u.jnt j).used = true ∧ (u.jnt j).region = w.val → (u.jnt j).atRest = true) ∧ ((s.die d).reached (18 + w.val) = true)) ∧
   (let d : DieId := .a
    let w : Fin 4 := 2
    let s : State := (rgn2 fun r => r)
    let u := s.die d
    let r := u.region w
    (r.state = .off) ∧ ((s.die d).reached (18 + w.val) = true)) ∧
   (let d : DieId := .a
    let w : Fin 4 := 2
    let s : State := ((rgn2 fun r => { r with state := .tail }).upd .a fun d => { d with joints := vset d.joints 5 { used := true, cfg := { cluster := 8 } } })
    let u := s.die d
    let r := u.region w
    (r.state = .tail) ∧ (∃ j : Fin 128, (u.jnt j).used = true ∧ (u.jnt j).region = w.val ∧ (u.jnt j).atRest = false) ∧ ((s.die d).reached (18 + w.val) = true)) ∧
   (let d : DieId := .a
    let w : Fin 4 := 2
    let period : BitVec 16 := 7
    let s : State := (rgn2w 0x14 100 fun r => { r with period := 7, state := .host, nextBuf := true })
    let u := s.die d
    let r := u.region w
    (r.state ≠ .off) ∧ (r.state ≠ .tail) ∧ (period = BitVec.ofNat 16 r.period.toNat) ∧ (r.deadlineDone = false) ∧ ((u.time.ns - r.tj).toNat < (u.tmpl w).deadlineNs) ∧ (r.sigLo.toNat + r.sigHi.toNat * 2 ^ 32 = (u.tmpl w).sig) ∧ (r.published = false) ∧ ((s.die d).reached (18 + w.val) = true)) ∧
   (let d : DieId := .a
    let w : Fin 4 := 2
    let period : BitVec 16 := 8
    let s : State := (rgn2 fun r => { r with period := 7, state := .idle })
    let u := s.die d
    let r := u.region w
    (r.state ≠ .off) ∧ (period ≠ BitVec.ofNat 16 r.period.toNat ∨ (u.tmpl w).deadlineNs ≤ (u.time.ns - r.tj).toNat ∨ r.sigLo.toNat + r.sigHi.toNat * 2 ^ 32 ≠ (u.tmpl w).sig ∨ r.published = true) ∧ ((s.die d).reached (18 + w.val) = true)) := by
  refine ⟨?_, ?_, ?_, ?_, ?_, ?_, ?_, ?_, ?_, ?_⟩ <;> (try dsimp only [Die.readable, Die.busReadable]) <;> decide +kernel

/-- The hypotheses of each clause of `RegionSolves` can be met. -/
theorem wit_RegionSolves :
   (let d : DieId := .a
    let w : Fin 4 := 2
    let q : SolveRun := (sq 8 true)
    let s : State := (rgn2 fun r => { r with period := 7, state := .armed, run := some (sq 8 true), tj := (1400 - 1000000 + 9), act := { r.act with specLead := 9 } })
    let x := s.reach d (Die.dueSpec w)
    (((x.die d).region w).state = .armed) ∧ (((x.die d).region w).run = some q) ∧ (q.spec = true) ∧ (q.started = false) ∧ (1000000 ≤ ((x.die d).time.ns - ((x.die d).region w).tj).toNat + ((x.die d).region w).act.specLead.toNat) ∧ ((x.die d).red.grant = true) ∧ ((x.die d).mon.capOver = false) ∧ ((x.die d).badBounds w = false)) ∧
   (let d : DieId := .a
    let w : Fin 4 := 2
    let q : SolveRun := (sq 7 false)
    let s : State := (rgn2 fun r => { r with period := 7, state := .armed, run := some (sq 7 false) })
    let u := s.die d
    let r := u.region w
    (r.state = .armed) ∧ (r.run = some q) ∧ (q.spec = false) ∧ (q.started = false) ∧ (q.period = r.period) ∧ (u.red.grant = true) ∧ (u.mon.capOver = false) ∧ (u.badBounds w = false)) ∧
   (let d : DieId := .a
    let w : Fin 4 := 2
    let q : SolveRun := ({ (sq 7 false) with started := true, verified := true })
    let s : State := (slv 0 0 { (sq 7 false) with started := true, verified := true })
    let u := s.die d
    let r := u.region w
    let nobodyWaits (u : Die) : Prop := ∀ k : Fin 4, (u.region k).run.all (fun x => x.started || !x.due) = true
    let ends : SolveRes := u.solve w q
    let running : Prop := u.red.grant = true ∧ r.run = some q ∧ q.started = true ∧ q.ended = false ∧ nobodyWaits u
    (running) ∧ (u.pastDeadline w q = false) ∧ (q.failed = false) ∧ ((u.tmpl w).iterCap ≠ 0) ∧ (ends.valid = true)) ∧
   (let d : DieId := .a
    let w : Fin 4 := 2
    let q : SolveRun := ({ (sq 7 false) with started := true, refactor := true })
    let s : State := (slv 1 0x40 { (sq 7 false) with started := true, refactor := true })
    let u := s.die d
    let r := u.region w
    let nobodyWaits (u : Die) : Prop := ∀ k : Fin 4, (u.region k).run.all (fun x => x.started || !x.due) = true
    let ends : SolveRes := u.solve w q
    let running : Prop := u.red.grant = true ∧ r.run = some q ∧ q.started = true ∧ q.ended = false ∧ nobodyWaits u
    (running) ∧ (u.pastDeadline w q = false) ∧ (q.failed = false) ∧ (ends.pivot = true ∨ ends.range = true) ∧ (ends.valid = false)) ∧
   (let d : DieId := .a
    let w : Fin 4 := 2
    let q : SolveRun := ({ (sq 7 false) with started := true })
    let s : State := (rgn2w 0x14 200 fun r => { r with period := 7, state := .solving, tj := 1000, run := some { (sq 7 false) with started := true } })
    let u := s.die d
    let r := u.region w
    let nobodyWaits (u : Die) : Prop := ∀ k : Fin 4, (u.region k).run.all (fun x => x.started || !x.due) = true
    let ends : SolveRes := u.solve w q
    let running : Prop := u.red.grant = true ∧ r.run = some q ∧ q.started = true ∧ q.ended = false ∧ nobodyWaits u
    (running) ∧ (u.pastDeadline w q = false) ∧ (q.failed = false) ∧ ((u.tmpl w).iterCap = 0) ∧ (ends.pivot = false) ∧ (ends.range = false)) ∧
   (let d : DieId := .a
    let w : Fin 4 := 2
    let q : SolveRun := ({ (sq 7 false) with started := true })
    let s : State := (rgn2 fun r => { r with period := 7, state := .solving, tj := 1000, run := some { (sq 7 false) with started := true } })
    let u := s.die d
    let r := u.region w
    let nobodyWaits (u : Die) : Prop := ∀ k : Fin 4, (u.region k).run.all (fun x => x.started || !x.due) = true
    let running : Prop := u.red.grant = true ∧ r.run = some q ∧ q.started = true ∧ q.ended = false ∧ nobodyWaits u
    (running) ∧ (u.pastDeadline w q = true) ∧ (q.period = r.period) ∧ (r.deadlineDone = false) ∧ (r.published = false) ∧ (r.state = .solving)) ∧
   (let d : DieId := .a
    let w : Fin 4 := 2
    let s : State := (rgn2w 0x13 200 fun r => { r with period := 7, state := .idle, tj := 1000, published := true })
    let u := s.die d
    let nobodyWaits (u : Die) : Prop := ∀ k : Fin 4, (u.region k).run.all (fun x => x.started || !x.due) = true
    let y := s.reach d (Die.dueDeadline w)
    let ry := (y.die d).region w
    let due : Prop := ry.deadlineDone = false ∧ ry.state ≠ .off ∧ ry.state ≠ .tail ∧ (y.die d).red.grant = true ∧
      ((y.die d).tmpl w).deadlineNs ≤ ((y.die d).time.ns - ry.tj).toNat ∧ nobodyWaits (y.die d)
    (due) ∧ (ry.published = true) ∧ (ry.run = none)) ∧
   (let d : DieId := .a
    let w : Fin 4 := 2
    let s : State := (rgn2w 0x13 200 fun r => { r with period := 7, state := .idle, tj := 1000 })
    let u := s.die d
    let nobodyWaits (u : Die) : Prop := ∀ k : Fin 4, (u.region k).run.all (fun x => x.started || !x.due) = true
    let y := s.reach d (Die.dueDeadline w)
    let ry := (y.die d).region w
    let due : Prop := ry.deadlineDone = false ∧ ry.state ≠ .off ∧ ry.state ≠ .tail ∧ (y.die d).red.grant = true ∧
      ((y.die d).tmpl w).deadlineNs ≤ ((y.die d).time.ns - ry.tj).toNat ∧ nobodyWaits (y.die d)
    (due) ∧ (ry.published = false) ∧ (ry.run = none)) ∧
   (let d : DieId := .a
    let w : Fin 4 := 2
    let q : SolveRun := ({ (sq 7 false) with started := true })
    let s : State := (rgn2w 0x13 200 fun r => { r with period := 7, state := .solving, tj := 1000, run := some { (sq 7 false) with started := true } })
    let u := s.die d
    let nobodyWaits (u : Die) : Prop := ∀ k : Fin 4, (u.region k).run.all (fun x => x.started || !x.due) = true
    let y := s.reach d (Die.dueDeadline w)
    let ry := (y.die d).region w
    let due : Prop := ry.deadlineDone = false ∧ ry.state ≠ .off ∧ ry.state ≠ .tail ∧ (y.die d).red.grant = true ∧
      ((y.die d).tmpl w).deadlineNs ≤ ((y.die d).time.ns - ry.tj).toNat ∧ nobodyWaits (y.die d)
    (due) ∧ (ry.published = false) ∧ (ry.run = some q) ∧ (q.period = ry.period) ∧ (q.started = true) ∧ (q.ended = false) ∧ (ry.state = .solving)) ∧
   (let d : DieId := .a
    let w : Fin 4 := 2
    let q : SolveRun := ({ (sq 7 true) with started := true })
    let s : State := (rgn2 fun r => { r with period := 7, state := .solving, tj := 1000, run := some { (sq 7 true) with started := true } })
    let u := s.die d
    let nobodyWaits (u : Die) : Prop := ∀ k : Fin 4, (u.region k).run.all (fun x => x.started || !x.due) = true
    let z := s.reach d (Die.dueVerify w)
    let rz := (z.die d).region w
    let checks : Prop := rz.state ≠ .off ∧ rz.verifyDone = false ∧ (z.die d).verifyDue w = true ∧ (z.die d).red.grant = true ∧
      rz.run = some q ∧ q.spec = true ∧ q.started = true ∧ q.verified = false ∧ q.period = rz.period ∧ nobodyWaits (z.die d)
    let agrees : Prop := ∀ p ∈ ((z.die d).regionJoints w).zipIdx, (rz.tjState.find? (·.1 = p.1)).all (fun m => decide (
      (m.2.1.toInt - ((rz.pred[p.2]?).getD (0, 0)).1.toInt).natAbs ≤ rz.act.tolPos.toNat ∧
      (m.2.2.toInt - ((rz.pred[p.2]?).getD (0, 0)).2.toInt).natAbs ≤ rz.act.tolVel.toNat)) = true
    (checks) ∧ (agrees)) ∧
   (let d : DieId := .a
    let w : Fin 4 := 2
    let q : SolveRun := ({ (sq 7 true) with started := true })
    let s : State := ((rgn2 fun r => { r with period := 7, state := .solving, tjState := [(5, 3, 0)], run := some { (sq 7 true) with started := true } }).upd .a fun d => { d with joints := vset d.joints 5 { used := true, cfg := { cluster := 8 }, fbPos := 3 } })
    let u := s.die d
    let nobodyWaits (u : Die) : Prop := ∀ k : Fin 4, (u.region k).run.all (fun x => x.started || !x.due) = true
    let z := s.reach d (Die.dueVerify w)
    let rz := (z.die d).region w
    let checks : Prop := rz.state ≠ .off ∧ rz.verifyDone = false ∧ (z.die d).verifyDue w = true ∧ (z.die d).red.grant = true ∧
      rz.run = some q ∧ q.spec = true ∧ q.started = true ∧ q.verified = false ∧ q.period = rz.period ∧ nobodyWaits (z.die d)
    let agrees : Prop := ∀ p ∈ ((z.die d).regionJoints w).zipIdx, (rz.tjState.find? (·.1 = p.1)).all (fun m => decide (
      (m.2.1.toInt - ((rz.pred[p.2]?).getD (0, 0)).1.toInt).natAbs ≤ rz.act.tolPos.toNat ∧
      (m.2.2.toInt - ((rz.pred[p.2]?).getD (0, 0)).2.toInt).natAbs ≤ rz.act.tolVel.toNat)) = true
    (checks) ∧ (¬agrees) ∧ (q.ended = true → (z.die d).pastDeadline w q = false)) ∧
   (let d : DieId := .a
    let w : Fin 4 := 2
    let q : SolveRun := ({ (sq 7 true) with started := true, failed := true })
    let s : State := (rgn2w 0x13 200 fun r => { r with period := 7, state := .solving, tj := 1000, run := some { (sq 7 true) with started := true, failed := true } })
    let u := s.die d
    let r := u.region w
    let nobodyWaits (u : Die) : Prop := ∀ k : Fin 4, (u.region k).run.all (fun x => x.started || !x.due) = true
    (r.run = some q) ∧ (q.failed = true) ∧ (u.pastDeadline w q = false) ∧ (nobodyWaits u)) ∧
   (let d : DieId := .a
    let w : Fin 4 := 2
    let s : State := ((rgn2 fun r => { r with period := 7, state := .idle, toPublish := some (true, false), missConsec := 2 }).upd .a fun d => { d with time := { d.time with start := 1000 } })
    let u := s.die d
    let r := u.region w
    (r.toPublish.isSome = true) ∧ (u.time.ns = u.time.start)) := by
  refine ⟨?_, ?_, ?_, ?_, ?_, ?_, ?_, ?_, ?_, ?_, ?_, ?_, ?_⟩ <;> (try dsimp only [Die.readable, Die.busReadable]) <;> decide +kernel

theorem sens_length (k flags seq : BitVec 8) : (sensPay k flags seq).length = 32 := by simp [sensPay, aesCmac_length]
/-- The tag of `sensPay` is that of its header under the all-zero key. -/
theorem sens_auth (x : Sensor) (k flags seq : BitVec 8) (hk : x.key = some (List.replicate 16 0)) (hs : x.state ≠ .unused) :
    (decide ((sensPay k flags seq).length = 32 + 12 * fieldAt (sensPay k flags seq) 2 1) &&
      decide (fieldAt (sensPay k flags seq) 0 1 = 1) && decide (fieldAt (sensPay k flags seq) 2 1 ≤ 16) &&
      decide (x.state ≠ .unused) && (match x.key with
        | none => false
        | some key => decide (aesCmac key ((sensPay k flags seq).take (16 + 12 * fieldAt (sensPay k flags seq) 2 1)) =
            (sensPay k flags seq).drop (16 + 12 * fieldAt (sensPay k flags seq) 2 1)))) = true := by
  have h2 : fieldAt (sensPay k flags seq) 2 1 = 0 := by simp [fieldAt, sliceBytes, sensPay, leNat]
  have h0 : fieldAt (sensPay k flags seq) 0 1 = 1 := by simp [fieldAt, sliceBytes, sensPay, leNat]
  rw [h2, h0, sens_length, hk]
  simp [hs, sensPay]
/-- The hypotheses of each clause of `SepSensors` can be met. -/
theorem wit_SepSensors :
   (let d : DieId := .a
    let p : List (BitVec 8) := [1]
    let n : Nat := 4
    let s : State := (sens3 fun x => x)
    let e := s.elapse n
    let z := e.die d
    (z.awake domSep = true) ∧ (p.length < 2 ∨ 15 < fieldAt p 1 1)) ∧
   (let d : DieId := .a
    let k : Fin 16 := 3
    let p : List (BitVec 8) := ([1, 3, 0, 1, 9, 0, 0, 0, 0xE8, 3, 0, 0, 5, 0, 0, 0] ++ List.replicate 17 0)
    let n : Nat := 4
    let s : State := (sens3 fun x => x)
    let e := s.elapse n
    let z := e.die d
    let x := z.sep.sensor k
    let npts := fieldAt p 2 1
    let authentic : Bool := decide (p.length = 32 + 12 * npts) && decide (fieldAt p 0 1 = 1) && decide (npts ≤ 16) &&
      decide (x.state ≠ .unused) && (match x.key with
        | none => false
        | some key => decide (aesCmac key (p.take (16 + 12 * npts)) = p.drop (16 + 12 * npts)))
    (z.awake domSep = true) ∧ (2 ≤ p.length) ∧ (fieldAt p 1 1 = k.val) ∧ (authentic = false)) ∧
   (let d : DieId := .a
    let k : Fin 16 := 3
    let p : List (BitVec 8) := (sensPay 3 1 9)
    let n : Nat := 4
    let s : State := (sens3 fun x => { x with seqSeen := true, lastSeq := 9 })
    let e := s.elapse n
    let z := e.die d
    let x := z.sep.sensor k
    let npts := fieldAt p 2 1
    let seq : BitVec 32 := BitVec.ofNat 32 (fieldAt p 4 4)
    let frame : SensFrame := { ts := BitVec.ofNat 32 (fieldAt p 8 4), zones := BitVec.ofNat 32 (fieldAt p 12 4), pts := payloadPts p npts }
    let authentic : Bool := decide (p.length = 32 + 12 * npts) && decide (fieldAt p 0 1 = 1) && decide (npts ≤ 16) &&
      decide (x.state ≠ .unused) && (match x.key with
        | none => false
        | some key => decide (aesCmac key (p.take (16 + 12 * npts)) = p.drop (16 + 12 * npts)))
    let timely : Bool := (!x.seqSeen || decide (1 ≤ (seq - x.lastSeq).toNat ∧ (seq - x.lastSeq).toNat < 2 ^ 31)) &&
      decide (-1000 ≤ diff32 z.time.ns frame.ts) &&
      decide (diff32 z.time.ns frame.ts ≤ (((z.sep.geom.sensor k).map (·.maxAge)).getD 0 : Nat))
    (z.awake domSep = true) ∧ (2 ≤ p.length) ∧ (fieldAt p 1 1 = k.val) ∧ (authentic = true) ∧ (timely = false)) ∧
   (let d : DieId := .a
    let k : Fin 16 := 3
    let p : List (BitVec 8) := (sensPay 3 1 9)
    let n : Nat := 4
    let s : State := (sens3 fun x => x)
    let e := s.elapse n
    let z := e.die d
    let x := z.sep.sensor k
    let npts := fieldAt p 2 1
    let seq : BitVec 32 := BitVec.ofNat 32 (fieldAt p 4 4)
    let frame : SensFrame := { ts := BitVec.ofNat 32 (fieldAt p 8 4), zones := BitVec.ofNat 32 (fieldAt p 12 4), pts := payloadPts p npts }
    let authentic : Bool := decide (p.length = 32 + 12 * npts) && decide (fieldAt p 0 1 = 1) && decide (npts ≤ 16) &&
      decide (x.state ≠ .unused) && (match x.key with
        | none => false
        | some key => decide (aesCmac key (p.take (16 + 12 * npts)) = p.drop (16 + 12 * npts)))
    let timely : Bool := (!x.seqSeen || decide (1 ≤ (seq - x.lastSeq).toNat ∧ (seq - x.lastSeq).toNat < 2 ^ 31)) &&
      decide (-1000 ≤ diff32 z.time.ns frame.ts) &&
      decide (diff32 z.time.ns frame.ts ≤ (((z.sep.geom.sensor k).map (·.maxAge)).getD 0 : Nat))
    (z.awake domSep = true) ∧ (2 ≤ p.length) ∧ (fieldAt p 1 1 = k.val) ∧ (authentic = true) ∧ (timely = true) ∧ (fieldAt p 3 1 % 2 = 1)) ∧
   (let d : DieId := .a
    let k : Fin 16 := 3
    let p : List (BitVec 8) := (sensPay 3 0 9)
    let n : Nat := 4
    let s : State := (sens3 fun x => { x with state := .fresh })
    let e := s.elapse n
    let z := e.die d
    let x := z.sep.sensor k
    let npts := fieldAt p 2 1
    let seq : BitVec 32 := BitVec.ofNat 32 (fieldAt p 4 4)
    let frame : SensFrame := { ts := BitVec.ofNat 32 (fieldAt p 8 4), zones := BitVec.ofNat 32 (fieldAt p 12 4), pts := payloadPts p npts }
    let authentic : Bool := decide (p.length = 32 + 12 * npts) && decide (fieldAt p 0 1 = 1) && decide (npts ≤ 16) &&
      decide (x.state ≠ .unused) && (match x.key with
        | none => false
        | some key => decide (aesCmac key (p.take (16 + 12 * npts)) = p.drop (16 + 12 * npts)))
    let timely : Bool := (!x.seqSeen || decide (1 ≤ (seq - x.lastSeq).toNat ∧ (seq - x.lastSeq).toNat < 2 ^ 31)) &&
      decide (-1000 ≤ diff32 z.time.ns frame.ts) &&
      decide (diff32 z.time.ns frame.ts ≤ (((z.sep.geom.sensor k).map (·.maxAge)).getD 0 : Nat))
    (z.awake domSep = true) ∧ (2 ≤ p.length) ∧ (fieldAt p 1 1 = k.val) ∧ (authentic = true) ∧ (timely = true) ∧ (fieldAt p 3 1 % 2 = 0)) ∧
   (let d : DieId := .a
    let k : Fin 16 := 3
    let s : State := (sens3 fun x => { x with state := .fresh, frame := some { ts := 1000, zones := 0, pts := [] } })
    (let r := s.reach d (Die.dueStale k); let y := (r.die d).sep.sensor k; y.state = .fresh ∧ (match y.frame, (r.die d).sep.geom.sensor k with | some f, some g => decide ((g.maxAge : Int) < diff32 (r.die d).time.ns f.ts) | _, _ => false) = true)) ∧
   (let d : DieId := .a
    let s : State := (sens3 fun x => { x with state := .fresh, key := none, unhealthyDone := true, lastSeq := 5 })
    ((s.die d).reached 26 = true)) := by
  have two (k f q : BitVec 8) : 2 ≤ (sensPay k f q).length := by rw [sens_length]; decide
  refine ⟨?_, ?_, ⟨?_, two _ _ _, ?_, sens_auth _ _ _ _ ?_ ?_, ?_⟩, ⟨?_, two _ _ _, ?_, sens_auth _ _ _ _ ?_ ?_, ?_, ?_⟩,
    ⟨?_, two _ _ _, ?_, sens_auth _ _ _ _ ?_ ?_, ?_, ?_⟩, ?_, ?_⟩ <;> decide +kernel

/-- The hypotheses of each clause of `SepMonitor` can be met. -/
theorem wit_SepMonitor :
   (let d : DieId := .a
    let differ : BitVec 16 := 0
    let s : State := (sep1 fun x => { x with phaseS := true })
    let u := s.die d
    let p := u.sep
    (p.phaseS = true) ∧ (differ = 0) ∧ (u.phaseSOutput.2 = [])) ∧
   (let d : DieId := .a
    let a : Fin 16 := 1
    let differ : BitVec 16 := 2
    let s : State := ((sep1 fun x => { x with phaseS := true }).upd .a fun d => { d with joints := vset d.joints 5 { used := true, cfg := { arm := 1 } } })
    let u := s.die d
    let p := u.sep
    (p.phaseS = true) ∧ (bit differ a = true) ∧ ((p.geom.arm a).isSome = true)) ∧
   (let d : DieId := .a
    let w : Fin 4 := 0
    let differR : BitVec 4 := 0
    let s : State := ((sep1 fun x => { x with phaseR := true }).upd .a fun d => { d with regions := vset d.regions 0 { state := .idle } })
    let u := s.die d
    let p := u.sep
    (p.phaseR = true) ∧ (p.phaseS = false) ∧ (differR = 0) ∧ ((u.region w).state ≠ .off)) ∧
   (let d : DieId := .a
    let w : Fin 4 := 0
    let differR : BitVec 4 := 1
    let s : State := ((sep1 fun x => { x with phaseR := true }).upd .a fun d => { d with regions := vset d.regions 0 { state := .idle }, joints := vset d.joints 5 { used := true, cfg := { arm := 1 } } })
    let u := s.die d
    let p := u.sep
    (p.phaseR = true) ∧ (p.phaseS = false) ∧ ((u.region w).state ≠ .off) ∧ (bit differR w = true) ∧ (u.regionArms w ≠ [])) ∧
   (let d : DieId := .a
    let s : State := ((sep1 fun x => { x with phaseR := true }).upd .a fun d => { d with joints := vset d.joints 5 { used := true, cfg := { arm := 1 } } })
    let u := s.die d
    let p := u.sep
    (p.phaseS = true ∨ p.phaseR = true)) ∧
   (let d : DieId := .a
    let a : Fin 16 := 1
    let v : BitVec 16 := 0x4000
    let s : State := (sep1 fun x => { x with arms := Vector.replicate 16 { pairTarget := 0x5000 } })
    let u := s.die d
    let p := u.sep
    ((p.arm a).pairTarget.toNat ≥ min 0x8000 v.toNat) ∧ ((s.die d).reached 26 = true)) ∧
   (let d : DieId := .a
    let a : Fin 16 := 1
    let v : BitVec 16 := 0x4000
    let s : State := (sep1 fun x => x)
    let u := s.die d
    let p := u.sep
    ((p.arm a).pairTarget.toNat < min 0x8000 v.toNat) ∧ ((s.die d).reached 26 = true)) ∧
   (let d : DieId := .a
    let s : State := ((sep1 fun x => { x with state := .stopped, arms := Vector.replicate 16 { held := true } }).upd .a fun d => { d with joints := vset d.joints 5 { used := true, cfg := { arm := 1 }, atRest := true } })
    let u := s.die d
    let p := u.sep
    (p.state = .stopped) ∧ (∀ j : Fin 128, (u.jnt j).used = true ∧ (p.arm (u.jnt j).cfg.arm).held = true → (u.jnt j).atRest = true) ∧ ((s.die d).reached 26 = true)) ∧
   (let d : DieId := .a
    let s : State := ((sep1 fun x => { x with state := .stopped, arms := Vector.replicate 16 { held := true } }).upd .a fun d => { d with joints := vset d.joints 5 { used := true, cfg := { arm := 1 }, atRest := false } })
    let u := s.die d
    let p := u.sep
    (p.state ≠ .stopped ∨ (∃ j : Fin 128, (u.jnt j).used = true ∧ (u.jnt j).cfg.arm < 16 ∧ (p.arm (u.jnt j).cfg.arm).held = true ∧ (u.jnt j).atRest = false)) ∧ ((s.die d).reached 26 = true)) := by
  refine ⟨?_, ?_, ?_, ?_, ?_, ?_, ?_, ?_, ?_⟩ <;> (try dsimp only [Die.readable, Die.busReadable]) <;> decide +kernel

/-- The hypotheses of each clause of `QueueCommands` can be met. -/
theorem wit_QueueCommands :
   (let d : DieId := .a
    let q : Fin 1024 := 9
    let s : State := (q9 fun x => { x with cls := .hs, ring := [entry9, { entry9 with tgt := 6, commit := false }], epoch := 255, cntSquash := 65535, taken := 2 })
    let x := (s.die d).queue q
    (x.used = true) ∧ (x.cls = .hs) ∧ ((s.die d).reached 27 = true)) ∧
   (let d : DieId := .a
    let q : Fin 1024 := 9
    let s : State := (q9 fun x => { x with cls := .pg })
    let x := (s.die d).queue q
    (x.cls ≠ .hs) ∧ ((s.die d).reached 27 = true)) ∧
   (let d : DieId := .a
    let s : State := (q9 fun x => { x with cntStall := 1, cntSquash := 2, cntUnderrun := 3, cntLate := 4, ring := [entry9] })
    ((s.die d).reached 27 = true)) ∧
   (let d : DieId := .a
    let q : Fin 1024 := 9
    let cap : BitVec 9 := 3
    let s : State := (q9 fun x => { x with ring := [entry9, entry9, entry9, entry9] })
    let x := (s.die d).queue q
    (cap.toNat ≤ x.depth) ∧ ((s.die d).reached 27 = true)) ∧
   (let d : DieId := .a
    let q : Fin 1024 := 9
    let cap : BitVec 9 := 9
    let s : State := (q9 fun x => x)
    let x := (s.die d).queue q
    (x.depth < cap.toNat) ∧ ((s.die d).reached 27 = true)) := by
  refine ⟨?_, ?_, ?_, ?_, ?_⟩ <;> (try dsimp only [Die.readable, Die.busReadable]) <;> decide +kernel

/-- The hypotheses of each clause of `JointStops` can be met. -/
theorem wit_JointStops :
   (let d : DieId := .a
    let j : Fin 128 := 5
    let s : State := (jnt5 fun x => { x with stopped := true, atRest := true, stop := 3, fresh := some 4, pos := 77, mode := 1, source := 2 })
    let u := s.die d
    let x := u.jnt j
    let dom := 2 + x.cfg.cluster
    (x.used = true) ∧ (x.stopped = true) ∧ (x.atRest = true) ∧ ((s.die d).reached dom = true)) ∧
   (let d : DieId := .a
    let j : Fin 128 := 5
    let s : State := (jnt5 fun x => { x with stopped := true, atRest := false })
    let u := s.die d
    let x := u.jnt j
    let dom := 2 + x.cfg.cluster
    (x.used = true) ∧ (x.stopped = false ∨ x.atRest = false) ∧ ((s.die d).reached dom = true)) ∧
   (let d : DieId := .a
    let j : Fin 128 := 5
    let s : State := (arm2 (fun x => { x with source := 2 }) fun x => { x with stop := 2 })
    let u := s.die d
    let x := u.jnt j
    let dom := 2 + x.cfg.cluster
    (x.used = true) ∧ ((s.die d).reached dom = true)) ∧
   (let d : DieId := .a
    let j : Fin 128 := 5
    let s : State := (arm2 (fun x => { x with source := 2 }) fun x => { x with stop := 3 })
    let u := s.die d
    let x := u.jnt j
    let dom := 2 + x.cfg.cluster
    (x.used = true) ∧ ((s.die d).reached dom = true)) ∧
   (let d : DieId := .a
    let j : Fin 128 := 5
    let s : State := (arm2 (fun x => { x with stop := 2, en := true }) fun x => { x with source := 3, en := true })
    let u := s.die d
    let x := u.jnt j
    let dom := 2 + x.cfg.cluster
    (x.used = true) ∧ ((s.die d).reached dom = true)) ∧
   (let d : DieId := .a
    let j : Fin 128 := 5
    let s : State := (arm2 (fun x => { x with stop := 2, cfg := { x.cfg with qsTmaxMs := 0 } }) fun x => x)
    let r := s.reach d (Die.dueQstop j); let y := (r.die d).jnt j
    (y.stop = 2 ∧ y.atRest = false ∧ y.cfg.qsTmaxMs * 1000000 ≤ ((r.die d).time.ns - y.stopNs).toNat)) ∧
   (let d : DieId := .a
    let j : Fin 128 := 5
    let s : State := (arm2 (fun x => { x with lost := 5, pos := 9, mode := 2, source := 1 }) fun x => x)
    let u := s.die d
    let x := u.jnt j
    (5 ≤ x.lost) ∧ (x.fbLostDone = false) ∧ (x.used = true)) ∧
   (let d : DieId := .a
    let j : Fin 128 := 5
    let s : State := (arm2 (fun x => { x with lost := 13, stop := 2, en := true }) fun x => x)
    let u := s.die d
    let x := u.jnt j
    (13 ≤ x.lost) ∧ (x.stop ≠ 3) ∧ (x.used = true)) ∧
   (let d : DieId := .a
    let j : Fin 128 := 5
    let s : State := (arm2 (fun x => { x with act := { x.act with persist := 3 }, persistCnt := 3, plausDue := true }) fun x => x)
    let u := s.die d
    let x := u.jnt j
    (x.act.persist ≠ 0) ∧ (x.plausDue = true) ∧ (x.plausDone = false) ∧ (x.used = true)) ∧
   (let d : DieId := .a
    let j : Fin 128 := 5
    let s : State := (jnt5 fun x => { x with restCnt := 8, stop := 1, source := 2, mode := 1 })
    let u := s.die d
    let x := u.jnt j
    (8 ≤ x.restCnt) ∧ (x.atRest = false)) ∧
   (let d : DieId := .a
    let j : Fin 128 := 5
    let s : State := (jnt5 fun x => { x with stop := 1, source := 3, atRest := true, host := some { sigma := 0, sigmaS := 0, tauH := 0, entry := [] }, sp := { x.sp with q := 9 } })
    let u := s.die d
    let x := u.jnt j
    (x.host.map (·.sigma) = some 0) ∧ (x.stop = 1) ∧ (x.atRest = true)) ∧
   (let d : DieId := .a
    let j : Fin 128 := 5
    let s : State := (jnt5 fun x => { x with stop := 1, source := 3, host := some { sigma := 0, sigmaS := 0, tauH := 0, entry := [] } })
    let u := s.die d
    let x := u.jnt j
    (x.host.map (·.sigma) ≠ some 0 ∨ x.atRest = false) ∧ (x.stop = 1)) := by
  refine ⟨?_, ?_, ?_, ?_, ?_, ?_, ?_, ?_, ?_, ?_, ?_, ?_⟩ <;> (try dsimp only [Die.readable, Die.busReadable]) <;> decide +kernel

/-- The hypotheses of each clause of `JointHandover` can be met. -/
theorem wit_JointHandover :
   (let d : DieId := .a
    let j : Fin 128 := 5
    let mode : BitVec 2 := 1
    let source : BitVec 2 := 0
    let w : BitVec 5 := 3
    let s : State := (jnt5 fun x => x)
    let u := s.die d
    let x := u.jnt j
    let dom := 2 + x.cfg.cluster
    let allowed : Prop := ¬(mode = 0 ∧ source ≠ 0) ∧ ¬(mode = 3 ∧ source = 0) ∧ (source ≠ 0 → (u.srcQueue j source).isSome = true) ∧ w.toNat ≤ 16
    let quiet : Prop := x.stopped = false ∧ x.stop = 0 ∧ x.blending = false ∧ x.req = none
    (x.used = true) ∧ (allowed) ∧ (quiet) ∧ ((s.die d).reached dom = true)) ∧
   (let d : DieId := .a
    let j : Fin 128 := 5
    let mode : BitVec 2 := 0
    let source : BitVec 2 := 2
    let w : BitVec 5 := 3
    let s : State := (pg5 fun x => x)
    let u := s.die d
    let x := u.jnt j
    let dom := 2 + x.cfg.cluster
    let allowed : Prop := ¬(mode = 0 ∧ source ≠ 0) ∧ ¬(mode = 3 ∧ source = 0) ∧ (source ≠ 0 → (u.srcQueue j source).isSome = true) ∧ w.toNat ≤ 16
    let quiet : Prop := x.stopped = false ∧ x.stop = 0 ∧ x.blending = false ∧ x.req = none
    (x.used = true) ∧ (¬(allowed ∧ quiet)) ∧ ((s.die d).reached dom = true)) ∧
   (let d : DieId := .a
    let j : Fin 128 := 5
    let r : HoReq := ({ mode := 1, source := 0, w := 2, c := 6 })
    let s : State := (jnt5 fun x => { x with cfg := { x.cfg with library := true }, req := some { mode := 1, source := 0, w := 2, c := 6 }, mode := 2 })
    let u := s.die d
    let x := u.jnt j
    let law (m : BitVec 2) (f : LawState → LawState) : LawState × LawOut :=
      lawStep (u.lawPar j) x.cfg x.act m u.img.cell.tc r.c (u.checkSetpoint j r) x.pos.toInt x.vel.toInt (f { x.law with
        integ := 0, voff := none, limCnt := 0, entry := x.pos.toInt
        hold := if r.source = 0 then (u.checkSetpoint j r).q else x.law.hold
        phase := if m = 3 then 0 else 3 })
    (x.req = some r) ∧ (r.prep = none) ∧ (diff32 (r.c - 1) u.time.cyc ≤ 0) ∧ (x.cfg.library = true) ∧ (x.cfg.outVel = false) ∧ (r.mode ≠ 3) ∧ ((x.out.u - (law r.mode id).2.u).natAbs ≤ (u.lawPar j).iLim.toNat) ∧ (0 ≤ (u.lawPar j).iLim)) ∧
   (let d : DieId := .a
    let j : Fin 128 := 5
    let r : HoReq := ({ mode := 1, source := 0, w := 2, c := 6 })
    let s : State := (jnt5 fun x => { x with cfg := { x.cfg with library := true }, req := some { mode := 1, source := 0, w := 2, c := 6 }, mode := 2, out := { u := 5 } })
    let u := s.die d
    let x := u.jnt j
    let law (m : BitVec 2) (f : LawState → LawState) : LawState × LawOut :=
      lawStep (u.lawPar j) x.cfg x.act m u.img.cell.tc r.c (u.checkSetpoint j r) x.pos.toInt x.vel.toInt (f { x.law with
        integ := 0, voff := none, limCnt := 0, entry := x.pos.toInt
        hold := if r.source = 0 then (u.checkSetpoint j r).q else x.law.hold
        phase := if m = 3 then 0 else 3 })
    (x.req = some r) ∧ (r.prep = none) ∧ (diff32 (r.c - 1) u.time.cyc ≤ 0) ∧ (x.cfg.library = true) ∧ (x.cfg.outVel = false) ∧ (r.mode ≠ 3) ∧ ((u.lawPar j).iLim < ((x.out.u - (law r.mode id).2.u).natAbs : Int))) ∧
   (let d : DieId := .a
    let j : Fin 128 := 5
    let s : State := (jnt5 fun x => { x with blending := true, blend := some { c := 2, w := 3, mode := 1, source := 1, law := {}, sp := {} } })
    let u := s.die d
    let x := u.jnt j
    (x.blend.any (fun b => decide ((b.w : Int) ≤ diff32 u.time.cyc b.c)) = true)) ∧
   (let d : DieId := .a
    let j : Fin 128 := 5
    let s : State := (jnt5 fun x => { x with mode := 3, law := { x.law with phase := 0, limCnt := 4 }, out := { u := 88 } })
    let u := s.die d
    let x := u.jnt j
    (x.mode = 3) ∧ (x.law.phase = 0) ∧ (4 ≤ x.law.limCnt)) ∧
   (let d : DieId := .a
    let j : Fin 128 := 5
    let s : State := (pg5 fun x => { x with source := 2, regs := { x.regs with pgVmax := 1, pgAmax := 1, pgDmax := 1, pgJmax := 1, pgTarget := 50 } })
    let u := s.die d
    let x := u.jnt j
    let dom := 2 + x.cfg.cluster
    (x.used = true) ∧ (x.source = 2) ∧ (0 < x.regs.pgVmax.toInt) ∧ (0 < x.regs.pgAmax.toInt) ∧ (0 < x.regs.pgDmax.toInt) ∧ (0 < x.regs.pgJmax.toInt) ∧ ((s.die d).reached dom = true)) ∧
   (let d : DieId := .a
    let j : Fin 128 := 5
    let s : State := (pg5 fun x => { x with source := 1 })
    let u := s.die d
    let x := u.jnt j
    let dom := 2 + x.cfg.cluster
    (x.used = true) ∧ (x.source ≠ 2) ∧ ((s.die d).reached dom = true)) ∧
   (let d : DieId := .a
    let j : Fin 128 := 5
    let s : State := (jnt5 fun x => { x with pgBusy := true })
    let u := s.die d
    let x := u.jnt j
    (x.pgBusy = true) ∧ ((x.pg.length : Int) ≤ x.pg.since (u.tauAt x.region u.time.cyc))) ∧
   (let d : DieId := .a
    let j : Fin 128 := 5
    let q : Fin 1024 := 9
    let s : State := (tx5 fun q => q)
    let dueOut := s.reach d (Die.dueFOut j)
    let y := (dueOut.die d).jnt j
    (y.used = true) ∧ (y.cfg.classF = true) ∧ ((dueOut.die d).driving = true) ∧ ((dueOut.die d).txQueue y.cfg.lane y.roleNum = some q.val) ∧ (∀ t ∈ ((dueOut.die d).lane y.cfg.lane).taken, t.role = y.roleNum → t.cyc ≠ (dueOut.die d).time.cyc) ∧ ((((dueOut.die d).queue q).ring.any fun e => e.commit && decide (e.tgt = tgtOf (dueOut.die d).time.cyc)) = false)) ∧
   (let d : DieId := .a
    let j : Fin 128 := 5
    let q : Fin 1024 := 9
    let s : State := (tx5 fun q => { q with ring := [entry9] })
    let dueOut := s.reach d (Die.dueFOut j)
    let y := (dueOut.die d).jnt j
    (y.used = true) ∧ (y.cfg.classF = true) ∧ ((dueOut.die d).driving = true) ∧ ((dueOut.die d).txQueue y.cfg.lane y.roleNum = some q.val) ∧ (∀ t ∈ ((dueOut.die d).lane y.cfg.lane).taken, t.role = y.roleNum → t.cyc ≠ (dueOut.die d).time.cyc) ∧ ((((dueOut.die d).queue q).ring.any fun e => e.commit && decide (e.tgt = tgtOf (dueOut.die d).time.cyc)) = true)) := by
  refine ⟨?_, ?_, ?_, ?_, ?_, ?_, ?_, ?_, ?_, ?_, ?_⟩ <;> (try dsimp only [Die.readable, Die.busReadable]) <;> decide +kernel

/-- The hypotheses of each clause of `AxisMoves` can be met. -/
theorem wit_AxisMoves :
   (let d : DieId := .a
    let a : Fin 16 := 3
    let s : State := (ax3 fun x => { x with state := .moving, motion := .target, target := 100, vt := 2 ^ 40, lim := lim3 })
    let u := s.die d
    let x := u.axis a
    let t : Int := x.target.toInt
    let n := x.lastTick + 250 - u.time.per
    let ticks : Prop := u.ticksIn n = some n ∧ u.red.grant = true ∧ x.inRaw = x.inFilt ∧ (∀ k : Fin 3, u.pinActive a k = bit x.inRaw k)
    (ticks) ∧ (x.state = .moving) ∧ (x.motion = .target) ∧ (x.vt ≠ 0 ∨ x.pint ≠ t) ∧ (x.cmpWrite = false) ∧ (x.armed = false)) ∧
   (let d : DieId := .a
    let a : Fin 16 := 3
    let s : State := (ax3 fun x => { x with state := .rest, cmpWrite := true, cmpPos := 0, bothDir := true })
    let u := s.die d
    let x := u.axis a
    let n := x.lastTick + 250 - u.time.per
    let ticks : Prop := u.ticksIn n = some n ∧ u.red.grant = true ∧ x.inRaw = x.inFilt ∧ (∀ k : Fin 3, u.pinActive a k = bit x.inRaw k)
    (ticks) ∧ (x.state ≠ .off) ∧ (x.state ≠ .fault) ∧ (x.motion = .none) ∧ (x.vt = 0) ∧ (x.state ≠ .homing) ∧ (x.cmpWrite = true) ∧ (x.cmpPos.toInt = x.pint)) ∧
   (let d : DieId := .a
    let a : Fin 16 := 3
    let s : State := (axin fun x => { x with debounce := 5, inPin := 2 })
    let u := s.die d
    let x := u.axis a
    let n := x.lastTick + 250 - u.time.per
    (u.ticksIn n = some n) ∧ (x.state ≠ .off) ∧ (x.state ≠ .homing)) ∧
   (let d : DieId := .a
    let a : Fin 16 := 3
    let s : State := (ax3 fun x => { x with state := .moving, motion := .target })
    let u := s.die d
    let x := u.axis a
    let t : Int := x.target.toInt
    (x.state = .moving) ∧ (x.motion = .target) ∧ (x.vt = 0) ∧ (x.pint = t)) ∧
   (let d : DieId := .a
    let a : Fin 16 := 3
    let s : State := (ax3 fun x => { x with state := .stopping, stop := 2, motion := .brake true, ampSel := 2 })
    let u := s.die d
    let x := u.axis a
    (x.state = .stopping) ∧ (x.vt = 0) ∧ (x.motion = .brake true ∨ x.motion = .brake false)) ∧
   (let d : DieId := .a
    let a : Fin 16 := 3
    let s : State := (ax3 fun x => { x with state := .moving, vt := 5, motion := .target, targetReg := 0xFFFFFFFF, target := 7, regs := reg3, cnt := Vector.replicate 6 1 })
    let u := s.die d
    let x := u.axis a
    (x.state = .rest ∨ x.state = .moving) ∧ (x.targetReg.toInt = x.pint ∨ x.limActive (decide (x.targetReg.toInt < x.pint)) = false) ∧ (u.axLimitsOk a x.regs.vmax = true) ∧ (u.red.grant = true) ∧ ((s.die d).reached 33 = true)) ∧
   (let d : DieId := .a
    let a : Fin 16 := 3
    let s : State := (ax3 fun x => { x with state := .stopped, regs := reg3 })
    let u := s.die d
    let x := u.axis a
    ((x.state ≠ .rest ∧ x.state ≠ .moving) ∨ (x.targetReg.toInt ≠ x.pint ∧ x.limActive (decide (x.targetReg.toInt < x.pint)) = true) ∨ u.axLimitsOk a x.regs.vmax = false ∨ u.red.grant = false) ∧ ((s.die d).reached 33 = true)) ∧
   (let d : DieId := .a
    let a : Fin 16 := 3
    let s : State := (ax3 fun x => { x with state := .moving, vt := 5, motion := .target, stop := 0 })
    let u := s.die d
    let x := u.axis a
    (x.state = .moving) ∧ (x.vt ≠ 0) ∧ (x.stop = 0) ∧ ((s.die d).reached 33 = true)) ∧
   (let d : DieId := .a
    let a : Fin 16 := 3
    let s : State := (ax3 fun x => { x with state := .stopping, vt := 5, motion := .brake false, stop := 1 })
    let u := s.die d
    let x := u.axis a
    (x.state = .moving ∨ x.state = .stopping) ∧ (x.vt ≠ 0) ∧ (x.stop.toNat < 2) ∧ ((s.die d).reached 33 = true)) ∧
   (let d : DieId := .a
    let a : Fin 16 := 3
    let s : State := (ax3 fun x => { x with state := .stopping, vt := 5, motion := .brake false, stop := 1, homed := true })
    let u := s.die d
    let x := u.axis a
    (x.state = .rest ∨ x.state = .moving ∨ x.state = .stopping) ∧ (x.stop.toNat < 3) ∧ ((s.die d).reached 33 = true)) ∧
   (let d : DieId := .a
    let a : Fin 16 := 3
    let s : State := (ax3 fun x => { x with state := .stopped, stop := 3 })
    let u := s.die d
    let x := u.axis a
    (x.state = .stopped) ∧ (x.vt = 0) ∧ ((s.die d).reached 33 = true)) ∧
   (let d : DieId := .a
    let a : Fin 16 := 3
    let s : State := (ax3 fun x => { x with state := .moving })
    let u := s.die d
    let x := u.axis a
    (x.state ≠ .stopped ∨ x.vt ≠ 0) ∧ ((s.die d).reached 33 = true)) ∧
   (let d : DieId := .a
    let a : Fin 16 := 3
    let s : State := (ax3 fun x => { x with state := .rest, homed := true })
    let u := s.die d
    let x := u.axis a
    (x.state = .rest) ∧ ((s.die d).reached 33 = true)) ∧
   (let d : DieId := .a
    let a : Fin 16 := 3
    let s : State := (ax3 fun x => { x with state := .homing })
    let u := s.die d
    let x := u.axis a
    (x.state ≠ .rest) ∧ ((s.die d).reached 33 = true)) ∧
   (let d : DieId := .a
    let a : Fin 16 := 3
    let s : State := (ax3 fun x => { x with state := .fault })
    let u := s.die d
    let x := u.axis a
    (x.state = .fault) ∧ (x.fltAsserted = false) ∧ ((s.die d).reached 33 = true)) ∧
   (let d : DieId := .a
    let a : Fin 16 := 3
    let s : State := (ax3 fun x => { x with state := .fault, fltAsserted := true })
    let u := s.die d
    let x := u.axis a
    (x.state ≠ .fault ∨ x.fltAsserted = true) ∧ ((s.die d).reached 33 = true)) ∧
   (let d : DieId := .a
    let a : Fin 16 := 3
    let s : State := ((axin fun x => { x with state := .moving, vt := 9, homed := true, cfg := { x.cfg with bind := true, arm := 1 } }).upd .a fun d => { d with joints := vset d.joints 5 { used := true, cfg := { arm := 1 } } })
    let u := s.die d
    let x := u.axis a
    (x.state ≠ .off) ∧ (x.state ≠ .fault) ∧ (x.inHoming = false) ∧ (u.ballUsed (.saFlt a) = true)) ∧
   (let d : DieId := .a
    let a : Fin 16 := 3
    let low : Bool := true
    let s : State := (axin fun x => { x with state := .fault })
    let u := s.die d
    let x := u.axis a
    (x.state = .off ∨ x.state = .fault ∨ low = false) ∧ (u.ballUsed (.saFlt a) = true)) := by
  refine ⟨?_, ?_, ?_, ?_, ?_, ?_, ?_, ?_, ?_, ?_, ?_, ?_, ?_, ?_, ?_, ?_, ?_, ?_⟩ <;> (try dsimp only [Die.readable, Die.busReadable]) <;> decide +kernel

/-- The hypotheses of each clause of `AxisHoming` can be met. -/
theorem wit_AxisHoming :
   (let d : DieId := .a
    let a : Fin 16 := 3
    let s : State := (ax3 fun x => { x with regs := reg3 })
    let u := s.die d
    let x := u.axis a
    let free : Prop := x.inFilt.toNat < 2
    (x.state = .rest) ∧ (u.axLimitsOk a x.regs.vmax = true) ∧ (u.red.grant = true) ∧ (free) ∧ ((s.die d).reached 33 = true)) ∧
   (let d : DieId := .a
    let a : Fin 16 := 3
    let s : State := (ax3 fun x => { x with regs := reg3, state := .moving })
    let u := s.die d
    let x := u.axis a
    (x.state ≠ .rest ∨ u.axLimitsOk a x.regs.vmax = false ∨ u.red.grant = false) ∧ ((s.die d).reached 33 = true)) ∧
   (let d : DieId := .a
    let a : Fin 16 := 3
    let s : State := (ax3 fun x => { x with state := .homing, homeSt := 3, waitStep := true, heldMotion := .seek true })
    let u := s.die d
    let x := u.axis a
    let free : Prop := x.inFilt.toNat < 2
    let homing : Prop := x.state = .homing
    (homing) ∧ (x.waitStep = true) ∧ (x.vt = 0) ∧ (x.homeSt ≠ 5) ∧ (x.homeSt ≠ 6) ∧ (free) ∧ ((s.die d).reached 33 = true)) ∧
   (let d : DieId := .a
    let a : Fin 16 := 3
    let s : State := (ax3 fun x => { x with state := .homing, homeSt := 3 })
    let u := s.die d
    let x := u.axis a
    (x.waitStep = false) ∧ ((s.die d).reached 33 = true)) ∧
   (let d : DieId := .a
    let a : Fin 16 := 3
    let k : Fin 3 := 0
    let active : Bool := true
    let level : Bool := true
    let s : State := (axin fun x => { x with debounce := 0, inPin := 1, inRaw := 1, state := .homing, homeSt := 1, act := { reg3 with homeNeg := true } })
    let u := s.die d
    let x := u.axis a
    let n := vget x.rawAt k + 250 * x.debounce.toNat - u.time.per
    let holds : Prop := (u.ballUsed (.saIn a k) && (level != bit x.inPol k)) = active ∧ bit x.inPin k = level ∧ bit x.inRaw k = active ∧ bit x.inFilt k ≠ active ∧
      u.ticksIn n = some n ∧ x.state ≠ .off
    let free : Prop := x.inFilt.toNat < 2
    let homing : Prop := x.state = .homing
    (holds) ∧ (homing) ∧ (k = 0) ∧ (active = true) ∧ (x.homeSt = 1 ∨ x.homeSt = 2) ∧ (free)) ∧
   (let d : DieId := .a
    let a : Fin 16 := 3
    let k : Fin 3 := 0
    let active : Bool := true
    let level : Bool := true
    let s : State := (axin fun x => { x with debounce := 0, inPin := 1, inRaw := 1, state := .homing, homeSt := 4, vt := 8, act := reg3 })
    let u := s.die d
    let x := u.axis a
    let n := vget x.rawAt k + 250 * x.debounce.toNat - u.time.per
    let holds : Prop := (u.ballUsed (.saIn a k) && (level != bit x.inPol k)) = active ∧ bit x.inPin k = level ∧ bit x.inRaw k = active ∧ bit x.inFilt k ≠ active ∧
      u.ticksIn n = some n ∧ x.state ≠ .off
    let homing : Prop := x.state = .homing
    (holds) ∧ (homing) ∧ (k = 0) ∧ (active = true) ∧ (x.homeSt = 4)) ∧
   (let d : DieId := .a
    let a : Fin 16 := 3
    let k : Fin 3 := 0
    let active : Bool := false
    let level : Bool := false
    let s : State := (axin fun x => { x with inFilt := 1, state := .homing, homeSt := 3, vt := 8, act := reg3 })
    let u := s.die d
    let x := u.axis a
    let n := vget x.rawAt k + 250 * x.debounce.toNat - u.time.per
    let holds : Prop := (u.ballUsed (.saIn a k) && (level != bit x.inPol k)) = active ∧ bit x.inPin k = level ∧ bit x.inRaw k = active ∧ bit x.inFilt k ≠ active ∧
      u.ticksIn n = some n ∧ x.state ≠ .off
    let homing : Prop := x.state = .homing
    (holds) ∧ (homing) ∧ (k = 0) ∧ (active = false) ∧ (x.homeSt = 3) ∧ (x.waitStep = false) ∧ (x.pausing = false)) ∧
   (let d : DieId := .a
    let a : Fin 16 := 3
    let k : Fin 3 := 1
    let active : Bool := true
    let level : Bool := true
    let s : State := (axin fun x => { x with debounce := 0, inPin := 2, inRaw := 2, state := .homing, homeSt := 1, vt := 8, act := { reg3 with homeNeg := true, revOnLimit := true } })
    let u := s.die d
    let x := u.axis a
    let n := vget x.rawAt k + 250 * x.debounce.toNat - u.time.per
    let holds : Prop := (u.ballUsed (.saIn a k) && (level != bit x.inPol k)) = active ∧ bit x.inPin k = level ∧ bit x.inRaw k = active ∧ bit x.inFilt k ≠ active ∧
      u.ticksIn n = some n ∧ x.state ≠ .off
    let homing : Prop := x.state = .homing
    (holds) ∧ (homing) ∧ (x.waitStep = false) ∧ (k ≠ 0) ∧ (active = true) ∧ (x.homeSt = 1) ∧ (k = 1 ↔ x.act.homeNeg = true) ∧ (x.act.revOnLimit = true) ∧ (x.act.hostStep = false)) ∧
   (let d : DieId := .a
    let a : Fin 16 := 3
    let k : Fin 3 := 2
    let active : Bool := true
    let level : Bool := true
    let s : State := (axin fun x => { x with debounce := 0, inPin := 4, inRaw := 4, state := .homing, homeSt := 1, vt := 8, act := reg3 })
    let u := s.die d
    let x := u.axis a
    let n := vget x.rawAt k + 250 * x.debounce.toNat - u.time.per
    let holds : Prop := (u.ballUsed (.saIn a k) && (level != bit x.inPol k)) = active ∧ bit x.inPin k = level ∧ bit x.inRaw k = active ∧ bit x.inFilt k ≠ active ∧
      u.ticksIn n = some n ∧ x.state ≠ .off
    let homing : Prop := x.state = .homing
    (holds) ∧ (homing) ∧ (x.waitStep = false) ∧ (k ≠ 0) ∧ (active = true) ∧ ((x.homeSt = 1 ∧ x.act.revOnLimit = false ∧ (k = 1 ↔ x.act.homeNeg = true)) ∨ (x.homeSt = 2 ∧ ¬(k = 1 ↔ x.act.homeNeg = true)) ∨ x.homeSt = 3 ∨ x.homeSt = 4)) ∧
   (let d : DieId := .a
    let a : Fin 16 := 3
    let k : Fin 3 := 1
    let active : Bool := true
    let level : Bool := true
    let s : State := (axin fun x => { x with debounce := 0, inPin := 2, inRaw := 2, state := .moving, neg := true, vt := 8, limEn := true })
    let u := s.die d
    let x := u.axis a
    let n := vget x.rawAt k + 250 * x.debounce.toNat - u.time.per
    let holds : Prop := (u.ballUsed (.saIn a k) && (level != bit x.inPol k)) = active ∧ bit x.inPin k = level ∧ bit x.inRaw k = active ∧ bit x.inFilt k ≠ active ∧
      u.ticksIn n = some n ∧ x.state ≠ .off
    (holds) ∧ (x.state = .moving) ∧ (active = true) ∧ (x.limEn = true) ∧ (x.vt ≠ 0) ∧ (k = 1 ∧ x.neg = true ∨ k = 2 ∧ x.neg = false)) ∧
   (let d : DieId := .a
    let a : Fin 16 := 3
    let k : Fin 3 := 1
    let active : Bool := true
    let level : Bool := true
    let s : State := (axin fun x => { x with debounce := 0, inPin := 2, inRaw := 2, state := .moving, neg := true, vt := 8, limEn := false })
    let u := s.die d
    let x := u.axis a
    let n := vget x.rawAt k + 250 * x.debounce.toNat - u.time.per
    let holds : Prop := (u.ballUsed (.saIn a k) && (level != bit x.inPol k)) = active ∧ bit x.inPin k = level ∧ bit x.inRaw k = active ∧ bit x.inFilt k ≠ active ∧
      u.ticksIn n = some n ∧ x.state ≠ .off
    (holds) ∧ (x.state ≠ .homing) ∧ (active = false ∨ x.limEn = false ∨ x.vt = 0)) ∧
   (let d : DieId := .a
    let a : Fin 16 := 3
    let k : Fin 3 := 1
    let level : Bool := true
    let s : State := (axin fun x => { x with debounce := 2, inRaw := 2, state := .homing })
    let u := s.die d
    let x := u.axis a
    (bit x.inPin k ≠ level) ∧ (bit x.inRaw k = bit x.inFilt k ∨ u.time.per < 250 * x.debounce.toNat + vget x.rawAt k)) ∧
   (let d : DieId := .a
    let a : Fin 16 := 3
    let k : Fin 3 := 0
    let s : State := (axin fun x => { x with debounce := 0, inRaw := 1, state := .homing, homeSt := 4, vt := 8, chatN := 3, chatDue := 1 })
    let u := s.die d
    let x := u.axis a
    let homing : Prop := x.state = .homing
    (x.chatN ≠ 0) ∧ (bit x.chatDue k = true) ∧ (homing) ∧ (x.homeSt ≠ 6) ∧ (x.homeSt ≠ 7)) ∧
   (let d : DieId := .a
    let a : Fin 16 := 3
    let k : Fin 3 := 2
    let s : State := (ax3 fun x => { x with state := .moving, vt := 8, chatN := 3, chatDue := 7, chatterDone := 1 })
    let u := s.die d
    let x := u.axis a
    (x.chatN ≠ 0) ∧ (bit x.chatDue k = true) ∧ (x.state ≠ .homing) ∧ (x.state ≠ .off)) ∧
   (let d : DieId := .a
    let a : Fin 16 := 3
    let s : State := (ax3 fun x => { x with state := .homing, homeSt := 3, motion := .target, act := reg3 })
    let u := s.die d
    let x := u.axis a
    let free : Prop := x.inFilt.toNat < 2
    let homing : Prop := x.state = .homing
    (homing) ∧ (x.homeSt = 3) ∧ (free) ∧ (x.vt = 0) ∧ (x.motion = .target) ∧ (x.pint = x.target.toInt)) ∧
   (let d : DieId := .a
    let a : Fin 16 := 3
    let s : State := (ax3 fun x => { x with state := .homing, homeSt := 5, motion := .brake false, act := reg3, edge := 5, p := 2 ^ 50 })
    let u := s.die d
    let x := u.axis a
    let homing : Prop := x.state = .homing
    (homing) ∧ (x.homeSt = 5) ∧ (x.vt = 0) ∧ (x.motion = .brake false) ∧ (x.waitStep = false) ∧ (x.act.hostStep = false)) ∧
   (let d : DieId := .a
    let a : Fin 16 := 3
    let s : State := (ax3 fun x => { x with state := .homing, homeSt := 7, homeErr := 2, motion := .brake false })
    let u := s.die d
    let x := u.axis a
    let homing : Prop := x.state = .homing
    (homing) ∧ (x.homeSt = 7) ∧ (x.vt = 0) ∧ (x.motion = .brake false ∨ x.motion = .brake true)) := by
  refine ⟨?_, ?_, ?_, ?_, ?_, ?_, ?_, ?_, ?_, ?_, ?_, ?_, ?_, ?_, ?_, ?_, ?_⟩ <;> (try dsimp only [Die.readable, Die.busReadable]) <;> decide +kernel

/-- The hypotheses of each clause of `AxisOutputs` can be met. -/
theorem wit_AxisOutputs :
   (let d : DieId := .a
    let a : Fin 16 := 3
    let s : State := (ax3 fun x => { x with ampHold := 0x1000, ampRun := 0x4000, ampAcc := 0x7000, ke := 0x300, holdDelay := 9, ampSel := 2, p := 5 * 2 ^ 48, vt := 2 ^ 44, neg := true })
    let u := s.die d
    let pwm : Prop := u.pwm.start ≤ u.time.per
    ((u.ticksToPeak a).isSome = true) ∧ (pwm)) ∧
   (let d : DieId := .a
    let a : Fin 16 := 3
    let s : State := (ax3 fun x => { x with rkLatch := 0x5000, enLatch := true, peak := { angle := 37, v := -2 ^ 44, amp := 0x4000, hold := 3, ke := 0x300 } })
    let u := s.die d
    let x := u.axis a
    let pwm : Prop := u.pwm.start ≤ u.time.per
    (x.underrun = 0) ∧ ((u.ticksToValley a).isSome = true) ∧ (pwm)) ∧
   (let d : DieId := .a
    let a : Fin 16 := 3
    let s : State := (ax3 fun x => { x with underrun := 1, duty := (mkRat 1 3, 0), rkLatch := 0x5000 })
    let u := s.die d
    let x := u.axis a
    let pwm : Prop := u.pwm.start ≤ u.time.per
    (x.underrun = 1) ∧ ((u.ticksToValley a).isSome = true) ∧ (pwm)) ∧
   (let d : DieId := .a
    let a : Fin 16 := 3
    let s : State := (ax3 fun x => { x with underrun := 2, rkLatch := 0x5000, peak := { angle := 37, v := -2 ^ 44, amp := 0x4000, hold := 0x3000, ke := 0x300 } })
    let u := s.die d
    let x := u.axis a
    let pwm : Prop := u.pwm.start ≤ u.time.per
    (x.underrun = 2) ∧ ((u.ticksToValley a).isSome = true) ∧ (pwm)) ∧
   (let d : DieId := .a
    let a : Fin 16 := 3
    let q : Fin 1024 := 9
    let s : State := (pw3 0x15000 fun x => { x with underrun := 2 })
    let f := s.reach d (Die.dueDriveSet a)
    let fd := f.die d
    let group := fd.findQueue (fun q => decide (q.cls = .pw) && decide (bits q.cons 13 0 = bits (fd.uidAxis a) 13 0)) = some q.val
    let mine (e : QEntry) : Bool := e.commit && decide (e.tgt = tgtOf fd.time.cyc)
    (group) ∧ (((fd.queue q).ring.any mine) = true)) ∧
   (let d : DieId := .a
    let a : Fin 16 := 3
    let q : Fin 1024 := 9
    let s : State := ((pw3 0 fun x => x).upd .a fun d => d.updQueue 9 fun q => { q with ring := [] })
    let f := s.reach d (Die.dueDriveSet a)
    let fd := f.die d
    let group := fd.findQueue (fun q => decide (q.cls = .pw) && decide (bits q.cons 13 0 = bits (fd.uidAxis a) 13 0)) = some q.val
    let mine (e : QEntry) : Bool := e.commit && decide (e.tgt = tgtOf fd.time.cyc)
    (group) ∧ (((fd.queue q).ring.any mine) = false)) ∧
   (let d : DieId := .a
    let a : Fin 16 := 3
    let s : State := (ax3 fun x => { x with ampSel := 1, holdLeft := 0 })
    let u := s.die d
    let x := u.axis a
    (x.vt = 0) ∧ (x.holdLeft = 0)) ∧
   (let d : DieId := .a
    let s : State := (ax3 fun x => { x with vt := 7, neg := true, state := .moving })
    ((s.die d).reached 33 = true)) ∧
   (let d : DieId := .a
    let a : Fin 16 := 3
    let s : State := (ax3 fun x => { x with cmpOut := true, cmpEnd := 99 })
    let u := s.die d
    ((u.ticksToCmpEnd a).isSome = true)) ∧
   (let d : DieId := .a
    let a : Fin 16 := 3
    let s : State := (ax3 fun x => { x with stepOut := true, stepAt := 70 })
    let u := s.die d
    ((u.ticksToStepEnd a).isSome = true)) := by
  refine ⟨?_, ?_, ?_, ?_, ?_, ?_, ?_, ?_, ?_, ?_⟩ <;> (try dsimp only [Die.readable, Die.busReadable]) <;> decide +kernel

/-- The hypotheses of each clause of `EncoderCounts` can be met. -/
theorem wit_EncoderCounts :
   (let d : DieId := .a
    let k : Fin 16 := 3
    let la : Bool := true
    let lb : Bool := false
    let s : State := (pin3 fun x => x)
    let u := s.die d
    let x := u.enc k
    let counts : Prop := x.state ≠ .off ∧ x.cfg.mode = 1
    let calm : Prop := (u.pending.all fun i => decide (u.time.per < i.due)) = true
    (counts) ∧ (calm) ∧ (u.ballUsed (.encIn k 0) = true) ∧ (u.encRaw k 0 ≠ la) ∧ (u.encRaw k 1 = lb) ∧ ((x.pend.all fun i => decide (i.ch ≠ 0)) = true)) ∧
   (let d : DieId := .a
    let k : Fin 16 := 3
    let la : Bool := true
    let lb : Bool := false
    let g : InEdge := ({ due := 6, ch := 0, level := false, ns := 0 } : InEdge)
    let s : State := (pin3 fun x => { x with cfg := { x.cfg with filt := 3 }, pend := [{ due := 6, ch := 0, level := false, ns := 0 }] })
    let u := s.die d
    let x := u.enc k
    let counts : Prop := x.state ≠ .off ∧ x.cfg.mode = 1
    let calm : Prop := (u.pending.all fun i => decide (u.time.per < i.due)) = true
    (counts) ∧ (calm) ∧ (u.ballUsed (.encIn k 0) = true) ∧ (u.encRaw k 0 ≠ la) ∧ (u.encRaw k 1 = lb) ∧ (x.pend = [g]) ∧ (g.ch = 0) ∧ (u.time.per + 2 < g.due)) ∧
   (let d : DieId := .a
    let k : Fin 16 := 3
    let la : Bool := false
    let lb : Bool := false
    let n : Nat := 9
    let g : InEdge := ({ due := 5, ch := 0, level := true, ns := 0 } : InEdge)
    let s : State := (inc3 fun x => { x with count := 0xFFFFFFFF, hasDir := true, dir := true, edges := 3, edgeNs := 900, pend := [{ due := 5, ch := 0, level := true, ns := 0 }] })
    let u := s.die d
    let x := u.enc k
    let counts : Prop := x.state ≠ .off ∧ x.cfg.mode = 1
    let kept : Prop := u.encRaw k 0 = la ∧ u.encRaw k 1 = lb
    let due : Prop := u.pending = [g] ∧ x.pend = [g] ∧ u.clkPer = true ∧ u.time.per ≤ g.due ∧ g.due ≤ u.time.per + n
    let a := if g.ch = 0 then g.level else x.a
    let b := if g.ch = 1 then g.level else x.b
    let step : Int := match x.a, x.b, a, b with
      | false, false, true, false => 1 | true, false, true, true => 1 | true, true, false, true => 1 | false, true, false, false => 1
      | true, false, false, false => -1 | true, true, true, false => -1 | false, true, true, true => -1 | false, false, false, true => -1
      | _, _, _, _ => 0
    (counts) ∧ (kept) ∧ (due) ∧ (g.ch ≠ 2) ∧ (step ≠ 0)) ∧
   (let d : DieId := .a
    let k : Fin 16 := 3
    let la : Bool := false
    let n : Nat := 9
    let g : InEdge := ({ due := 5, ch := 2, level := true, ns := 0 } : InEdge)
    let s : State := (inc3 fun x => { x with count := 50, pend := [{ due := 5, ch := 2, level := true, ns := 0 }], idxLast := some 10 })
    let u := s.die d
    let x := u.enc k
    let counts : Prop := x.state ≠ .off ∧ x.cfg.mode = 1
    let due : Prop := u.pending = [g] ∧ x.pend = [g] ∧ u.clkPer = true ∧ u.time.per ≤ g.due ∧ g.due ≤ u.time.per + n
    let set : Bool := (u.elapse (g.due - u.time.per)).encSetting k
    let gate : Prop := x.cfg.idxGate = false ∨ (x.a = true ∧ x.b = true)
    (counts) ∧ (u.encRaw k 2 = la) ∧ (due) ∧ (g.ch = 2) ∧ (g.level = true) ∧ (x.i = false) ∧ (gate) ∧ (x.idxLast = none ∨ x.act.lines = 0 ∨ x.idxFirst = true ∨ x.idxFresh = true ∨ x.revRev = true ∨ set = true)) ∧
   (let d : DieId := .a
    let k : Fin 16 := 3
    let la : Bool := false
    let n : Nat := 9
    let g : InEdge := ({ due := 5, ch := 2, level := true, ns := 0 } : InEdge)
    let s : State := (inc3 fun x => { x with count := 50, pend := [{ due := 5, ch := 2, level := true, ns := 0 }], idxLast := some 10, act := { x.act with lines := 10 } })
    let u := s.die d
    let x := u.enc k
    let counts : Prop := x.state ≠ .off ∧ x.cfg.mode = 1
    let due : Prop := u.pending = [g] ∧ x.pend = [g] ∧ u.clkPer = true ∧ u.time.per ≤ g.due ∧ g.due ≤ u.time.per + n
    let set : Bool := (u.elapse (g.due - u.time.per)).encSetting k
    let judged : Prop := x.idxLast.isSome = true ∧ x.act.lines ≠ 0 ∧ x.idxFirst = false ∧ x.idxFresh = false ∧ x.revRev = false ∧
      x.revPend = none ∧ set = false
    let err := (((x.count - x.idxLast.getD 0).toInt.natAbs : Int) - 4 * x.act.lines.toNat).natAbs
    let gate : Prop := x.cfg.idxGate = false ∨ (x.a = true ∧ x.b = true)
    (counts) ∧ (u.encRaw k 2 = la) ∧ (due) ∧ (g.ch = 2) ∧ (g.level = true) ∧ (x.i = false) ∧ (gate) ∧ (judged) ∧ (err ≤ x.act.tol.toNat)) ∧
   (let d : DieId := .a
    let k : Fin 16 := 3
    let la : Bool := false
    let n : Nat := 9
    let g : InEdge := ({ due := 5, ch := 2, level := true, ns := 0 } : InEdge)
    let s : State := (inc3 fun x => { x with count := 51, pend := [{ due := 5, ch := 2, level := true, ns := 0 }], idxLast := some 10, act := { x.act with lines := 10 }, cfg := { x.cfg with idxFault := true } })
    let u := s.die d
    let x := u.enc k
    let counts : Prop := x.state ≠ .off ∧ x.cfg.mode = 1
    let due : Prop := u.pending = [g] ∧ x.pend = [g] ∧ u.clkPer = true ∧ u.time.per ≤ g.due ∧ g.due ≤ u.time.per + n
    let set : Bool := (u.elapse (g.due - u.time.per)).encSetting k
    let judged : Prop := x.idxLast.isSome = true ∧ x.act.lines ≠ 0 ∧ x.idxFirst = false ∧ x.idxFresh = false ∧ x.revRev = false ∧
      x.revPend = none ∧ set = false
    let err := (((x.count - x.idxLast.getD 0).toInt.natAbs : Int) - 4 * x.act.lines.toNat).natAbs
    let gate : Prop := x.cfg.idxGate = false ∨ (x.a = true ∧ x.b = true)
    (counts) ∧ (u.encRaw k 2 = la) ∧ (due) ∧ (g.ch = 2) ∧ (g.level = true) ∧ (x.i = false) ∧ (gate) ∧ (judged) ∧ (x.act.tol.toNat < err)) ∧
   (let d : DieId := .a
    let k : Fin 16 := 3
    let q : Fin 1024 := 9
    let s : State := ((inc3 fun x => { x with count := 50, edges := 5, edgesNow := 3, edgeNs := 900, interval := 100, dir := true }).upd .a fun d => d.updQueue 9 fun _ => { used := true, cls := .rx, prod := d.uidEnc 3, depth := 8, words := 4, lookout := 4, hc := 2, cap := 8, grant := 8 })
    let f := s.reach d (Die.dueSample k)
    let z := f.die d
    let y := z.enc k
    let gap : Nat := (z.time.ns - y.edgeNs).toNat
    let plain : Prop := y.state ≠ .off ∧ y.cfg.mode = 1 ∧ y.setTo = none ∧ y.clrFault = false ∧ y.clrCnt = false
    (plain) ∧ (y.state = .run) ∧ (2 ≤ y.edges) ∧ (y.revFirst = false) ∧ (gap < y.regs.tStop.toNat * 1000) ∧ (gap < 2 ^ 31) ∧ (y.revNow = false) ∧ (y.method = false) ∧ (y.edgesNow < y.regs.switchN.toNat) ∧ (30 ≤ y.interval.toNat) ∧ (y.interval.toNat < 2 ^ 31) ∧ (z.red.grant = true) ∧ (z.encQueue k = some q.val) ∧ (0 < (z.queue q).free) ∧ ((z.queue q).port ++ (z.queue q).ring = []) ∧ ((z.queue q).taken = 0)) ∧
   (let d : DieId := .a
    let k : Fin 16 := 3
    let s : State := (inc3 fun x => { x with count := 50, state := .fault })
    let f := s.reach d (Die.dueSample k)
    let z := f.die d
    let y := z.enc k
    let plain : Prop := y.state ≠ .off ∧ y.cfg.mode = 1 ∧ y.setTo = none ∧ y.clrFault = false ∧ y.clrCnt = false
    (plain) ∧ (y.edges = 0)) ∧
   (let d : DieId := .a
    let k : Fin 16 := 3
    let s : State := (inc3 fun x => { x with count := 50, setTo := some 9, edges := 0 })
    let f := s.reach d (Die.dueSample k)
    let z := f.die d
    let y := z.enc k
    (y.state ≠ .off) ∧ (y.cfg.mode = 1) ∧ (y.setTo.isSome = true) ∧ (y.edges = 0)) ∧
   (let d : DieId := .a
    let k : Fin 16 := 3
    let s : State := (inc3 fun x => x)
    let u := s.die d
    let x := u.enc k
    (x.cfg.mode = 1) ∧ (((s.die d.peer).enc k).cfg = x.cfg) ∧ (u.reached 33 = true)) ∧
   (let d : DieId := .a
    let k : Fin 16 := 3
    let s : State := (inc3 fun x => { x with state := .fault })
    let u := s.die d
    let x := u.enc k
    (x.cfg.mode = 1) ∧ (((s.die d.peer).enc k).cfg = x.cfg) ∧ (u.reached 33 = true)) ∧
   (let d : DieId := .a
    let k : Fin 16 := 3
    let s : State := (inc3 fun x => { x with state := .fault, cause := 1, cfg := { x.cfg with mode := 2 }, faultCyc := some 4, bad := 3 })
    let u := s.die d
    let x := u.enc k
    (x.cfg.mode ≠ 1) ∧ (x.state = .fault) ∧ (x.faultCyc ≠ some u.time.cyc) ∧ (u.reached 33 = true)) ∧
   (let d : DieId := .a
    let k : Fin 16 := 3
    let s : State := (inc3 fun x => { x with cfg := { x.cfg with mode := 3 }, cnt := Vector.replicate 6 9 })
    let u := s.die d
    let x := u.enc k
    (x.cfg.mode ≠ 1) ∧ (((s.die d.peer).enc k).cfg = x.cfg) ∧ (u.reached 33 = true)) ∧
   (let d : DieId := .a
    let k : Fin 16 := 3
    let s : State := (inc3 fun x => x)
    let u := s.die d
    let x := u.enc k
    (x.cfg.mode = 1) ∧ (((s.die d.peer).enc k).cfg = x.cfg) ∧ (u.reached 33 = true)) := by
  refine ⟨?_, ?_, ?_, ?_, ?_, ?_, ?_, ?_, ?_, ?_, ?_, ?_, ?_, ?_⟩ <;> (try dsimp only [Die.readable, Die.busReadable]) <;> decide +kernel

/-- The hypotheses of each clause of `EncoderFrames` can be met. -/
theorem wit_EncoderFrames :
   (let d : DieId := .a
    let k : Fin 16 := 3
    let ready : Bool := true
    let s : State := (ssi3 fun x => x)
    let f := s.reach d (Die.dueSample k)
    let y := (f.die d).enc k
    let free : Prop := y.state ≠ .off ∧ y.cfg.mode = 2 ∧ (f.die d).red.grant = true ∧ y.frame = none ∧
      (y.frameEnd.elim true fun t => decide (y.cfg.tm.toNat * 1000 ≤ ((f.die d).time.ns - t).toNat)) = true
    (free) ∧ (ready = true)) ∧
   (let d : DieId := .a
    let k : Fin 16 := 3
    let ready : Bool := false
    let s : State := (ssi3 fun x => x)
    let f := s.reach d (Die.dueSample k)
    let y := (f.die d).enc k
    let free : Prop := y.state ≠ .off ∧ y.cfg.mode = 2 ∧ (f.die d).red.grant = true ∧ y.frame = none ∧
      (y.frameEnd.elim true fun t => decide (y.cfg.tm.toNat * 1000 ≤ ((f.die d).time.ns - t).toNat)) = true
    (free) ∧ (ready = false)) ∧
   (let d : DieId := .a
    let k : Fin 16 := 3
    let hi : Bool := false
    let word : BitVec 40 := 0x155
    let m0 : BitVec 32 := 900
    let n : Nat := 200
    let s : State := (ssi3 fun x => { x with frame := some 900, frameAt := some 0, cfg := { x.cfg with per := 20 } })
    let e := s.elapse n
    let x := (e.die d).enc k
    let c := (s.die d).enc k
    let sampled := c.frameAt.getD 0 + (c.cfg.len.toNat + if c.cfg.endChk then 1 else 0) * c.cfg.per.toNat + c.cfg.dly.toNat
    let clocked : Prop := c.frame = some m0 ∧ c.frameAt.isSome = true ∧ n = sampled - (s.die d).time.per ∧ (s.die d).ticksIn n = some n
    let w := word.toNat
    let status : Nat := w / (if x.cfg.parity then 2 else 1) % 2 ^ x.cfg.nstat.toNat
    let parityBad : Bool := x.cfg.parity && oddOnes x.cfg.len.toNat (w % 2 ^ x.cfg.len.toNat)
    let errBit : Bool := (List.range 4).any fun i => decide (i < x.cfg.nstat.toNat) && bit x.cfg.errMask i && (decide (status / 2 ^ i % 2 = 1) == x.cfg.errPol)
    let endBad : Bool := x.cfg.endChk && hi
    (clocked) ∧ (parityBad = false) ∧ (endBad = false) ∧ (errBit = false)) ∧
   (let d : DieId := .a
    let k : Fin 16 := 3
    let hi : Bool := true
    let word : BitVec 40 := 0x155
    let m0 : BitVec 32 := 900
    let n : Nat := 220
    let s : State := (ssi3 fun x => { x with frame := some 900, frameAt := some 0, cfg := { x.cfg with per := 20, endChk := true } })
    let e := s.elapse n
    let x := (e.die d).enc k
    let c := (s.die d).enc k
    let sampled := c.frameAt.getD 0 + (c.cfg.len.toNat + if c.cfg.endChk then 1 else 0) * c.cfg.per.toNat + c.cfg.dly.toNat
    let clocked : Prop := c.frame = some m0 ∧ c.frameAt.isSome = true ∧ n = sampled - (s.die d).time.per ∧ (s.die d).ticksIn n = some n
    let w := word.toNat
    let status : Nat := w / (if x.cfg.parity then 2 else 1) % 2 ^ x.cfg.nstat.toNat
    let parityBad : Bool := x.cfg.parity && oddOnes x.cfg.len.toNat (w % 2 ^ x.cfg.len.toNat)
    let errBit : Bool := (List.range 4).any fun i => decide (i < x.cfg.nstat.toNat) && bit x.cfg.errMask i && (decide (status / 2 ^ i % 2 = 1) == x.cfg.errPol)
    let endBad : Bool := x.cfg.endChk && hi
    (clocked) ∧ (parityBad = true ∨ endBad = true ∨ errBit = true)) ∧
   (let d : DieId := .a
    let k : Fin 16 := 3
    let hi : Bool := false
    let word : BitVec 40 := 0x5
    let edges : BitVec 8 := 11
    let m0 : BitVec 32 := 900
    let n : Nat := 4
    let s : State := (ssi3 fun x => { x with cfg := { x.cfg with mode := 3 } })
    let e := s.elapse n
    let x := (e.die d).enc k
    let w := word.toNat
    let status : Nat := w / (if x.cfg.parity then 2 else 1) % 2 ^ x.cfg.nstat.toNat
    let parityBad : Bool := x.cfg.parity && oddOnes x.cfg.len.toNat (w % 2 ^ x.cfg.len.toNat)
    let errBit : Bool := (List.range 4).any fun i => decide (i < x.cfg.nstat.toNat) && bit x.cfg.errMask i && (decide (status / 2 ^ i % 2 = 1) == x.cfg.errPol)
    let endBad : Bool := x.cfg.endChk && hi
    let listens : Prop := x.state ≠ .off ∧ (x.cfg.mode = 3 ∨ (x.cfg.mode = 2 ∧ (e.die d).red.grant = false))
    let apart : Prop := x.cfg.mode = 3 → (x.frameEnd.elim true fun t => decide (x.cfg.lgap.toNat * 1000 ≤ (m0 - t).toNat)) = true
    (listens) ∧ (apart) ∧ (x.frame = none) ∧ (edges.toNat = x.cfg.len.toNat + 1) ∧ (parityBad = false) ∧ (endBad = false) ∧ (errBit = false)) ∧
   (let d : DieId := .a
    let k : Fin 16 := 3
    let edges : BitVec 8 := 10
    let m0 : BitVec 32 := 900
    let n : Nat := 4
    let s : State := (ssi3 fun x => { x with cfg := { x.cfg with mode := 3 } })
    let e := s.elapse n
    let x := (e.die d).enc k
    let listens : Prop := x.state ≠ .off ∧ (x.cfg.mode = 3 ∨ (x.cfg.mode = 2 ∧ (e.die d).red.grant = false))
    let apart : Prop := x.cfg.mode = 3 → (x.frameEnd.elim true fun t => decide (x.cfg.lgap.toNat * 1000 ≤ (m0 - t).toNat)) = true
    (listens) ∧ (edges.toNat ≠ x.cfg.len.toNat + 1 ∨ ¬ apart)) ∧
   (let d : DieId := .a
    let k : Fin 16 := 3
    let s : State := (ssi3 fun x => { x with state := .run, cfg := { x.cfg with mode := 3, errLimit := 0 }, goodNs := 1000 })
    let l := s.reach d (Die.dueListen k)
    let late := (l.die d).enc k
    (late.cfg.mode = 3) ∧ (late.cfg.errLimit.toNat * (l.die d).img.cell.tc ≤ ((l.die d).time.ns - late.goodNs).toNat) ∧ (late.state = .run)) ∧
   (let d : DieId := .a
    let k : Fin 16 := 3
    let n : Nat := 4947
    let s : State := (emu3 fun x => x)
    let c := (s.die d).enc k
    let target := Int.fdiv (c.unwrapped * 4 * c.cfg.emuLines.toNat) (2 ^ c.cfg.st)
    let tc := (s.die d).img.cell.tc
    let i := c.emuN + 1 - (target - c.emuC).natAbs
    let even := c.emuAt + if tc < 4 * (c.emuN * c.cfg.emuDiv.toNat) then i * c.cfg.emuDiv.toNat else i * (tc / 4) / max 1 c.emuN
    let stepAt := c.emuLast.elim even fun t => max even (t + c.cfg.emuDiv.toNat)
    (c.state ≠ .off) ∧ ((s.die d).red.grant = true) ∧ (c.cfg.pt = 2) ∧ (c.emuOn = true) ∧ (c.emuC ≠ target) ∧ (n = stepAt - (s.die d).time.per) ∧ ((s.die d).ticksIn n = some n)) := by
  refine ⟨?_, ?_, ?_, ?_, ?_, ?_, ?_, ?_⟩ <;> (try dsimp only [Die.readable, Die.busReadable]) <;> decide +kernel

/-- The hypotheses of each clause of `MirradHead` can be met. -/
theorem wit_MirradHead :
   (let d : DieId := .a
    let l : Fin 8 := 2
    let t : BitVec 32 := 2
    let s : State := (mb2 fun x => x)
    let drives (u : Die) : Prop := u.red.grant = true ∧ u.red.gateOpen = true ∧ u.red.live = true ∧ (u.unit 6 l).state = .active
    let b := s.reach d (Die.dueBeacon l)
    let x := (b.die d).lane l
    let c := (b.die d).time.cyc + x.laneOfs
    (drives (b.die d)) ∧ (x.state = .head) ∧ (x.session = some t) ∧ (x.startAfter = none) ∧ (x.beaconCyc ≠ some c)) ∧
   (let d : DieId := .a
    let l : Fin 8 := 2
    let s : State := (mb2 fun x => { x with beaconCyc := some 6 })
    let b := s.reach d (Die.dueBeacon l)
    let x := (b.die d).lane l
    let c := (b.die d).time.cyc + x.laneOfs
    (x.beaconCyc = some c)) ∧
   (let d : DieId := .a
    let l : Fin 8 := 2
    let t : BitVec 32 := 2
    let s : State := (mb2 fun x => { x with session := none })
    let drives (u : Die) : Prop := u.red.grant = true ∧ u.red.gateOpen = true ∧ u.red.live = true ∧ (u.unit 6 l).state = .active
    let b := s.reach d (Die.dueBeacon l)
    let x := (b.die d).lane l
    let c := (b.die d).time.cyc + x.laneOfs
    (drives (b.die d)) ∧ (x.state = .head) ∧ (x.session = none) ∧ ((x.startAfter.elim true fun t => decide (0 ≤ diff32 (b.die d).time.start t)) = true) ∧ (x.beaconCyc ≠ some c)) ∧
   (let d : DieId := .a
    let l : Fin 8 := 2
    let i : Fin 64 := 3
    let e : SchedEntry := ({ offset := 1900, node := 0, cls := 3, pollLen := 4, replyLen := 0, deadline := 0 })
    let t : BitVec 32 := 2
    let s : State := (mb2 fun x => x)
    let drives (u : Die) : Prop := u.red.grant = true ∧ u.red.gateOpen = true ∧ u.red.live = true ∧ (u.unit 6 l).state = .active
    let r := s.reach d (Die.dueEntry l i)
    let z := r.die d
    let y := z.lane l
    let k := z.time.cyc + y.laneOfs
    let serves (cls : Nat) : Prop := drives z ∧ y.state = .head ∧ y.session = some t ∧ (y.full = true ∨ 2 ≤ (k - t).toNat) ∧ y.host = false ∧ y.sent.contains i.val = false ∧
      y.cfg.sched[i.val]? = some e ∧ e.cls = cls ∧ y.waiting = none
    (serves 3)) ∧
   (let d : DieId := .a
    let l : Fin 8 := 2
    let i : Fin 64 := 3
    let s : State := (mb2 fun x => { x with sent := [3] })
    let r := s.reach d (Die.dueEntry l i)
    let z := r.die d
    let y := z.lane l
    (y.sent.contains i.val = true)) ∧
   (let d : DieId := .a
    let l : Fin 8 := 2
    let i : Fin 64 := 2
    let e : SchedEntry := ({ offset := 1400, node := 0, cls := 2, pollLen := 24, replyLen := 24, deadline := 600 })
    let t : BitVec 32 := 2
    let s : State := (mb2 fun x => x)
    let drives (u : Die) : Prop := u.red.grant = true ∧ u.red.gateOpen = true ∧ u.red.live = true ∧ (u.unit 6 l).state = .active
    let r := s.reach d (Die.dueEntry l i)
    let z := r.die d
    let y := z.lane l
    let k := z.time.cyc + y.laneOfs
    let serves (cls : Nat) : Prop := drives z ∧ y.state = .head ∧ y.session = some t ∧ (y.full = true ∨ 2 ≤ (k - t).toNat) ∧ y.host = false ∧ y.sent.contains i.val = false ∧
      y.cfg.sched[i.val]? = some e ∧ e.cls = cls ∧ y.waiting = none
    let fits (m : AcycReq) : Prop := e.node = 0 ∨ e.node = m.node
    (serves 2) ∧ (∀ m ∈ y.reqs, ¬ fits m)) ∧
   (let d : DieId := .a
    let l : Fin 8 := 2
    let i : Fin 64 := 2
    let e : SchedEntry := ({ offset := 1400, node := 0, cls := 2, pollLen := 24, replyLen := 24, deadline := 600 })
    let q : AcycReq := ({ op := 1, node := 3, obj := 1, sub := 0, ofs := 0, data := [], count := 16, own := false })
    let pre : List AcycReq := []
    let more : List AcycReq := []
    let t : BitVec 32 := 2
    let s : State := (mb2 fun x => { x with reqs := [{ op := 1, node := 3, obj := 1, sub := 0, ofs := 0, data := [], count := 16, own := false }] })
    let drives (u : Die) : Prop := u.red.grant = true ∧ u.red.gateOpen = true ∧ u.red.live = true ∧ (u.unit 6 l).state = .active
    let r := s.reach d (Die.dueEntry l i)
    let z := r.die d
    let y := z.lane l
    let k := z.time.cyc + y.laneOfs
    let serves (cls : Nat) : Prop := drives z ∧ y.state = .head ∧ y.session = some t ∧ (y.full = true ∨ 2 ≤ (k - t).toNat) ∧ y.host = false ∧ y.sent.contains i.val = false ∧
      y.cfg.sched[i.val]? = some e ∧ e.cls = cls ∧ y.waiting = none
    let fits (m : AcycReq) : Prop := e.node = 0 ∨ e.node = m.node
    let rank (m : AcycReq) : Nat := (if m.own then 0 else 2) + if m.sends = 0 then 1 else 0
    (serves 2) ∧ (y.reqs = pre ++ q :: more) ∧ (fits q) ∧ (∀ m ∈ pre, fits m → rank q < rank m) ∧ (∀ m ∈ more, fits m → rank q ≤ rank m)) ∧
   (let d : DieId := .a
    let l : Fin 8 := 2
    let i : Fin 64 := 0
    let e : SchedEntry := ({ offset := 400, node := 3, cls := 0, pollLen := 8, replyLen := 12, deadline := 500 })
    let t : BitVec 32 := 2
    let s : State := (mb2 fun x => x)
    let drives (u : Die) : Prop := u.red.grant = true ∧ u.red.gateOpen = true ∧ u.red.live = true ∧ (u.unit 6 l).state = .active
    let r := s.reach d (Die.dueEntry l i)
    let z := r.die d
    let y := z.lane l
    let k := z.time.cyc + y.laneOfs
    let serves (cls : Nat) : Prop := drives z ∧ y.state = .head ∧ y.session = some t ∧ (y.full = true ∨ 2 ≤ (k - t).toNat) ∧ y.host = false ∧ y.sent.contains i.val = false ∧
      y.cfg.sched[i.val]? = some e ∧ e.cls = cls ∧ y.waiting = none
    (serves 0) ∧ (z.nodeJoints l e.node = [])) ∧
   (let d : DieId := .a
    let l : Fin 8 := 2
    let i : Fin 64 := 0
    let e : SchedEntry := ({ offset := 400, node := 3, cls := 0, pollLen := 8, replyLen := 12, deadline := 500 })
    let j : Fin 128 := 5
    let t : BitVec 32 := 2
    let word : BitVec 32 := 0x1234
    let s : State := (mbj (fun x => x) fun q => { q with ring := [{ epoch := 0, tgt := 5, commit := true, last := true, payload := [0x1234] }] })
    let drives (u : Die) : Prop := u.red.grant = true ∧ u.red.gateOpen = true ∧ u.red.live = true ∧ (u.unit 6 l).state = .active
    let r := s.reach d (Die.dueEntry l i)
    let z := r.die d
    let y := z.lane l
    let k := z.time.cyc + y.laneOfs
    let serves (cls : Nat) : Prop := drives z ∧ y.state = .head ∧ y.session = some t ∧ (y.full = true ∨ 2 ≤ (k - t).toNat) ∧ y.host = false ∧ y.sent.contains i.val = false ∧
      y.cfg.sched[i.val]? = some e ∧ e.cls = cls ∧ y.waiting = none
    let g := z.jnt j
    let told : Prop := ∀ p ∈ y.applyOfs, p.1 = g.cfg.node → p.2.1 = g.cfg.jidx → p.2.2 = 0
    (serves 0) ∧ (z.nodeJoints l e.node = [j.val]) ∧ (g.cfg.classF = false) ∧ (told) ∧ (g.cfg.outVel = false) ∧ (z.laneJoints l g.roleNum = [j.val]) ∧ ((z.takeTx l g.roleNum).1 = some [[word]])) ∧
   (let d : DieId := .a
    let l : Fin 8 := 2
    let i : Fin 64 := 1
    let e : SchedEntry := ({ offset := 900, node := 3, cls := 1, pollLen := 8, replyLen := 0, deadline := 0 })
    let t : BitVec 32 := 2
    let s : State := (mb2 fun x => x)
    let drives (u : Die) : Prop := u.red.grant = true ∧ u.red.gateOpen = true ∧ u.red.live = true ∧ (u.unit 6 l).state = .active
    let r := s.reach d (Die.dueEntry l i)
    let z := r.die d
    let y := z.lane l
    let k := z.time.cyc + y.laneOfs
    let serves (cls : Nat) : Prop := drives z ∧ y.state = .head ∧ y.session = some t ∧ (y.full = true ∨ 2 ≤ (k - t).toNat) ∧ y.host = false ∧ y.sent.contains i.val = false ∧
      y.cfg.sched[i.val]? = some e ∧ e.cls = cls ∧ y.waiting = none
    (serves 1) ∧ (z.nodeJoints l e.node = [])) ∧
   (let d : DieId := .a
    let l : Fin 8 := 2
    let i : Fin 64 := 1
    let e : SchedEntry := ({ offset := 900, node := 3, cls := 1, pollLen := 8, replyLen := 0, deadline := 0 })
    let j : Fin 128 := 5
    let t : BitVec 32 := 2
    let word : BitVec 32 := 0x1234
    let s : State := (mbj (fun x => x) fun q => { q with ring := [{ epoch := 0, tgt := 6, commit := true, last := true, payload := [0x1234] }] })
    let drives (u : Die) : Prop := u.red.grant = true ∧ u.red.gateOpen = true ∧ u.red.live = true ∧ (u.unit 6 l).state = .active
    let r := s.reach d (Die.dueEntry l i)
    let z := r.die d
    let y := z.lane l
    let k := z.time.cyc + y.laneOfs
    let serves (cls : Nat) : Prop := drives z ∧ y.state = .head ∧ y.session = some t ∧ (y.full = true ∨ 2 ≤ (k - t).toNat) ∧ y.host = false ∧ y.sent.contains i.val = false ∧
      y.cfg.sched[i.val]? = some e ∧ e.cls = cls ∧ y.waiting = none
    let g := z.jnt j
    let told : Prop := ∀ p ∈ y.applyOfs, p.1 = g.cfg.node → p.2.1 = g.cfg.jidx → p.2.2 = 0
    (serves 1) ∧ (z.nodeJoints l e.node = [j.val]) ∧ (g.cfg.classF = false) ∧ (told) ∧ (g.cfg.outVel = false) ∧ (z.laneJoints l g.roleNum = [j.val]) ∧ (z.peekTx l g.roleNum = some [[word]])) := by
  refine ⟨?_, ?_, ?_, ?_, ?_, ?_, ?_, ?_, ?_, ?_, ?_⟩ <;> (try dsimp only [Die.readable, Die.busReadable]) <;> decide +kernel

/-- The hypotheses of each clause of `MirradLane` can be met. -/
theorem wit_MirradLane :
   (let d : DieId := .a
    let l : Fin 8 := 2
    let s : State := (mb2 fun x => { x with state := .silent, lastSof := 0xFFFE8000 })
    let drives (u : Die) : Prop := u.red.grant = true ∧ u.red.gateOpen = true ∧ u.red.live = true ∧ (u.unit 6 l).state = .active
    let q := s.reach d (Die.dueSilence l)
    let z := q.die d
    let y := z.lane l
    let quiet : Int := diff32 z.time.ns y.lastSof
    let tc := z.img.cell.tc
    (drives z) ∧ (y.state = .silent) ∧ (((3 * tc + 4000 * y.cfg.rank.toNat : Nat) : Int) ≤ quiet)) ∧
   (let d : DieId := .a
    let l : Fin 8 := 2
    let s : State := (mb2 fun x => { x with state := .clash, lastSof := 0xFFFF0000, epochRx := some 255 })
    let drives (u : Die) : Prop := u.red.grant = true ∧ u.red.gateOpen = true ∧ u.red.live = true ∧ (u.unit 6 l).state = .active
    let q := s.reach d (Die.dueSilence l)
    let z := q.die d
    let y := z.lane l
    let quiet : Int := diff32 z.time.ns y.lastSof
    (drives z) ∧ (y.state = .clash) ∧ ((((y.cfg.rank.toNat + 1) * 8000 : Nat) : Int) ≤ quiet)) ∧
   (let d : DieId := .a
    let l : Fin 8 := 2
    let s : State := (mb2 fun x => { x with state := .backup, lastSof := 0xFFFF0000 })
    let q := s.reach d (Die.dueSilence l)
    let z := q.die d
    let y := z.lane l
    let quiet : Int := diff32 z.time.ns y.lastSof
    let tc := z.img.cell.tc
    (y.state = .backup) ∧ (((3 * tc : Nat) : Int) ≤ quiet)) ∧
   (let d : DieId := .a
    let l : Fin 8 := 2
    let s : State := (mb2 fun x => { x with state := .starting, clashCnt := 3 })
    let r := s.reach d (Die.dueReadback l true)
    let h := (r.die d).lane l
    (h.state = .starting)) ∧
   (let d : DieId := .a
    let l : Fin 8 := 2
    let s : State := (mb2 fun x => { x with state := .starting, clashCnt := 2 })
    let u := s.die d
    let x := u.lane l
    (x.state = .starting) ∧ (x.clashCnt.toNat ≤ 3) ∧ (u.red.grant = true)) ∧
   (let d : DieId := .a
    let l : Fin 8 := 2
    let s : State := (mb2 fun x => { x with state := .backup, missing := 2, beaconOk := true, lastCyc := 70, lastStart := BitVec.ofInt 32 (-30350), epoch := 255, applyOfs := [] })
    let drives (u : Die) : Prop := u.red.grant = true ∧ u.red.gateOpen = true ∧ u.red.live = true ∧ (u.unit 6 l).state = .active
    let b := s.reach d (Die.dueBackup l)
    let g := (b.die d).lane l
    let next := g.lastStart + BitVec.ofNat 32 g.lastTc
    (drives (b.die d)) ∧ (g.state = .backup) ∧ (g.missing = 2) ∧ (g.beaconOk = true) ∧ (diff32 g.lastSof (next - 500) < 0) ∧ (0 ≤ diff32 (b.die d).time.ns (next + BitVec.ofNat 32 (4 * g.cfg.beaconOfs + 1000 * g.cfg.rank.toNat)))) ∧
   (let d : DieId := .a
    let l : Fin 8 := 2
    let s : State := (mb2 fun x => { x with state := .backup, missing := 1, beaconOk := true })
    let b := s.reach d (Die.dueBackup l)
    let g := (b.die d).lane l
    let next := g.lastStart + BitVec.ofNat 32 g.lastTc
    (g.state = .backup) ∧ (g.missing ≠ 2 ∨ g.beaconOk = false ∨ 0 ≤ diff32 g.lastSof (next - 500))) ∧
   (let d : DieId := .a
    let l : Fin 8 := 2
    let s : State := (mb2 fun x => { x with unread := 1 })
    let drives (u : Die) : Prop := u.red.grant = true ∧ u.red.gateOpen = true ∧ u.red.live = true ∧ (u.unit 6 l).state = .active
    let u := s.die d
    let x := u.lane l
    (drives u) ∧ (x.state = .head)) ∧
   (let d : DieId := .a
    let l : Fin 8 := 2
    let s : State := (mb2 fun x => { x with unread := 0 })
    let drives (u : Die) : Prop := u.red.grant = true ∧ u.red.gateOpen = true ∧ u.red.live = true ∧ (u.unit 6 l).state = .active
    let u := s.die d
    let x := u.lane l
    (drives u) ∧ (x.state = .head) ∧ (x.unread = 0)) ∧
   (let d : DieId := .a
    let l : Fin 8 := 2
    let s : State := (mb2 fun x => { x with state := .stopped, clashCnt := 4 })
    let u := s.die d
    let x := u.lane l
    let used : Prop := u.img.pins.lanes.contains l.val = true
    (used) ∧ (x.state = .stopped) ∧ ((s.die d).reached 28 = true)) ∧
   (let d : DieId := .a
    let l : Fin 8 := 3
    let s : State := (mb2 fun x => x)
    let u := s.die d
    let used : Prop := u.img.pins.lanes.contains l.val = true
    (¬ used)) ∧
   (let d : DieId := .a
    let l : Fin 8 := 2
    let s : State := (mb2 fun x => { x with state := .head })
    let u := s.die d
    let x := u.lane l
    (x.state ≠ .stopped) ∧ ((s.die d).reached 28 = true)) ∧
   (let d : DieId := .a
    let l : Fin 8 := 2
    let s : State := (mb2 fun x => x)
    let u := s.die d
    let used : Prop := u.img.pins.lanes.contains l.val = true
    (used) ∧ ((s.die d).reached 28 = true)) ∧
   (let d : DieId := .a
    let l : Fin 8 := 2
    let s : State := (mb2 fun x => { x with cnt := Vector.replicate 13 7 })
    let u := s.die d
    let used : Prop := u.img.pins.lanes.contains l.val = true
    (used) ∧ ((s.die d).reached 28 = true)) ∧
   (let d : DieId := .a
    let l : Fin 8 := 2
    let s : State := (mb2 fun x => { x with acBusy := true, acOp := 1 })
    let u := s.die d
    let x := u.lane l
    let used : Prop := u.img.pins.lanes.contains l.val = true
    (used) ∧ (x.acBusy = true ∨ x.acOp = 0 ∨ x.acOp = 3) ∧ ((s.die d).reached 28 = true)) ∧
   (let d : DieId := .a
    let l : Fin 8 := 2
    let e : SchedEntry := ({ offset := 1400, node := 0, cls := 2, pollLen := 24, replyLen := 24, deadline := 600 })
    let s : State := (mb2 fun x => { x with acOp := 1, acNode := 3, acCount := 16, acObj := 1 })
    let u := s.die d
    let x := u.lane l
    let used : Prop := u.img.pins.lanes.contains l.val = true
    let need := (if x.acOp = 2 then e.pollLen else e.replyLen)
    (used) ∧ (x.acBusy = false) ∧ (x.acOp = 1 ∨ x.acOp = 2) ∧ (e ∈ x.cfg.sched) ∧ (e.cls = 2) ∧ (e.node = 0 ∨ e.node = x.acNode.toNat) ∧ (x.acCount.toNat + 8 ≤ need) ∧ ((s.die d).reached 28 = true)) ∧
   (let d : DieId := .a
    let l : Fin 8 := 2
    let e : SchedEntry := ({ offset := 1400, node := 0, cls := 2, pollLen := 24, replyLen := 24, deadline := 600 })
    let s : State := (mb2 fun x => { x with acOp := 1, acNode := 3, acCount := 17, acObj := 1 })
    let u := s.die d
    let x := u.lane l
    let used : Prop := u.img.pins.lanes.contains l.val = true
    (used) ∧ (x.acBusy = false) ∧ (x.acOp = 1 ∨ x.acOp = 2) ∧ (∀ e ∈ x.cfg.sched, e.cls = 2 → e.node = 0 ∨ e.node = x.acNode.toNat → (if x.acOp = 2 then e.pollLen else e.replyLen) < x.acCount.toNat + 8) ∧ ((s.die d).reached 28 = true)) := by
  refine ⟨?_, ?_, ?_, ?_, ?_, ?_, ?_, ?_, ?_, ?_, ?_, ?_, ?_, ?_, ?_, ?_, ?_⟩ <;> (try dsimp only [Die.readable, Die.busReadable]) <;> decide +kernel

/-- The hypotheses of each clause of `MirradReplies` can be met. -/
theorem wit_MirradReplies :
   (let d : DieId := .a
    let l : Fin 8 := 2
    let sof : BitVec 32 := 1300
    let g : List (BitVec 10) := (wir (ans 4 0 7 (List.replicate 12 0)))
    let f : MbFrame := (ansf 4 0 7 (List.replicate 12 0))
    let w : ReplyWait := ({ slot := 0, seq := 9, node := 3, acyc := false, queued := false, replyLen := 12, deadline := 500, eof := 900 })
    let s : State := (wait2 false fun x => { x with missed := Vector.replicate 17 4, absent := 0xF })
    let drives (u : Die) : Prop := u.red.grant = true ∧ u.red.gateOpen = true ∧ u.red.live = true ∧ (u.unit 6 l).state = .active
    let whole : Prop := (received g).cut = 0
    let bad := (received g).codeErr
    let b := (received g).bytes
    let q := s.reach d (dueFrameEnd sof g)
    let x := (q.die d).lane l
    let got : Option MbFrame := (x.receive bad b).toOption
    let inWindow : Prop := whole ∧ x.state = .head ∧ w.lapsed = false ∧ 320 ≤ diff32 sof w.eof ∧ diff32 sof w.eof ≤ 4 * w.deadline + 320
    let fits : Prop := f.type = (if w.acyc then 7 else 4) ∧ f.slot = w.slot ∧ f.seq = w.seq ∧ f.dest = 0 ∧ (w.acyc = false → f.payload.length = w.replyLen)
    (drives (q.die d)) ∧ (x.waiting = some w) ∧ (w.acyc = false) ∧ (inWindow) ∧ (got = some f) ∧ (fits) ∧ (x.host = false) ∧ ((q.die d).nodeJoints l w.node = [])) ∧
   (let d : DieId := .a
    let l : Fin 8 := 2
    let sof : BitVec 32 := 1300
    let g : List (BitVec 10) := (wir (ans 4 0 7 [1, 0, 0, 0, 2, 0, 0, 0, 3, 0, 0, 1]))
    let f : MbFrame := (ansf 4 0 7 [1, 0, 0, 0, 2, 0, 0, 0, 3, 0, 0, 1])
    let w : ReplyWait := ({ slot := 0, seq := 9, node := 3, acyc := false, queued := false, replyLen := 12, deadline := 500, eof := 900 })
    let j : Fin 128 := 5
    let s : State := ((wait2 false fun x => x).upd .a fun d => { d with joints := vset d.joints 5 { used := true, cfg := { arm := 1, lane := 2, node := 3, jidx := 1, classF := true } } })
    let drives (u : Die) : Prop := u.red.grant = true ∧ u.red.gateOpen = true ∧ u.red.live = true ∧ (u.unit 6 l).state = .active
    let whole : Prop := (received g).cut = 0
    let bad := (received g).codeErr
    let b := (received g).bytes
    let q := s.reach d (dueFrameEnd sof g)
    let x := (q.die d).lane l
    let got : Option MbFrame := (x.receive bad b).toOption
    let inWindow : Prop := whole ∧ x.state = .head ∧ w.lapsed = false ∧ 320 ≤ diff32 sof w.eof ∧ diff32 sof w.eof ≤ 4 * w.deadline + 320
    let fits : Prop := f.type = (if w.acyc then 7 else 4) ∧ f.slot = w.slot ∧ f.seq = w.seq ∧ f.dest = 0 ∧ (w.acyc = false → f.payload.length = w.replyLen)
    let jt := (q.die d).jnt j
    (drives (q.die d)) ∧ (x.waiting = some w) ∧ (w.acyc = false) ∧ (inWindow) ∧ (got = some f) ∧ (fits) ∧ (f.payload.length = 12) ∧ ((q.die d).nodeJoints l w.node = [j.val]) ∧ (jt.cfg.jidx < 8) ∧ (fieldAt f.payload 11 1 % 8 = jt.cfg.jidx) ∧ (fieldAt f.payload 10 1 / 64 % 2 = 0) ∧ (jt.cfg.classF = true) ∧ ((q.die d).laneJoints l jt.roleNum = [j.val])) ∧
   (let d : DieId := .a
    let l : Fin 8 := 2
    let sof : BitVec 32 := 1219
    let g : List (BitVec 10) := (wir (ans 4 0 7 (List.replicate 12 0)))
    let f : MbFrame := (ansf 4 0 7 (List.replicate 12 0))
    let w : ReplyWait := ({ slot := 0, seq := 9, node := 3, acyc := false, queued := false, replyLen := 12, deadline := 500, eof := 900 })
    let c : Fin 13 := 6
    let s : State := (wait2 false fun x => { x with missed := Vector.replicate 17 2 })
    let drives (u : Die) : Prop := u.red.grant = true ∧ u.red.gateOpen = true ∧ u.red.live = true ∧ (u.unit 6 l).state = .active
    let whole : Prop := (received g).cut = 0
    let bad := (received g).codeErr
    let b := (received g).bytes
    let q := s.reach d (dueFrameEnd sof g)
    let x := (q.die d).lane l
    let got : Option MbFrame := (x.receive bad b).toOption
    let bad1 : Option (Fin 13) := match x.receive bad b with
      | .error i => some i
      | .ok _ => none
    let cause : Prop := if diff32 sof w.eof < 320 then c = 6
      else if w.lapsed = true ∨ 4 * w.deadline + 320 < diff32 sof w.eof then c = 7
      else bad1 = some c ∨ (c = 8 ∧ (got.map fun f => decide (f.type ≠ (if w.acyc then 7 else 4))) = some true)
    (whole) ∧ (drives (q.die d)) ∧ (x.state = .head) ∧ (x.waiting = some w) ∧ (w.acyc = false) ∧ (w.lapsed = false) ∧ (cause)) ∧
   (let d : DieId := .a
    let l : Fin 8 := 2
    let sof : BitVec 32 := 3221
    let g : List (BitVec 10) := (wir (ans 4 0 7 (List.replicate 12 0)))
    let f : MbFrame := (ansf 4 0 7 (List.replicate 12 0))
    let w : ReplyWait := ({ slot := 0, seq := 9, node := 3, acyc := false, queued := false, replyLen := 12, deadline := 500, eof := 900, lapsed := true })
    let c : Fin 13 := 7
    let s : State := (wait2 false fun x => { x with waiting := x.waiting.map fun w => { w with lapsed := true } })
    let drives (u : Die) : Prop := u.red.grant = true ∧ u.red.gateOpen = true ∧ u.red.live = true ∧ (u.unit 6 l).state = .active
    let whole : Prop := (received g).cut = 0
    let bad := (received g).codeErr
    let b := (received g).bytes
    let q := s.reach d (dueFrameEnd sof g)
    let x := (q.die d).lane l
    let got : Option MbFrame := (x.receive bad b).toOption
    let bad1 : Option (Fin 13) := match x.receive bad b with
      | .error i => some i
      | .ok _ => none
    let cause : Prop := if diff32 sof w.eof < 320 then c = 6
      else if w.lapsed = true ∨ 4 * w.deadline + 320 < diff32 sof w.eof then c = 7
      else bad1 = some c ∨ (c = 8 ∧ (got.map fun f => decide (f.type ≠ (if w.acyc then 7 else 4))) = some true)
    (whole) ∧ (drives (q.die d)) ∧ (x.state = .head) ∧ (x.waiting = some w) ∧ (w.lapsed = true) ∧ (cause)) ∧
   (let d : DieId := .a
    let l : Fin 8 := 2
    let sof : BitVec 32 := 1300
    let g : List (BitVec 10) := (wir (ans 7 0 7 [1, 0, 1, 0, 0, 0, 0, 0, 0x34, 0x12]))
    let f : MbFrame := (ansf 7 0 7 [1, 0, 1, 0, 0, 0, 0, 0, 0x34, 0x12])
    let w : ReplyWait := ({ slot := 0, seq := 9, node := 3, acyc := true, queued := true, replyLen := 12, deadline := 500, eof := 900 })
    let a : AcycReq := req3
    let more : List AcycReq := []
    let s : State := (wait2 true fun x => { x with reqs := [req3], acBusy := true })
    let drives (u : Die) : Prop := u.red.grant = true ∧ u.red.gateOpen = true ∧ u.red.live = true ∧ (u.unit 6 l).state = .active
    let whole : Prop := (received g).cut = 0
    let bad := (received g).codeErr
    let b := (received g).bytes
    let q := s.reach d (dueFrameEnd sof g)
    let x := (q.die d).lane l
    let got : Option MbFrame := (x.receive bad b).toOption
    let inWindow : Prop := whole ∧ x.state = .head ∧ w.lapsed = false ∧ 320 ≤ diff32 sof w.eof ∧ diff32 sof w.eof ≤ 4 * w.deadline + 320
    let fits : Prop := f.type = (if w.acyc then 7 else 4) ∧ f.slot = w.slot ∧ f.seq = w.seq ∧ f.dest = 0 ∧ (w.acyc = false → f.payload.length = w.replyLen)
    (drives (q.die d)) ∧ (x.waiting = some w) ∧ (w.acyc = true) ∧ (w.queued = true) ∧ (inWindow) ∧ (got = some f) ∧ (fits) ∧ (x.host = false) ∧ (x.reqs = a :: more) ∧ (a.own = false) ∧ (fieldAt f.payload 1 1 ≠ 4)) ∧
   (let d : DieId := .a
    let l : Fin 8 := 2
    let sof : BitVec 32 := 1300
    let g : List (BitVec 10) := (wir (ans 7 0 7 [1, 4, 1, 0, 0, 0, 0, 0]))
    let f : MbFrame := (ansf 7 0 7 [1, 4, 1, 0, 0, 0, 0, 0])
    let w : ReplyWait := ({ slot := 0, seq := 9, node := 3, acyc := true, queued := true, replyLen := 12, deadline := 500, eof := 900 })
    let a : AcycReq := req3
    let more : List AcycReq := []
    let s : State := (wait2 true fun x => { x with reqs := [req3], acBusy := true })
    let drives (u : Die) : Prop := u.red.grant = true ∧ u.red.gateOpen = true ∧ u.red.live = true ∧ (u.unit 6 l).state = .active
    let whole : Prop := (received g).cut = 0
    let bad := (received g).codeErr
    let b := (received g).bytes
    let q := s.reach d (dueFrameEnd sof g)
    let x := (q.die d).lane l
    let got : Option MbFrame := (x.receive bad b).toOption
    let inWindow : Prop := whole ∧ x.state = .head ∧ w.lapsed = false ∧ 320 ≤ diff32 sof w.eof ∧ diff32 sof w.eof ≤ 4 * w.deadline + 320
    let fits : Prop := f.type = (if w.acyc then 7 else 4) ∧ f.slot = w.slot ∧ f.seq = w.seq ∧ f.dest = 0 ∧ (w.acyc = false → f.payload.length = w.replyLen)
    (drives (q.die d)) ∧ (x.waiting = some w) ∧ (w.acyc = true) ∧ (w.queued = true) ∧ (inWindow) ∧ (got = some f) ∧ (fits) ∧ (x.host = false) ∧ (x.reqs = a :: more) ∧ (a.own = false) ∧ (fieldAt f.payload 1 1 = 4)) ∧
   (let d : DieId := .a
    let l : Fin 8 := 2
    let w : ReplyWait := ({ slot := 0, seq := 9, node := 3, acyc := false, queued := false, replyLen := 12, deadline := 500, eof := 900 })
    let s : State := (wait2 false fun x => { x with missed := Vector.replicate 17 2 })
    let drives (u : Die) : Prop := u.red.grant = true ∧ u.red.gateOpen = true ∧ u.red.live = true ∧ (u.unit 6 l).state = .active
    let m := s.reach d (Die.dueReply l)
    let y := (m.die d).lane l
    (drives (m.die d)) ∧ (y.waiting = some w) ∧ (w.acyc = false) ∧ (w.lapsed = false) ∧ (4 * w.deadline + 320 ≤ diff32 (m.die d).time.ns w.eof)) ∧
   (let d : DieId := .a
    let l : Fin 8 := 2
    let s : State := (wait2 false fun x => { x with waiting := x.waiting.map fun w => { w with lapsed := true } })
    let m := s.reach d (Die.dueReply l)
    let y := (m.die d).lane l
    ((y.waiting.elim true (·.lapsed)) = true)) ∧
   (let d : DieId := .a
    let l : Fin 8 := 2
    let g : List (BitVec 10) := (wirBad (ans 4 0 7 (List.replicate 12 0)))
    let c : Fin 13 := 1
    let s : State := (mb2 fun x => x)
    let whole : Prop := (received g).cut = 0
    let bad := (received g).codeErr
    let b := (received g).bytes
    let u := s.die d
    let k := u.lane l
    let len := fieldAt b 3 2 % 1024
    let check : Prop := if bad then c = 1 else if b.length ≠ 12 + len ∨ 512 < len then c = 2
      else if leBytes 4 (crc32c (b.take (8 + len))).toNat ≠ b.drop (8 + len) then c = 3
      else if fieldAt b 0 1 / 16 ≠ 1 ∨ fieldAt b 0 1 % 16 = 0 ∨ 8 < fieldAt b 0 1 % 16 then c = 4
      else c = 5 ∧ k.state = .head ∧ (fieldAt b 0 1 % 16 = 4 ∨ fieldAt b 0 1 % 16 = 7) ∧ fieldAt b 7 1 ≠ k.epoch.toNat
    let calm : Prop := u.red.grant = true ∧ k.state ≠ .off ∧ k.state ≠ .node ∧ k.waiting = none
    (calm) ∧ (whole) ∧ (check)) ∧
   (let d : DieId := .a
    let l : Fin 8 := 2
    let g : List (BitVec 10) := ((wir [1, 2, 3]).dropLast ++ wir (ans 4 0 7 []))
    let f : MbFrame := (ansf 4 0 7 [])
    let s : State := (mb2 fun x => x)
    let bad := (received g).codeErr
    let b := (received g).bytes
    let u := s.die d
    let k := u.lane l
    let calm : Prop := u.red.grant = true ∧ k.state ≠ .off ∧ k.state ≠ .node ∧ k.waiting = none
    (calm) ∧ ((received g).cut = 1) ∧ ((k.receive bad b).toOption = some f)) := by
  refine ⟨?_, ?_, ?_, ?_, ?_, ?_, ?_, ?_, ?_, ?_⟩ <;> (try dsimp only [Die.readable, Die.busReadable]) <;> decide +kernel

/-- The hypotheses of each clause of `MirradNode` can be met. -/
theorem wit_MirradNode :
   (let d : DieId := .a
    let l : Fin 8 := 2
    let sof : BitVec 32 := 32230
    let g : List (BitVec 10) := (wir (beac 7 32150 71))
    let f : MbFrame := (beacf 7 32150 71)
    let s : State := (nod2 fun x => { x with nodeSt := .listen, epoch := 3 })
    let q := s.reach d (dueFrameEnd sof g)
    let x := (q.die d).lane l
    let got (x : Lane) : Option MbFrame :=
      if (received g).cut = 0 then (x.receive (received g).codeErr (received g).bytes).toOption else none
    let beacon : Prop := got x = some f ∧ f.type = 1 ∧ f.payload.length = 16
    let toMe : Prop := f.dest = x.cfg.addr.toNat ∨ f.dest = 255
    (beacon) ∧ (toMe) ∧ (x.state = .node) ∧ (x.nodeSt = .listen ∨ f.epoch ≠ x.epoch)) ∧
   (let d : DieId := .a
    let l : Fin 8 := 2
    let sof : BitVec 32 := 32230
    let g : List (BitVec 10) := (wir (beac 7 32150 71))
    let f : MbFrame := (beacf 7 32150 71)
    let s : State := (nod2 fun x => { x with nodeSt := .check })
    let q := s.reach d (dueFrameEnd sof g)
    let x := (q.die d).lane l
    let got (x : Lane) : Option MbFrame :=
      if (received g).cut = 0 then (x.receive (received g).codeErr (received g).bytes).toOption else none
    let start := sof - BitVec.ofNat 32 (fieldAt f.payload 8 2)
    let next := x.lastStart + BitVec.ofNat 32 x.lastTc
    let overlaps : Prop := x.nodeSt = .check ∧ diff32 ((q.die d).time.ns - 1280) x.lastEof < 0
    let onTime : Prop := (diff32 start next).natAbs ≤ 250
    let beacon : Prop := got x = some f ∧ f.type = 1 ∧ f.payload.length = 16
    let toMe : Prop := f.dest = x.cfg.addr.toNat ∨ f.dest = 255
    (beacon) ∧ (toMe) ∧ (x.state = .node) ∧ (x.nodeSt ≠ .listen) ∧ (f.epoch = x.epoch) ∧ (¬ overlaps) ∧ (onTime)) ∧
   (let d : DieId := .a
    let l : Fin 8 := 2
    let sof : BitVec 32 := 32481
    let g : List (BitVec 10) := (wir (beac 7 32150 71))
    let f : MbFrame := (beacf 7 32150 71)
    let s : State := (nod2 fun x => { x with nodeSt := .check })
    let q := s.reach d (dueFrameEnd sof g)
    let x := (q.die d).lane l
    let got (x : Lane) : Option MbFrame :=
      if (received g).cut = 0 then (x.receive (received g).codeErr (received g).bytes).toOption else none
    let start := sof - BitVec.ofNat 32 (fieldAt f.payload 8 2)
    let next := x.lastStart + BitVec.ofNat 32 x.lastTc
    let overlaps : Prop := x.nodeSt = .check ∧ diff32 ((q.die d).time.ns - 1280) x.lastEof < 0
    let onTime : Prop := (diff32 start next).natAbs ≤ 250
    let beacon : Prop := got x = some f ∧ f.type = 1 ∧ f.payload.length = 16
    let toMe : Prop := f.dest = x.cfg.addr.toNat ∨ f.dest = 255
    (beacon) ∧ (toMe) ∧ (x.state = .node) ∧ (x.nodeSt = .check) ∧ (f.epoch = x.epoch) ∧ (¬ overlaps) ∧ (¬ onTime)) ∧
   (let d : DieId := .a
    let l : Fin 8 := 2
    let sof : BitVec 32 := 32230
    let g : List (BitVec 10) := (wir (beac 7 32150 71))
    let f : MbFrame := (beacf 7 32150 71)
    let s : State := (nod2 fun x => { x with nodeSt := .check, lastEof := 32300 })
    let q := s.reach d (dueFrameEnd sof g)
    let x := (q.die d).lane l
    let got (x : Lane) : Option MbFrame :=
      if (received g).cut = 0 then (x.receive (received g).codeErr (received g).bytes).toOption else none
    let overlaps : Prop := x.nodeSt = .check ∧ diff32 ((q.die d).time.ns - 1280) x.lastEof < 0
    let beacon : Prop := got x = some f ∧ f.type = 1 ∧ f.payload.length = 16
    let toMe : Prop := f.dest = x.cfg.addr.toNat ∨ f.dest = 255
    (beacon) ∧ (toMe) ∧ (x.state = .node) ∧ (f.epoch = x.epoch) ∧ (overlaps)) ∧
   (let d : DieId := .a
    let l : Fin 8 := 2
    let sof : BitVec 32 := 32230
    let g : List (BitVec 10) := (wir (makeFrame 1 7 0 0 0 7 (List.replicate 16 0)))
    let f : MbFrame := (readFrame (makeFrame 1 7 0 0 0 7 (List.replicate 16 0)))
    let s : State := (nod2 fun x => x)
    let q := s.reach d (dueFrameEnd sof g)
    let x := (q.die d).lane l
    let got (x : Lane) : Option MbFrame :=
      if (received g).cut = 0 then (x.receive (received g).codeErr (received g).bytes).toOption else none
    let beacon : Prop := got x = some f ∧ f.type = 1 ∧ f.payload.length = 16
    let toMe : Prop := f.dest = x.cfg.addr.toNat ∨ f.dest = 255
    (beacon) ∧ (¬ toMe) ∧ (x.state = .node) ∧ (x.nodeSt = .joined)) ∧
   (let d : DieId := .a
    let l : Fin 8 := 2
    let sof : BitVec 32 := 32481
    let g : List (BitVec 10) := (wir (beac 7 32150 71))
    let f : MbFrame := (beacf 7 32150 71)
    let s : State := (nod2 fun x => { x with nodeSt := .hold })
    let q := s.reach d (dueFrameEnd sof g)
    let x := (q.die d).lane l
    let got (x : Lane) : Option MbFrame :=
      if (received g).cut = 0 then (x.receive (received g).codeErr (received g).bytes).toOption else none
    let start := sof - BitVec.ofNat 32 (fieldAt f.payload 8 2)
    let next := x.lastStart + BitVec.ofNat 32 x.lastTc
    let onTime : Prop := (diff32 start next).natAbs ≤ 250
    let beacon : Prop := got x = some f ∧ f.type = 1 ∧ f.payload.length = 16
    let toMe : Prop := f.dest = x.cfg.addr.toNat ∨ f.dest = 255
    (beacon) ∧ (toMe) ∧ (x.state = .node) ∧ (x.nodeSt = .hold ∨ x.nodeSt = .joined) ∧ (f.epoch = x.epoch) ∧ (¬ onTime)) ∧
   (let d : DieId := .a
    let l : Fin 8 := 2
    let sof : BitVec 32 := 32230
    let g : List (BitVec 10) := (wir (beac 7 32150 71))
    let f : MbFrame := (beacf 7 32150 71)
    let s : State := (mb2 fun x => { x with state := .silent })
    let q := s.reach d (dueFrameEnd sof g)
    let x := (q.die d).lane l
    let got (x : Lane) : Option MbFrame :=
      if (received g).cut = 0 then (x.receive (received g).codeErr (received g).bytes).toOption else none
    let start := sof - BitVec.ofNat 32 (fieldAt f.payload 8 2)
    let next := x.lastStart + BitVec.ofNat 32 x.lastTc
    let beacon : Prop := got x = some f ∧ f.type = 1 ∧ f.payload.length = 16
    (beacon) ∧ (x.state = .silent ∨ x.state = .backup) ∧ (x.follows = false ∨ f.epoch ≠ x.epoch ∨ (diff32 start next).natAbs ≤ 250)) ∧
   (let d : DieId := .a
    let l : Fin 8 := 2
    let sof : BitVec 32 := 32230
    let g : List (BitVec 10) := (wir (beac 7 32150 71))
    let f : MbFrame := (beacf 7 32150 71)
    let s : State := (mb2 fun x => x)
    let drives (u : Die) : Prop := u.red.grant = true ∧ u.red.gateOpen = true ∧ u.red.live = true ∧ (u.unit 6 l).state = .active
    let q := s.reach d (dueFrameEnd sof g)
    let x := (q.die d).lane l
    let got (x : Lane) : Option MbFrame :=
      if (received g).cut = 0 then (x.receive (received g).codeErr (received g).bytes).toOption else none
    let beacon : Prop := got x = some f ∧ f.type = 1 ∧ f.payload.length = 16
    (beacon) ∧ (x.state = .head) ∧ (drives (q.die d))) ∧
   (let d : DieId := .a
    let l : Fin 8 := 2
    let sof : BitVec 32 := 32230
    let g : List (BitVec 10) := (wir (makeFrame 2 0xFF 0 0 0 9 (List.replicate 8 0)))
    let f : MbFrame := (readFrame (makeFrame 2 0xFF 0 0 0 9 (List.replicate 8 0)))
    let s : State := (mb2 fun x => x)
    let drives (u : Die) : Prop := u.red.grant = true ∧ u.red.gateOpen = true ∧ u.red.live = true ∧ (u.unit 6 l).state = .active
    let q := s.reach d (dueFrameEnd sof g)
    let x := (q.die d).lane l
    let u := s.die d
    let k := u.lane l
    let got (x : Lane) : Option MbFrame :=
      if (received g).cut = 0 then (x.receive (received g).codeErr (received g).bytes).toOption else none
    (got k = some f) ∧ (f.type = 2) ∧ (k.state = .head) ∧ (drives u)) ∧
   (let d : DieId := .a
    let l : Fin 8 := 2
    let sof : BitVec 32 := 32230
    let g : List (BitVec 10) := (wir (makeFrame 2 0xFF 0 0 0 9 (List.replicate 8 0)))
    let f : MbFrame := (readFrame (makeFrame 2 0xFF 0 0 0 9 (List.replicate 8 0)))
    let s : State := (nod2 fun x => x)
    let q := s.reach d (dueFrameEnd sof g)
    let x := (q.die d).lane l
    let u := s.die d
    let k := u.lane l
    let got (x : Lane) : Option MbFrame :=
      if (received g).cut = 0 then (x.receive (received g).codeErr (received g).bytes).toOption else none
    (got k = some f) ∧ (f.type = 2) ∧ (k.state = .node) ∧ (f.dest = k.cfg.addr.toNat ∨ f.dest = 255)) ∧
   (let d : DieId := .a
    let l : Fin 8 := 2
    let s : State := (nod2 fun x => { x with nodeSt := .joined, missing := 1, lastStart := 0xFFFF0000 })
    let m := s.reach d (Die.dueMissing l)
    let y := (m.die d).lane l
    (y.state = .node) ∧ (y.nodeSt ≠ .listen) ∧ (0 ≤ diff32 (m.die d).time.ns (y.lastStart + BitVec.ofNat 32 (y.lastTc + 5000)))) ∧
   (let d : DieId := .a
    let l : Fin 8 := 2
    let s : State := (mb2 fun x => { x with state := .backup, missing := 1, lastStart := 0xFFFF0000 })
    let m := s.reach d (Die.dueMissing l)
    let y := (m.die d).lane l
    (y.state = .backup) ∧ (0 ≤ diff32 (m.die d).time.ns (y.lastStart + BitVec.ofNat 32 (y.lastTc + 5000)))) ∧
   (let d : DieId := .a
    let l : Fin 8 := 2
    let sof : BitVec 32 := 32230
    let g : List (BitVec 10) := (wir (makeFrame 3 3 5 8 1 7 []))
    let f : MbFrame := (readFrame (makeFrame 3 3 5 8 1 7 []))
    let s : State := (nod2 fun x => x)
    let drives (u : Die) : Prop := u.red.grant = true ∧ u.red.gateOpen = true ∧ u.red.live = true ∧ (u.unit 6 l).state = .active
    let q := s.reach d (dueFrameEnd sof g)
    let x := (q.die d).lane l
    let u := s.die d
    let k := u.lane l
    let got (x : Lane) : Option MbFrame :=
      if (received g).cut = 0 then (x.receive (received g).codeErr (received g).bytes).toOption else none
    let mine : Prop := got k = some f ∧ k.state = .node ∧ k.nodeSt = .joined
    (mine) ∧ (f.type = 3) ∧ (f.flags % 2 = 1) ∧ (f.dest = k.cfg.addr.toNat) ∧ (drives u) ∧ (k.cfg.objs = [])) ∧
   (let d : DieId := .a
    let l : Fin 8 := 2
    let sof : BitVec 32 := 32230
    let g : List (BitVec 10) := (wir (makeFrame 3 3 5 8 1 7 []))
    let f : MbFrame := (readFrame (makeFrame 3 3 5 8 1 7 []))
    let s : State := ((nod2 fun x => { x with cfg := { x.cfg with objs := [uidJoint 5] } }).upd .a fun d => { d with joints := vset d.joints 5 { used := true, pos := 77, vel := 3 } })
    let drives (u : Die) : Prop := u.red.grant = true ∧ u.red.gateOpen = true ∧ u.red.live = true ∧ (u.unit 6 l).state = .active
    let q := s.reach d (dueFrameEnd sof g)
    let x := (q.die d).lane l
    let u := s.die d
    let k := u.lane l
    let got (x : Lane) : Option MbFrame :=
      if (received g).cut = 0 then (x.receive (received g).codeErr (received g).bytes).toOption else none
    let mine : Prop := got k = some f ∧ k.state = .node ∧ k.nodeSt = .joined
    (mine) ∧ (f.type = 3) ∧ (f.flags % 2 = 1) ∧ (f.dest = k.cfg.addr.toNat) ∧ (drives u) ∧ (k.cfg.objs = [uidJoint 5])) ∧
   (let d : DieId := .a
    let l : Fin 8 := 2
    let sof : BitVec 32 := 32230
    let g : List (BitVec 10) := (wir (makeFrame 5 0xFF 5 8 1 7 []))
    let f : MbFrame := (readFrame (makeFrame 5 0xFF 5 8 1 7 []))
    let s : State := (nod2 fun x => x)
    let q := s.reach d (dueFrameEnd sof g)
    let x := (q.die d).lane l
    let u := s.die d
    let k := u.lane l
    let got (x : Lane) : Option MbFrame :=
      if (received g).cut = 0 then (x.receive (received g).codeErr (received g).bytes).toOption else none
    let mine : Prop := got k = some f ∧ k.state = .node ∧ k.nodeSt = .joined
    (mine) ∧ (f.type = 5) ∧ (f.flags % 2 = 1)) ∧
   (let d : DieId := .a
    let l : Fin 8 := 2
    let sof : BitVec 32 := 32230
    let g : List (BitVec 10) := (wir (makeFrame 6 3 5 8 0 7 [1, 0, 9, 0, 0, 0, 0, 0, 4, 0]))
    let f : MbFrame := (readFrame (makeFrame 6 3 5 8 0 7 [1, 0, 9, 0, 0, 0, 0, 0, 4, 0]))
    let s : State := (nod2 fun x => x)
    let drives (u : Die) : Prop := u.red.grant = true ∧ u.red.gateOpen = true ∧ u.red.live = true ∧ (u.unit 6 l).state = .active
    let q := s.reach d (dueFrameEnd sof g)
    let x := (q.die d).lane l
    let u := s.die d
    let k := u.lane l
    let got (x : Lane) : Option MbFrame :=
      if (received g).cut = 0 then (x.receive (received g).codeErr (received g).bytes).toOption else none
    let mine : Prop := got k = some f ∧ k.state = .node ∧ k.nodeSt = .joined
    let obj := fieldAt f.payload 2 2
    (mine) ∧ (f.type = 6) ∧ (f.dest = k.cfg.addr.toNat) ∧ (drives u) ∧ (k.lastReply = none) ∧ (obj ≠ 1)) ∧
   (let d : DieId := .a
    let l : Fin 8 := 2
    let sof : BitVec 32 := 32230
    let g : List (BitVec 10) := (wir (makeFrame 6 3 5 8 0 7 [2, 0, 1, 0, 0, 0, 0, 0, 4, 0]))
    let f : MbFrame := (readFrame (makeFrame 6 3 5 8 0 7 [2, 0, 1, 0, 0, 0, 0, 0, 4, 0]))
    let s : State := (nod2 fun x => x)
    let drives (u : Die) : Prop := u.red.grant = true ∧ u.red.gateOpen = true ∧ u.red.live = true ∧ (u.unit 6 l).state = .active
    let q := s.reach d (dueFrameEnd sof g)
    let x := (q.die d).lane l
    let u := s.die d
    let k := u.lane l
    let got (x : Lane) : Option MbFrame :=
      if (received g).cut = 0 then (x.receive (received g).codeErr (received g).bytes).toOption else none
    let mine : Prop := got k = some f ∧ k.state = .node ∧ k.nodeSt = .joined
    let read := fieldAt f.payload 0 1
    let obj := fieldAt f.payload 2 2
    (mine) ∧ (f.type = 6) ∧ (f.dest = k.cfg.addr.toNat) ∧ (drives u) ∧ (k.lastReply = none) ∧ (obj = 1) ∧ (read = 2)) ∧
   (let d : DieId := .a
    let l : Fin 8 := 2
    let sof : BitVec 32 := 32230
    let g : List (BitVec 10) := (wir (makeFrame 6 3 5 8 0 7 [1, 0, 9, 0, 0, 0, 0, 0, 4, 0]))
    let f : MbFrame := (readFrame (makeFrame 6 3 5 8 0 7 [1, 0, 9, 0, 0, 0, 0, 0, 4, 0]))
    let s : State := (nod2 fun x => { x with lastReply := some (8, [1, 2, 3]) })
    let drives (u : Die) : Prop := u.red.grant = true ∧ u.red.gateOpen = true ∧ u.red.live = true ∧ (u.unit 6 l).state = .active
    let q := s.reach d (dueFrameEnd sof g)
    let x := (q.die d).lane l
    let u := s.die d
    let k := u.lane l
    let got (x : Lane) : Option MbFrame :=
      if (received g).cut = 0 then (x.receive (received g).codeErr (received g).bytes).toOption else none
    let mine : Prop := got k = some f ∧ k.state = .node ∧ k.nodeSt = .joined
    (mine) ∧ (f.type = 6) ∧ (f.dest = k.cfg.addr.toNat) ∧ (drives u) ∧ (k.lastReply = some (f.seq, [1, 2, 3]))) ∧
   (let d : DieId := .a
    let l : Fin 8 := 2
    let sof : BitVec 32 := 32230
    let g : List (BitVec 10) := (wir (makeFrame 8 0xFF 5 0 0 9 [0, 0]))
    let f : MbFrame := (readFrame (makeFrame 8 0xFF 5 0 0 9 [0, 0]))
    let s : State := (mb2 fun x => x)
    let q := s.reach d (dueFrameEnd sof g)
    let x := (q.die d).lane l
    let u := s.die d
    let k := u.lane l
    let got (x : Lane) : Option MbFrame :=
      if (received g).cut = 0 then (x.receive (received g).codeErr (received g).bytes).toOption else none
    (k.state ≠ .off) ∧ (k.state ≠ .node) ∧ (got k = some f)) ∧
   (let d : DieId := .a
    let l : Fin 8 := 2
    let sof : BitVec 32 := 32230
    let g : List (BitVec 10) := (wir (makeFrame 3 4 5 8 1 7 []))
    let f : MbFrame := (readFrame (makeFrame 3 4 5 8 1 7 []))
    let s : State := (mb2 fun x => { x with state := .backup })
    let q := s.reach d (dueFrameEnd sof g)
    let x := (q.die d).lane l
    let u := s.die d
    let k := u.lane l
    let got (x : Lane) : Option MbFrame :=
      if (received g).cut = 0 then (x.receive (received g).codeErr (received g).bytes).toOption else none
    (k.state = .backup) ∧ (got k = some f) ∧ (f.type = 3) ∧ (k.watch = none)) ∧
   (let d : DieId := .a
    let l : Fin 8 := 2
    let sof : BitVec 32 := 1300
    let g : List (BitVec 10) := (wir (ans 4 2 7 []))
    let f : MbFrame := (ansf 4 2 7 [])
    let s : State := (mb2 fun x => { x with state := .backup, watch := some (3, 0), missed := Vector.replicate 17 2 })
    let q := s.reach d (dueFrameEnd sof g)
    let x := (q.die d).lane l
    let got (x : Lane) : Option MbFrame :=
      if (received g).cut = 0 then (x.receive (received g).codeErr (received g).bytes).toOption else none
    (x.state = .backup) ∧ (got x = some f) ∧ (f.type = 4) ∧ ((q.die d).red.grant = true) ∧ (x.watch = some (3, BitVec.ofNat 8 f.slot)) ∧ (f.slot < 256)) := by
  refine ⟨?_, ?_, ?_, ?_, ?_, ?_, ?_, ?_, ?_, ?_, ?_, ?_, ?_, ?_, ?_, ?_, ?_, ?_, ?_, ?_, ?_⟩ <;> (try dsimp only [Die.readable, Die.busReadable]) <;> decide +kernel

/-- The hypotheses of each clause of `CanFrames` can be met. -/
theorem wit_CanFrames :
   (let d : DieId := .a
    let n : Fin 4 := 1
    let f : CanFrame := cfr
    let i : Fin 32 := 5
    let s : State := (can1 fun c => { c with cfg := flt5 })
    let u := s.die d
    let c := u.can n
    let drives : Prop := u.red.gateOpen = true ∧ (u.unit 7 n).state = .active
    let onBus : Prop := c.st = .active ∨ c.st = .passive
    let hit (k : Fin 32) : Bool := let g := vget c.cfg.filters k
      bit g.id 31 && (bit g.id 29 == bit f.id 29) && decide ((f.id ^^^ g.id) &&& g.mask &&& 0x1FFFFFFF = 0)
    let first : Prop := hit i = true ∧ ∀ k, k < i → hit k = false
    (drives) ∧ (onBus) ∧ (first) ∧ (bit (vget c.cfg.filters i).id 30 = false) ∧ (c.cfg.refEn = false) ∧ (c.fifo.length < 32)) ∧
   (let d : DieId := .a
    let n : Fin 4 := 1
    let f : CanFrame := cfr
    let i : Fin 32 := 5
    let s : State := (can1 fun c => { c with cfg := flt5, fifo := List.replicate 32 { id := 0, fmt := 0, time := 0, data := [] } })
    let u := s.die d
    let c := u.can n
    let drives : Prop := u.red.gateOpen = true ∧ (u.unit 7 n).state = .active
    let onBus : Prop := c.st = .active ∨ c.st = .passive
    let hit (k : Fin 32) : Bool := let g := vget c.cfg.filters k
      bit g.id 31 && (bit g.id 29 == bit f.id 29) && decide ((f.id ^^^ g.id) &&& g.mask &&& 0x1FFFFFFF = 0)
    let first : Prop := hit i = true ∧ ∀ k, k < i → hit k = false
    (drives) ∧ (onBus) ∧ (first) ∧ (bit (vget c.cfg.filters i).id 30 = false) ∧ (c.cfg.refEn = false) ∧ (32 ≤ c.fifo.length)) ∧
   (let d : DieId := .a
    let n : Fin 4 := 1
    let f : CanFrame := cfr
    let i : Fin 32 := 5
    let s : State := (can1 fun c => c)
    let u := s.die d
    let c := u.can n
    let drives : Prop := u.red.gateOpen = true ∧ (u.unit 7 n).state = .active
    let onBus : Prop := c.st = .active ∨ c.st = .passive
    let hit (k : Fin 32) : Bool := let g := vget c.cfg.filters k
      bit g.id 31 && (bit g.id 29 == bit f.id 29) && decide ((f.id ^^^ g.id) &&& g.mask &&& 0x1FFFFFFF = 0)
    let first : Prop := hit i = true ∧ ∀ k, k < i → hit k = false
    (drives) ∧ (onBus) ∧ (c.cfg.refEn = false) ∧ (c.cfg.acceptAll = false ∧ (∀ k, hit k = false) ∨ first ∧ bit (vget c.cfg.filters i).id 30 = true)) ∧
   (let d : DieId := .a
    let n : Fin 4 := 1
    let s : State := ((can1 fun c => { c with cfg := flt5 }).upd .a fun d => { d with red := { d.red with gateOpen := false, grant := false } })
    let u := s.die d
    let c := u.can n
    let drives : Prop := u.red.gateOpen = true ∧ (u.unit 7 n).state = .active
    let onBus : Prop := c.st = .active ∨ c.st = .passive
    (¬ drives) ∧ (onBus)) ∧
   (let d : DieId := .a
    let n : Fin 4 := 1
    let f : CanFrame := ({ id := 0, fmt := 8, data := [0, 5, 1, 0, 0xE8, 3, 0, 0] })
    let s : State := (can1 fun c => { c with ref := .follow, cfg := { c.cfg with refEn := true, refDly := 40, refId := 0 } })
    let u := s.die d
    let c := u.can n
    let drives : Prop := u.red.gateOpen = true ∧ (u.unit 7 n).state = .active
    let onBus : Prop := c.st = .active ∨ c.st = .passive
    let hit (k : Fin 32) : Bool := let g := vget c.cfg.filters k
      bit g.id 31 && (bit g.id 29 == bit f.id 29) && decide ((f.id ^^^ g.id) &&& g.mask &&& 0x1FFFFFFF = 0)
    (drives) ∧ (onBus) ∧ (c.cfg.refEn = true) ∧ (c.directOn = false) ∧ (c.ref = .follow) ∧ (c.validRef f = true) ∧ (∀ k, hit k = false) ∧ (c.cfg.acceptAll = false)) ∧
   (let d : DieId := .a
    let n : Fin 4 := 1
    let b : Fin 3 := 2
    let s : State := (can1t 2 fun c => c)
    let u := s.die d
    let c := u.can n
    let drives : Prop := u.red.gateOpen = true ∧ (u.unit 7 n).state = .active
    let onBus : Prop := c.st = .active ∨ c.st = .passive
    (drives) ∧ (c.offer = .buf b) ∧ (c.romOn = false) ∧ (onBus)) ∧
   (let d : DieId := .a
    let n : Fin 4 := 1
    let s : State := (can1 fun c => { c with offer := .ref, refBus := some (7, 5), refDue := some (7, 5), seq := 7, ref := .master, cfg := { c.cfg with refEn := true, refRank := 3, refId := 0x40000 } })
    let u := s.die d
    let c := u.can n
    let drives : Prop := u.red.gateOpen = true ∧ (u.unit 7 n).state = .active
    (drives) ∧ (c.offer = .ref) ∧ (c.refBus = some (c.seq, u.time.cyc.setWidth 16)) ∧ (c.refDue = c.refBus) ∧ (c.romOn = false) ∧ (c.cfg.refEn = true) ∧ (c.directOn = false) ∧ (c.ref = .master) ∧ (c.st = .active)) ∧
   (let d : DieId := .a
    let n : Fin 4 := 1
    let b : Fin 3 := 2
    let s : State := (can1t 2 fun c => c)
    let u := s.die d
    let c := u.can n
    let drives : Prop := u.red.gateOpen = true ∧ (u.unit 7 n).state = .active
    (drives) ∧ (c.offer = .buf b)) ∧
   (let d : DieId := .a
    let n : Fin 4 := 1
    let e : CanErr := .rx
    let s : State := (can1 fun c => { c with rec' := 127 })
    let u := s.die d
    let c := u.can n
    let onBus : Prop := c.st = .active ∨ c.st = .passive
    (onBus) ∧ (c.romOn = false) ∧ (c.tec ≤ 255) ∧ (c.offer = .none) ∧ (e = .rx ∨ e = .rxDominant)) ∧
   (let d : DieId := .a
    let n : Fin 4 := 1
    let b : Fin 3 := 2
    let e : CanErr := (.bit true)
    let s : State := (can1t 2 fun c => { c with tec := 120 })
    let u := s.die d
    let c := u.can n
    let drives : Prop := u.red.gateOpen = true ∧ (u.unit 7 n).state = .active
    let onBus : Prop := c.st = .active ∨ c.st = .passive
    (drives) ∧ (onBus) ∧ (c.romOn = false) ∧ (c.rec' ≤ 255) ∧ (c.tec ≤ 255) ∧ (c.offer = .buf b) ∧ (e = .txOther ∨ e = .bit true ∨ e = .bit false)) ∧
   (let d : DieId := .a
    let n : Fin 4 := 1
    let b : Fin 3 := 2
    let tdcv : BitVec 7 := 100
    let e : CanErr := .txOther
    let td : Option (BitVec 7) := (some 100)
    let s : State := (can1t 0x12 fun c => { c with cfg := { c.cfg with tdc := 61 } })
    let u := s.die d
    let c := u.can n
    let drives : Prop := u.red.gateOpen = true ∧ (u.unit 7 n).state = .active
    let onBus : Prop := c.st = .active ∨ c.st = .passive
    let x := c.buf b
    (drives) ∧ (onBus) ∧ (c.offer = .buf b) ∧ (bit x.fmt 4 = true) ∧ (bit c.cfg.tdc 0 = true) ∧ (td = some tdcv) ∧ (e = .txOther ∨ e = .ack true ∨ e = .bit false)) ∧
   (let d : DieId := .a
    let n : Fin 4 := 1
    let e : CanErr := .txOther
    let s : State := ((can1t 2 fun c => c).upd .a fun d => { d with red := { d.red with gateOpen := false, grant := false } })
    let u := s.die d
    let drives : Prop := u.red.gateOpen = true ∧ (u.unit 7 n).state = .active
    (¬ drives) ∧ (e = .txOther ∨ e = .bit true ∨ e = .bit false ∨ e = .ack true ∨ e = .ack false ∨ e = .arbStuff)) ∧
   (let d : DieId := .a
    let n : Fin 4 := 1
    let b : Fin 3 := 2
    let e : CanErr := (.ack false)
    let s : State := (can1t 2 fun c => { c with ackRun := 15 })
    let u := s.die d
    let c := u.can n
    let drives : Prop := u.red.gateOpen = true ∧ (u.unit 7 n).state = .active
    let onBus : Prop := c.st = .active ∨ c.st = .passive
    (drives) ∧ (onBus) ∧ (c.romOn = false) ∧ (c.rec' ≤ 255) ∧ (c.tec ≤ 255) ∧ (c.offer = .buf b) ∧ (e = .ack true ∨ e = .ack false)) ∧
   (let d : DieId := .a
    let n : Fin 4 := 1
    let m : BitVec 8 := 200
    let s : State := (can1 fun c => { c with st := .busoff, tec := 256, rec' := 9 })
    let u := s.die d
    let c := u.can n
    (c.st = .busoff) ∧ (128 ≤ c.boCnt + m.toNat)) ∧
   (let d : DieId := .a
    let n : Fin 4 := 1
    let m : BitVec 8 := 126
    let s : State := (can1 fun c => { c with st := .busoff, tec := 256, boCnt := 1 })
    let u := s.die d
    let c := u.can n
    (c.st = .busoff) ∧ (c.boCnt + m.toNat < 128)) ∧
   (let d : DieId := .a
    let n : Fin 4 := 1
    let s : State := (can1 fun c => { c with st := .integrate, tec := 6, rec' := 9 })
    let u := s.die d
    let c := u.can n
    (c.st = .integrate)) ∧
   (let d : DieId := .a
    let n : Fin 4 := 1
    let s : State := (can1 fun c => c)
    let u := s.die d
    let c := u.can n
    let onBus : Prop := c.st = .active ∨ c.st = .passive
    (onBus) ∧ (c.cfg.pxd = false)) ∧
   (let d : DieId := .a
    let n : Fin 4 := 1
    let s : State := (can1 fun c => { c with refOpen := true, refMissed := 1, ref := .follow, cfg := { c.cfg with refEn := true } })
    let u := s.die d
    let c := u.can n
    let missAt := c.refAt + c.cfg.refPeriod.toNat * u.img.cell.tc / 8 - u.time.per
    let drives : Prop := u.red.gateOpen = true ∧ (u.unit 7 n).state = .active
    (drives) ∧ (u.ticksIn missAt = some missAt) ∧ (c.refOpen = true) ∧ (c.ref = .follow) ∧ (c.refMissed = 1) ∧ (c.cfg.refEn = true) ∧ (c.directOn = false) ∧ (c.st = .active) ∧ (c.romOn = false) ∧ (c.rom = false)) ∧
   (let d : DieId := .a
    let n : Fin 4 := 1
    let s : State := (can1 fun c => { c with refOpen := true, refMissed := 0, ref := .follow, cfg := { c.cfg with refEn := true } })
    let u := s.die d
    let c := u.can n
    let missAt := c.refAt + c.cfg.refPeriod.toNat * u.img.cell.tc / 8 - u.time.per
    let drives : Prop := u.red.gateOpen = true ∧ (u.unit 7 n).state = .active
    (drives) ∧ (u.ticksIn missAt = some missAt) ∧ (c.refOpen = true) ∧ (c.refMissed = 0)) := by
  refine ⟨?_, ?_, ?_, ?_, ?_, ?_, ?_, ?_, ?_, ?_, ?_, ?_, ?_, ?_, ?_, ?_, ?_, ?_, ?_⟩ <;> (try dsimp only [Die.readable, Die.busReadable]) <;> decide +kernel

/-- The hypotheses of each clause of `CanCommands` can be met. -/
theorem wit_CanCommands :
   (let d : DieId := .a
    let n : Fin 4 := 1
    let b : Fin 3 := 2
    let s : State := (can1 fun c => { c with bufs := vset c.bufs 2 { txb 2 with pending := false, result := 3 } })
    let u := s.die d
    let c := u.can n
    let x := c.buf b
    let noRef : Prop := c.cfg.refEn = false ∧ c.ref = .off ∧ c.refDue = none ∧ c.refOpen = false ∧ c.refMissed = 0
    let takesPart : Prop := c.st = .active ∨ c.st = .passive
    (x.pending = false) ∧ ((bit x.fmt 4 && bit x.id 30) = false) ∧ (noRef) ∧ (takesPart) ∧ (c.offer = .none) ∧ (c.receiving = false) ∧ (c.rom = false) ∧ (c.mon = false) ∧ (∀ j, j ≠ b → (c.buf j).pending = false) ∧ (u.reached 29 = true)) ∧
   (let d : DieId := .a
    let n : Fin 4 := 1
    let b : Fin 3 := 2
    let s : State := (can1 fun c => { c with offer := .buf 0, bufs := vset c.bufs 2 { txb 2 with pending := false, result := 3 } })
    let u := s.die d
    let c := u.can n
    let x := c.buf b
    let noRef : Prop := c.cfg.refEn = false ∧ c.ref = .off ∧ c.refDue = none ∧ c.refOpen = false ∧ c.refMissed = 0
    (x.pending = false) ∧ ((bit x.fmt 4 && bit x.id 30) = false) ∧ (noRef) ∧ (c.offer ≠ .none) ∧ (u.reached 29 = true)) ∧
   (let d : DieId := .a
    let n : Fin 4 := 1
    let b : Fin 3 := 2
    let on : Bool := true
    let s : State := (can1 fun c => c)
    let u := s.die d
    let c := u.can n
    let x := c.buf b
    (on = true ∨ (bit x.fmt 4 && bit x.id 30) = true) ∧ (u.reached 29 = true)) ∧
   (let d : DieId := .a
    let n : Fin 4 := 1
    let b : Fin 3 := 2
    let s : State := (can1t 2 fun c => c)
    let u := s.die d
    let c := u.can n
    let x := c.buf b
    (x.pending = true) ∧ ((bit x.fmt 4 && bit x.id 30) = false) ∧ (u.reached 29 = true)) ∧
   (let d : DieId := .a
    let n : Fin 4 := 1
    let b : Fin 3 := 2
    let s : State := (can1t 2 fun c => { c with offer := .none })
    let u := s.die d
    let c := u.can n
    let x := c.buf b
    (x.pending = true) ∧ (c.offer ≠ .buf b) ∧ (u.reached 29 = true)) ∧
   (let d : DieId := .a
    let n : Fin 4 := 1
    let b : Fin 3 := 2
    let s : State := (can1t 2 fun c => c)
    let u := s.die d
    let c := u.can n
    let x := c.buf b
    (x.pending = true) ∧ (c.offer = .buf b) ∧ (u.reached 29 = true)) ∧
   (let d : DieId := .a
    let n : Fin 4 := 1
    let b : Fin 3 := 2
    let s : State := (can1 fun c => c)
    let u := s.die d
    let c := u.can n
    let x := c.buf b
    (x.pending = false) ∧ (u.reached 29 = true)) ∧
   (let d : DieId := .a
    let s : State := (can1 fun c => { c with fifo := List.replicate 3 { id := 0, fmt := 0, time := 0, data := [] } })
    let u := s.die d
    (u.reached 29 = true)) ∧
   (let d : DieId := .a
    let n : Fin 4 := 1
    let s : State := (can1 fun c => { c with st := .busoff })
    let u := s.die d
    let c := u.can n
    (c.st = .busoff) ∧ (u.reached 29 = true)) ∧
   (let d : DieId := .a
    let n : Fin 4 := 1
    let s : State := (can1t 2 fun c => { c with tec := 9, rec' := 8, st := .passive })
    let u := s.die d
    let c := u.can n
    let noRef : Prop := c.cfg.refEn = false ∧ c.ref = .off ∧ c.refDue = none ∧ c.refOpen = false ∧ c.refMissed = 0
    let takesPart : Prop := c.st = .active ∨ c.st = .passive
    (takesPart) ∧ (noRef) ∧ (c.offer ≠ .none) ∧ (u.reached 29 = true)) ∧
   (let d : DieId := .a
    let n : Fin 4 := 1
    let s : State := (can1 fun c => { c with st := .init, cfg := { c.cfg with init := true } })
    let u := s.die d
    let c := u.can n
    let noRef : Prop := c.cfg.refEn = false ∧ c.ref = .off ∧ c.refDue = none ∧ c.refOpen = false ∧ c.refMissed = 0
    (c.st = .init) ∧ (noRef) ∧ (c.offer = .none) ∧ (c.receiving = false) ∧ (u.reached 29 = true)) ∧
   (let d : DieId := .a
    let n : Fin 4 := 1
    let s : State := (can1 fun c => c)
    let u := s.die d
    let c := u.can n
    let noRef : Prop := c.cfg.refEn = false ∧ c.ref = .off ∧ c.refDue = none ∧ c.refOpen = false ∧ c.refMissed = 0
    (noRef) ∧ (c.offer = .none) ∧ (c.receiving = false) ∧ (∀ j, (c.buf j).pending = false) ∧ (u.reached 29 = true)) ∧
   (let d : DieId := .a
    let n : Fin 4 := 1
    let s : State := (can1t 2 fun c => c)
    let u := s.die d
    let c := u.can n
    let noRef : Prop := c.cfg.refEn = false ∧ c.ref = .off ∧ c.refDue = none ∧ c.refOpen = false ∧ c.refMissed = 0
    (noRef) ∧ (c.offer ≠ .none ∨ c.receiving = true) ∧ (u.reached 29 = true)) ∧
   (let d : DieId := .a
    let n : Fin 4 := 1
    let s : State := (can1 fun c => c)
    let u := s.die d
    let c := u.can n
    let noRef : Prop := c.cfg.refEn = false ∧ c.ref = .off ∧ c.refDue = none ∧ c.refOpen = false ∧ c.refMissed = 0
    (noRef) ∧ (c.offer = .none) ∧ (c.receiving = false) ∧ (∀ j, (c.buf j).pending = false) ∧ (u.reached 29 = true)) ∧
   (let d : DieId := .a
    let n : Fin 4 := 1
    let s : State := (can1t 2 fun c => { c with monOn := true })
    let u := s.die d
    let c := u.can n
    let noRef : Prop := c.cfg.refEn = false ∧ c.ref = .off ∧ c.refDue = none ∧ c.refOpen = false ∧ c.refMissed = 0
    (noRef) ∧ (c.offer ≠ .none ∨ c.receiving = true) ∧ (u.reached 29 = true)) ∧
   (let d : DieId := .a
    let s : State := (can1 fun c => c)
    let u := s.die d
    (u.reached 29 = true)) ∧
   (let d : DieId := .a
    let n : Fin 4 := 1
    let s : State := (can1 fun c => { c with ref := .stopped, refMissed := 1, refClash := 4, cfg := { c.cfg with refEn := true } })
    let u := s.die d
    let c := u.can n
    (c.ref = .stopped) ∧ (c.cfg.refEn = true) ∧ (c.directOn = false) ∧ (u.reached 29 = true)) ∧
   (let d : DieId := .a
    let n : Fin 4 := 1
    let s : State := (can1 fun c => { c with refMissed := 1, ref := .follow, cfg := { c.cfg with refEn := true } })
    let u := s.die d
    let c := u.can n
    (c.ref = .follow) ∧ (c.cfg.refEn = true) ∧ (c.directOn = false) ∧ (u.reached 29 = true)) ∧
   (let d : DieId := .a
    let n : Fin 4 := 1
    let s : State := (onA fun d => d)
    let u := s.die d
    let inUse : Bool := u.img.pins.cans.contains n.val
    (inUse = false)) ∧
   (let k : Can := ({ st := .active, refDue := some (3, 4) })
    (k.offer = .none) ∧ (k.receiving = false) ∧ (k.st = .active ∨ k.st = .passive) ∧ (k.rom = false) ∧ (k.mon = false)) := by
  refine ⟨?_, ?_, ?_, ?_, ?_, ?_, ?_, ?_, ?_, ?_, ?_, ?_, ?_, ?_, ?_, ?_, ?_, ?_, ?_, ?_⟩ <;> (try dsimp only [Die.readable, Die.busReadable]) <;> decide +kernel

/-- The hypotheses of each clause of `RedUnits` can be met. -/
theorem wit_RedUnits :
   (let d : DieId := .a
    let kind : Fin 16 := 7
    let idx : Fin 1024 := 1
    let s : State := (sel71 fun x => x)
    let u := s.die d
    let x := u.unit kind idx
    let names (die : DieId) : Prop := u.red.sel = uid die.num kind idx ∧ idx.val < kindCount kind ∧ hasUnitState kind = true ∧
      unitSlot kind idx < 1189
    (names d) ∧ (x.silent = false) ∧ ((s.die d).reached 27 = true)) ∧
   (let d : DieId := .a
    let kind : Fin 16 := 7
    let idx : Fin 1024 := 1
    let s : State := (sel71 fun x => { x with silent := true, state := .faulted })
    let u := s.die d
    let x := u.unit kind idx
    let names (die : DieId) : Prop := u.red.sel = uid die.num kind idx ∧ idx.val < kindCount kind ∧ hasUnitState kind = true ∧
      unitSlot kind idx < 1189
    (names d) ∧ (x.silent = true)) ∧
   (let d : DieId := .a
    let kind : Fin 16 := 7
    let idx : Fin 1024 := 1
    let s : State := (sel71 fun x => x)
    let u := s.die d
    let x := u.unit kind idx
    let names (die : DieId) : Prop := u.red.sel = uid die.num kind idx ∧ idx.val < kindCount kind ∧ hasUnitState kind = true ∧
      unitSlot kind idx < 1189
    let idle : Prop := x.silent = false ∧ x.inTakeover = false
    (names d) ∧ (idle) ∧ (x.state = .standby) ∧ ((s.die d).reached 27 = true)) ∧
   (let d : DieId := .a
    let kind : Fin 16 := 7
    let idx : Fin 1024 := 1
    let s : State := (((sel71 fun x => x).upd .a fun d => ({ d with red := { d.red with sel := uid 1 7 1 } })).upd .b fun d => d.updUnit 7 1 fun u => { u with state := .standby })
    let u := s.die d
    let p := s.die d.peer
    let names (die : DieId) : Prop := u.red.sel = uid die.num kind idx ∧ idx.val < kindCount kind ∧ hasUnitState kind = true ∧
      unitSlot kind idx < 1189
    (names d.peer) ∧ (u.red.linkUp = true) ∧ ((p.unit kind idx).silent = false) ∧ ((p.unit kind idx).inTakeover = false) ∧ ((p.unit kind idx).state = .standby) ∧ ((s.die d).reached 27 = true)) ∧
   (let d : DieId := .a
    let kind : Fin 16 := 7
    let idx : Fin 1024 := 1
    let s : State := (sel71 fun x => { x with state := .active })
    let u := s.die d
    let x := u.unit kind idx
    let names (die : DieId) : Prop := u.red.sel = uid die.num kind idx ∧ idx.val < kindCount kind ∧ hasUnitState kind = true ∧
      unitSlot kind idx < 1189
    let idle : Prop := x.silent = false ∧ x.inTakeover = false
    (names d) ∧ (idle) ∧ (x.state ≠ .standby) ∧ ((s.die d).reached 27 = true)) ∧
   (let d : DieId := .a
    let kind : Fin 16 := 7
    let idx : Fin 1024 := 1
    let s : State := (sel71 fun x => { x with state := .faulted, silent := true })
    let u := s.die d
    let x := u.unit kind idx
    let p := s.die d.peer
    let names (die : DieId) : Prop := u.red.sel = uid die.num kind idx ∧ idx.val < kindCount kind ∧ hasUnitState kind = true ∧
      unitSlot kind idx < 1189
    let stopped (p : Joint → Bool) : Prop := ∀ j : Fin 128, (u.jnt j).used = true → p (u.jnt j) = true → (u.jnt j).stopped = true
    let released : Prop := if kind = 0 then x.released = true else stopped fun y => kind != 6 || decide (y.cfg.lane = idx.val)
    (names d) ∧ (x.inTakeover = false) ∧ (x.state = .faulted) ∧ (u.red.grant = true) ∧ (released) ∧ ((s.die d).reached 27 = true)) ∧
   (let d : DieId := .a
    let kind : Fin 16 := 7
    let idx : Fin 1024 := 1
    let s : State := (sel71 fun x => { x with state := .active })
    let u := s.die d
    let x := u.unit kind idx
    let p := s.die d.peer
    let names (die : DieId) : Prop := u.red.sel = uid die.num kind idx ∧ idx.val < kindCount kind ∧ hasUnitState kind = true ∧
      unitSlot kind idx < 1189
    let stopped (p : Joint → Bool) : Prop := ∀ j : Fin 128, (u.jnt j).used = true → p (u.jnt j) = true → (u.jnt j).stopped = true
    let released : Prop := if kind = 0 then x.released = true else stopped fun y => kind != 6 || decide (y.cfg.lane = idx.val)
    (names d) ∧ (x.state ≠ .faulted ∨ ¬ released) ∧ ((s.die d).reached 27 = true)) ∧
   (let d : DieId := .a
    let kind : Fin 16 := 7
    let idx : Fin 1024 := 1
    let s : State := (sel71 fun x => { x with state := .quarantined, faultCnt := 5 })
    let u := s.die d
    let x := u.unit kind idx
    let names (die : DieId) : Prop := u.red.sel = uid die.num kind idx ∧ idx.val < kindCount kind ∧ hasUnitState kind = true ∧
      unitSlot kind idx < 1189
    let idle : Prop := x.silent = false ∧ x.inTakeover = false
    (names d) ∧ (idle) ∧ (x.state = .quarantined) ∧ (u.red.grant = true) ∧ ((s.die d).reached 27 = true)) ∧
   (let d : DieId := .a
    let kind : Fin 16 := 7
    let idx : Fin 1024 := 1
    let s : State := (sel71 fun x => { x with state := .active })
    let u := s.die d
    let x := u.unit kind idx
    let names (die : DieId) : Prop := u.red.sel = uid die.num kind idx ∧ idx.val < kindCount kind ∧ hasUnitState kind = true ∧
      unitSlot kind idx < 1189
    (names d) ∧ (x.silent = false) ∧ (x.state ≠ .quarantined) ∧ ((s.die d).reached 27 = true)) ∧
   (let d : DieId := .a
    let kind : Fin 16 := 7
    let idx : Fin 1024 := 1
    let s : State := (sel71 fun x => { x with state := .active, role := 5 })
    let u := s.die d
    let x := u.unit kind idx
    let names (die : DieId) : Prop := u.red.sel = uid die.num kind idx ∧ idx.val < kindCount kind ∧ hasUnitState kind = true ∧
      unitSlot kind idx < 1189
    (names d) ∧ (x.inTakeover = false) ∧ (x.state ≠ .off) ∧ (u.red.grant = true) ∧ (kind ≠ 0 ∨ x.state ≠ .active) ∧ ((s.die d).reached 27 = true)) ∧
   (let d : DieId := .a
    let kind : Fin 16 := 0
    let idx : Fin 1024 := 3
    let s : State := (selE.upd .a fun d => d.updUnit 0 3 fun u => { u with state := .faulted, inTakeover := true })
    let u := s.die d
    let x := u.unit kind idx
    let names (die : DieId) : Prop := u.red.sel = uid die.num kind idx ∧ idx.val < kindCount kind ∧ hasUnitState kind = true ∧
      unitSlot kind idx < 1189
    (names d) ∧ (x.inTakeover = true) ∧ (x.state = .faulted) ∧ (u.red.grant = true) ∧ ((s.die d).reached 27 = true)) ∧
   (let d : DieId := .a
    let kind : Fin 16 := 0
    let idx : Fin 1024 := 3
    let e : Fin 80 := 3
    let r : Fin 80 := 3
    let f : Fin 80 := 4
    let more : List (Fin 80) := []
    let s : State := selE
    let u := s.die d
    let x := u.unit kind idx
    let names (die : DieId) : Prop := u.red.sel = uid die.num kind idx ∧ idx.val < kindCount kind ∧ hasUnitState kind = true ∧
      unitSlot kind idx < 1189
    let idle : Prop := x.silent = false ∧ x.inTakeover = false
    (names d) ∧ (kind = 0) ∧ (idx.val = e.val) ∧ (idle) ∧ (x.state = .active) ∧ (u.red.grant = true) ∧ (u.red.takes = []) ∧ ((u.engine e).roleNum = some r.val) ∧ ((u.spares true fun s => s.val / 5 = e.val / 5) = f :: more) ∧ (f ≠ e) ∧ ((s.die d).reached 27 = true)) ∧
   (let d : DieId := .a
    let kind : Fin 16 := 7
    let idx : Fin 1024 := 1
    let s : State := (sel71 fun x => { x with state := .off })
    let u := s.die d
    let x := u.unit kind idx
    let names (die : DieId) : Prop := u.red.sel = uid die.num kind idx ∧ idx.val < kindCount kind ∧ hasUnitState kind = true ∧
      unitSlot kind idx < 1189
    (names d) ∧ (x.state = .off) ∧ ((s.die d).reached 27 = true)) ∧
   (let d : DieId := .a
    let kind : Fin 16 := 7
    let idx : Fin 1024 := 1
    let s : State := ((sel71 fun x => { x with state := .faulted }).upd .a fun d => { d with red := { d.red with grant := false } })
    let u := s.die d
    let x := u.unit kind idx
    let names (die : DieId) : Prop := u.red.sel = uid die.num kind idx ∧ idx.val < kindCount kind ∧ hasUnitState kind = true ∧
      unitSlot kind idx < 1189
    (names d) ∧ (x.silent = false) ∧ (u.red.grant = false) ∧ ((s.die d).reached 27 = true)) ∧
   (let d : DieId := .a
    let kind : Fin 16 := 0
    let idx : Fin 1024 := 3
    let e : Fin 80 := 3
    let r : Fin 80 := 3
    let f : Fin 80 := 4
    let more : List (Fin 80) := ([4])
    let s : State := (selE.upd .a fun d => d.updEng 3 fun g => { g with running := true })
    let u := s.die d
    let x := u.unit kind idx
    let names (die : DieId) : Prop := u.red.sel = uid die.num kind idx ∧ idx.val < kindCount kind ∧ hasUnitState kind = true ∧
      unitSlot kind idx < 1189
    let idle : Prop := x.silent = false ∧ x.inTakeover = false
    (names d) ∧ (kind = 0) ∧ (idx.val = e.val) ∧ (idle) ∧ (x.state = .active) ∧ (u.red.grant = true) ∧ ((u.engine e).roleNum = some r.val) ∧ ((u.spares false (fun s => s.val / 5 = e.val / 5)) ++ (u.spares false fun s => s.val / 20 = e.val / 20) = f :: more) ∧ (f ≠ e) ∧ ((u.engine e).running = true) ∧ ((s.die d).reached 27 = true)) ∧
   (let d : DieId := .a
    let kind : Fin 16 := 0
    let idx : Fin 1024 := 3
    let e : Fin 80 := 3
    let s : State := (selE.upd .a fun d => d.updUnit 0 4 fun u => { u with state := .off })
    let u := s.die d
    let x := u.unit kind idx
    let names (die : DieId) : Prop := u.red.sel = uid die.num kind idx ∧ idx.val < kindCount kind ∧ hasUnitState kind = true ∧
      unitSlot kind idx < 1189
    (names d) ∧ (x.silent = false) ∧ (kind ≠ 0 ∨ x.state ≠ .active ∨ (idx.val = e.val ∧ (u.spares false (fun s => s.val / 5 = e.val / 5)) ++ (u.spares false fun s => s.val / 20 = e.val / 20) = [])) ∧ ((s.die d).reached 27 = true)) ∧
   (let d : DieId := .a
    let kind : Fin 16 := 7
    let idx : Fin 1024 := 1
    let s : State := (sel71 fun x => { x with state := .selftest, silent := true })
    let u := s.die d
    let x := u.unit kind idx
    (unitSlot kind idx < 1189) ∧ (kind ≠ 0) ∧ (x.state = .selftest) ∧ (u.red.grant = true)) ∧
   (let d : DieId := .a
    let kind : Fin 16 := 7
    let idx : Fin 1024 := 1
    let s : State := ((sel71 fun x => { x with state := .selftest, silent := true }).upd .a fun d => { d with red := { d.red with grant := false } })
    let u := s.die d
    let x := u.unit kind idx
    (unitSlot kind idx < 1189) ∧ (kind ≠ 0) ∧ (x.state = .selftest) ∧ (u.red.grant = false)) ∧
   (let d : DieId := .a
    let kind : Fin 16 := 7
    let idx : Fin 1024 := 1
    let s : State := (sel71 fun x => { x with state := .selftest })
    let u := s.die d
    let x := u.unit kind idx
    (unitSlot kind idx < 1189) ∧ (kind ≠ 0) ∧ (x.state = .selftest)) ∧
   (let d : DieId := .a
    let kind : Fin 16 := 7
    let idx : Fin 1024 := 1
    let s : State := (sel71 fun x => { x with state := .reset })
    let u := s.die d
    let x := u.unit kind idx
    (unitSlot kind idx < 1189) ∧ (x.state = .reset)) ∧
   (let d : DieId := .a
    let f : Fin 80 := 4
    let ticks : Nat := 0
    let s : State := (selE)
    let u := s.die d
    (∀ k : Fin 80, u.freeSpare false k = true → k.val / 5 = u.red.bistNext → f ≤ k) ∧ (u.freeSpare false f = true ∧ f.val / 5 = u.red.bistNext) ∧ (u.ticksToBist = some ticks)) ∧
   (let d : DieId := .a
    let ticks : Nat := 0
    let s : State := live
    let u := s.die d
    (∀ k : Fin 80, k.val / 5 = u.red.bistNext → u.freeSpare false k = false) ∧ (u.ticksToBist = some ticks)) ∧
   (let d : DieId := .a
    let s : State := live
    let u := s.die d
    (u.red.grant = true)) ∧
   (let d : DieId := .b
    let s : State := (live.upd .b fun d => { d with red := { d.red with blockNext := 3 } })
    let u := s.die d
    (u.red.grant = false)) ∧
   (let d : DieId := .b
    let s : State := (live.upd .b fun d => { d with red := { d.red with blockNext := 3 } })
    let u := s.die d
    (u.red.grant = false)) ∧
   (let d : DieId := .a
    let kind : Fin 16 := 7
    let idx : Fin 1024 := 1
    let s : State := (sel71 fun x => { x with state := .active })
    let u := s.die d
    let x := u.unit kind idx
    (kind = 5 ∨ kind = 6 ∨ kind = 7) ∧ (unitSlot kind idx < 1189) ∧ (x.state = .active)) ∧
   (let d : DieId := .a
    let kind : Fin 16 := 7
    let idx : Fin 1024 := 1
    let s : State := (sel71 fun x => { x with state := .standby })
    let u := s.die d
    let x := u.unit kind idx
    (x.state ≠ .active)) := by
  refine ⟨?_, ?_, ?_, ?_, ?_, ?_, ?_, ?_, ?_, ?_, ?_, ?_, ?_, ?_, ?_, ?_, ?_, ?_, ?_, ?_, ?_, ?_, ?_, ?_, ?_, ?_, ?_⟩ <;> (try dsimp only [Die.readable, Die.busReadable]) <;> decide +kernel

/-- The hypotheses of each clause of `RedGrant` can be met. -/
theorem wit_RedGrant :
   (let d : DieId := .a
    let s : State := ((onA fun d => { d with red := { d.red with grant := false, gateOpen := false }, img := { d.img with pins := { d.img.pins with lanes := [2] } } }).upd .a fun d => d.updUnit 6 2 fun u => { u with state := .standby })
    let u := s.die d
    let p := s.die d.peer
    (u.reached 27 = true) ∧ (u.id = d) ∧ (p.id = d.peer) ∧ (u.boot.phase = .complete) ∧ (u.red.grant = false) ∧ (p.red.grant = false) ∧ (u.red.latched = false) ∧ (s.a.jtag.instr ≠ .extest ∧ s.a.jtag.instr ≠ .clamp) ∧ (u.host.unacked = []) ∧ (p.host.unacked = [])) ∧
   (let d : DieId := .b
    let s : State := live
    let u := s.die d
    let p := s.die d.peer
    let blocked : Prop := (s.a.jtag.instr = .extest ∨ s.a.jtag.instr = .clamp)
    let tie : Prop := d = .a ∧ s.b.red.grant = true ∧ s.b.red.grantAt = some s.b.real ∧ s.a.boot.phase = .complete ∧ s.a.red.latched = false ∧ ¬ blocked
    (u.reached 27 = true) ∧ (u.id = d) ∧ (p.id = d.peer) ∧ (¬ tie) ∧ (u.red.grant = true ∨ p.red.grant = true ∨ u.red.latched = true ∨ u.boot.phase ≠ .complete ∨ blocked)) ∧
   (let d : DieId := .a
    let s : State := ((onA fun d => { d with red := { d.red with grant := false, gateOpen := false } }).upd .b fun d => { d with red := { d.red with grant := true, live := true, gateOpen := true, tk := .duty, grantAt := some 0 } })
    let u := s.die d
    let blocked : Prop := (s.a.jtag.instr = .extest ∨ s.a.jtag.instr = .clamp)
    let tie : Prop := d = .a ∧ s.b.red.grant = true ∧ s.b.red.grantAt = some s.b.real ∧ s.a.boot.phase = .complete ∧ s.a.red.latched = false ∧ ¬ blocked
    (u.reached 27 = true) ∧ (s.a.id = .a) ∧ (u.red.grant = false) ∧ (tie)) ∧
   (let d : DieId := .a
    let s : State := live
    ((s.die d).reached 27 = true)) ∧
   (let d : DieId := .a
    let s : State := live
    let u := s.die d
    (u.red.grant = true) ∧ (u.red.degraded = false) ∧ (u.red.handingOver = none) ∧ ((s.die d).reached 27 = true)) ∧
   (let d : DieId := .a
    let s : State := (onA fun d => { d with red := { d.red with degraded := true } })
    let u := s.die d
    (u.red.grant = false ∨ u.red.degraded = true) ∧ ((s.die d).reached 27 = true)) ∧
   (let d : DieId := .b
    let s : State := live
    let u := s.die d
    let p := s.die d.peer
    let taking (x : Die) : Prop := x.red.tk = .armed ∨ x.red.tk = .shadow ∨ x.red.tk = .waitoff
    (u.red.grant = false ∨ taking u ∨ taking p ∨ u.red.takes ≠ []) ∧ ((s.die d).reached 27 = true)) ∧
   (let d : DieId := .a
    let s : State := (live.upd .b fun d => { d with red := { d.red with latched := true, live := true } })
    let u := s.die d
    let p := s.die d.peer
    let taking (x : Die) : Prop := x.red.tk = .armed ∨ x.red.tk = .shadow ∨ x.red.tk = .waitoff
    (u.reached 27 = true) ∧ (p.id = d.peer) ∧ (u.host.unacked = []) ∧ (u.red.grant = true) ∧ (¬ taking u) ∧ (¬ taking p) ∧ (u.red.takes = []) ∧ (p.red.grant = false)) ∧
   (let d : DieId := .a
    let s : State := (onA fun d => { d with red := { d.red with cnt := Vector.replicate 8 7 } })
    ((s.die d).reached 27 = true)) ∧
   (let d : DieId := .b
    let s : State := (live.upd .b fun d => { d with red := { d.red with tk := .armed } })
    let u := s.die d
    let taking (x : Die) : Prop := x.red.tk = .armed ∨ x.red.tk = .shadow ∨ x.red.tk = .waitoff
    (taking u) ∧ ((s.die d).reached 27 = true)) ∧
   (let d : DieId := .a
    let s : State := live
    let u := s.die d
    let taking (x : Die) : Prop := x.red.tk = .armed ∨ x.red.tk = .shadow ∨ x.red.tk = .waitoff
    (¬ taking u) ∧ ((s.die d).reached 27 = true)) ∧
   (let d : DieId := .a
    let ticks : Nat := 5
    let s : State := (onA fun d => { d with red := { d.red with live := false, quiet := 120, gateOpen := true, handingOver := some 3 } })
    let u := s.die d
    (u.red.live = false) ∧ (u.red.gateOpen = true) ∧ (s.ticksIn (125 - u.red.quiet) = some ticks)) ∧
   (let d : DieId := .a
    let s : State := live
    let u := s.die d
    (u.red.live = true)) ∧
   (let d : DieId := .a
    let n : BitVec 32 := 4
    let s : State := (onA fun d => { d with red := { d.red with handingOver := some 4 } })
    let u := s.die d
    let q := s.reach d Die.dueLiveStop
    ((q.die d).red.handingOver = some n) ∧ ((q.die d).time.cyc = n + 1) ∧ (u.img.cell.tc ≤ (q.die d).sinceStart + 750)) ∧
   (let ticks : Nat := 50
    let s : State := ({ (onA fun d => { d with red := { d.red with gateOpen := false, live := false } }) with pkg := { safeA := true, safeB := true, undriven := live.a.img.cell.tc - 50 } })
    (s.gatesOk = true) ∧ (s.driven = false) ∧ (s.ticksIn (max s.a.img.cell.tc s.b.img.cell.tc - s.pkg.undriven) = some ticks)) ∧
   (let s : State := ({ live with pkg := { safeA := (live.a.motionPermitted), safeB := (live.a.motionPermitted) } })
    (s.safeOk = true) ∧ (s.gatesOk = true) ∧ (s.driven = true)) := by
  refine ⟨?_, ?_, ?_, ?_, ?_, ?_, ?_, ?_, ?_, ?_, ?_, ?_, ?_, ?_, ?_, ?_⟩ <;> (try dsimp only [Die.readable, Die.busReadable]) <;> decide +kernel

/-- The hypotheses of each clause of `RedTakeover` can be met. -/
theorem wit_RedTakeover :
   (let d : DieId := .b
    let s : State := (tkB .standby 30 fun r => r)
    let u := s.die d
    (u.red.grant = false) ∧ (u.red.linkUp = true)) ∧
   (let d : DieId := .b
    let s : State := (tkB .standby 30 fun r => r)
    let u := s.die d
    (u.red.grant = false) ∧ (u.red.linkUp = true)) ∧
   (let d : DieId := .a
    let s : State := live
    let u := s.die d
    (u.red.grant = true ∨ u.red.linkUp = false)) ∧
   (let d : DieId := .b
    let s : State := (tkB .standby 30 fun r => r)
    let q := s.elapse ((s.ticksToSilent d).getD 0)
    let z := q.die d
    let o := q.die d.peer
    let silent : Prop := (s.ticksToSilent d).isSome = true ∧ z.red.grant = false ∧ z.red.tk = .standby ∧ (o.red.grant = true ∨ z.red.hbSeen = true) ∧
      ((z.red.hbLast ≠ z.time.cyc ∧ 2000 ≤ z.sinceStart) ∨ 250 ≤ o.red.quiet)
    let quiet : Prop := (∀ w : Fin 4, (z.region w).plan = none) ∧ ∀ j : Fin 128, (z.jnt j).source ≠ 2
    (silent) ∧ (z.red.fit = true) ∧ (z.usedRoles = []) ∧ (quiet)) ∧
   (let d : DieId := .b
    let r : Fin 80 := 3
    let s : State := ((tkB .standby 30 fun r => r).upd .b fun d => ({ d with img := { d.img with ports := [{ portBind true with eng := 3 }] } }).updUnit 0 3 fun u => { u with state := .standby })
    let q := s.elapse ((s.ticksToSilent d).getD 0)
    let z := q.die d
    let o := q.die d.peer
    let silent : Prop := (s.ticksToSilent d).isSome = true ∧ z.red.grant = false ∧ z.red.tk = .standby ∧ (o.red.grant = true ∨ z.red.hbSeen = true) ∧
      ((z.red.hbLast ≠ z.time.cyc ∧ 2000 ≤ z.sinceStart) ∨ 250 ≤ o.red.quiet)
    let quiet : Prop := (∀ w : Fin 4, (z.region w).plan = none) ∧ ∀ j : Fin 128, (z.jnt j).source ≠ 2
    (silent) ∧ (z.red.fit = true) ∧ (z.usedRoles = [r.val]) ∧ (quiet) ∧ ((z.unit 0 r).state = .standby) ∧ (vget z.red.cairnCyc r = none)) ∧
   (let d : DieId := .b
    let s : State := (tkB .standby 30 fun r => { r with fit := false, live := true })
    let q := s.elapse ((s.ticksToSilent d).getD 0)
    let z := q.die d
    let o := q.die d.peer
    let silent : Prop := (s.ticksToSilent d).isSome = true ∧ z.red.grant = false ∧ z.red.tk = .standby ∧ (o.red.grant = true ∨ z.red.hbSeen = true) ∧
      ((z.red.hbLast ≠ z.time.cyc ∧ 2000 ≤ z.sinceStart) ∨ 250 ≤ o.red.quiet)
    (silent) ∧ (z.red.fit = false)) ∧
   (let d : DieId := .b
    let s : State := ((tkB .shadow 30250 fun r => r).upd .a fun d => { d with red := { d.red with grant := false, gateOpen := false, live := false } })
    let u := s.die d
    let p := s.die d.peer
    let m := s.reach d Die.dueCheckPoint
    let x := m.die d
    let y := m.die d.peer
    let checks : Prop := x.red.tk = .shadow ∧ 1 ≤ diff32 x.time.cyc x.red.silentAt ∧ x.img.cell.tc ≤ x.sinceStart + 1000
    let noAcks : Prop := u.host.unacked = [] ∧ p.host.unacked = []
    let confirmed (x y : Die) : Prop := x.red.confirmMode = false ∨ x.red.confirmed = true ∨
      (x.red.handoverRx = some x.red.silentAt ∧ y.red.handoverCmd = true)
    let scan (x y : Die) : Prop := ∀ a ∈ (if d = .a then [x] else [y]), a.jtag.instr ≠ .extest ∧ a.jtag.instr ≠ .clamp
    (checks) ∧ (noAcks) ∧ (x.id = d) ∧ (x.red.hbSince = false) ∧ (y.red.gateOpen = false) ∧ (y.red.grant = false) ∧ (confirmed x y) ∧ (scan x y)) ∧
   (let d : DieId := .b
    let s : State := (tkB .shadow 30250 fun r => { r with handoverRx := some 5 })
    let m := s.reach d Die.dueCheckPoint
    let x := m.die d
    let y := m.die d.peer
    let checks : Prop := x.red.tk = .shadow ∧ 1 ≤ diff32 x.time.cyc x.red.silentAt ∧ x.img.cell.tc ≤ x.sinceStart + 1000
    (checks) ∧ (x.red.hbSince = false) ∧ (y.red.gateOpen = true) ∧ (x.red.handoverRx = some x.red.silentAt)) ∧
   (let d : DieId := .b
    let s : State := (tkB .shadow 30250 fun r => r)
    let m := s.reach d Die.dueCheckPoint
    let x := m.die d
    let y := m.die d.peer
    let checks : Prop := x.red.tk = .shadow ∧ 1 ≤ diff32 x.time.cyc x.red.silentAt ∧ x.img.cell.tc ≤ x.sinceStart + 1000
    (checks) ∧ (y.red.gateOpen = true) ∧ (x.red.hbSince = true ∨ x.red.handoverRx ≠ some x.red.silentAt)) ∧
   (let d : DieId := .b
    let s : State := ((tkB .shadow 30250 fun r => { r with confirmMode := true }).upd .a fun d => { d with red := { d.red with grant := false, gateOpen := false, live := false } })
    let m := s.reach d Die.dueCheckPoint
    let x := m.die d
    let y := m.die d.peer
    let checks : Prop := x.red.tk = .shadow ∧ 1 ≤ diff32 x.time.cyc x.red.silentAt ∧ x.img.cell.tc ≤ x.sinceStart + 1000
    let confirmed (x y : Die) : Prop := x.red.confirmMode = false ∨ x.red.confirmed = true ∨
      (x.red.handoverRx = some x.red.silentAt ∧ y.red.handoverCmd = true)
    (checks) ∧ (x.red.hbSince = false) ∧ (y.red.gateOpen = false) ∧ (¬ confirmed x y)) ∧
   (let d : DieId := .b
    let s : State := ((tkB .waitoff 30850 fun r => r).upd .a fun d => { d with red := { d.red with grant := false, gateOpen := false, live := false } })
    let u := s.die d
    let p := s.die d.peer
    let m := s.reach d Die.dueCheckPoint
    let x := m.die d
    let y := m.die d.peer
    let noAcks : Prop := u.host.unacked = [] ∧ p.host.unacked = []
    let confirmed (x y : Die) : Prop := x.red.confirmMode = false ∨ x.red.confirmed = true ∨
      (x.red.handoverRx = some x.red.silentAt ∧ y.red.handoverCmd = true)
    let scan (x y : Die) : Prop := ∀ a ∈ (if d = .a then [x] else [y]), a.jtag.instr ≠ .extest ∧ a.jtag.instr ≠ .clamp
    (u.red.tk = .waitoff) ∧ (noAcks) ∧ (u.id = d) ∧ (p.red.gateOpen = false) ∧ (p.red.grant = false) ∧ (confirmed u p) ∧ (scan u p) ∧ (u.sinceStart + 100 < u.img.cell.tc)) ∧
   (let d : DieId := .b
    let s : State := (tkB .waitoff 30850 fun r => r)
    let u := s.die d
    let p := s.die d.peer
    (u.red.tk ≠ .waitoff ∨ p.red.gateOpen = true)) ∧
   (let d : DieId := .b
    let s : State := (tkB .waitoff 30850 fun r => r)
    let u := s.die d
    let f := s.reach d Die.dueWaitoff
    ((f.die d).red.tk = .waitoff) ∧ (u.img.cell.tc ≤ (f.die d).sinceStart + 100)) := by
  refine ⟨?_, ?_, ?_, ?_, ?_, ?_, ?_, ?_, ?_, ?_, ?_, ?_, ?_⟩ <;> (try dsimp only [Die.readable, Die.busReadable]) <;> decide +kernel

/-- The hypotheses of each clause of `RedCopies` can be met. -/
theorem wit_RedCopies :
   (let d : DieId := .b
    let role : Fin 80 := 3
    let buf : List (BitVec 8) := (leBytes 4 7 ++ [0, 0, 4, 0] ++ leBytes 4 (crc32c [1, 2, 3, 4]).toNat ++ [0, 0, 0, 0, 1, 2, 3, 4])
    let law : CairnState := ({} : CairnState)
    let rest : List (Nat × List (BitVec 8) × CairnState) := []
    let err : List (BitVec 8) := []
    let s : State := (live.upd .a fun d => { d with red := { d.red with cairnTx := [(3, leBytes 4 7 ++ [0, 0, 4, 0] ++ leBytes 4 (crc32c [1, 2, 3, 4]).toNat ++ [0, 0, 0, 0, 1, 2, 3, 4], {})] } })
    let u := s.die d
    let p := s.die d.peer
    let got := buf.zipIdx.map fun (x : BitVec 8 × Nat) => x.1 ^^^ err.getD x.2 0
    let len := fieldAt got 6 2
    let good : Prop := len + 16 ≤ got.length ∧ crc32c (sliceBytes got 16 len) = BitVec.ofNat 32 (fieldAt got 8 4)
    (p.red.cairnTx = (role.val, buf, law) :: rest) ∧ (u.red.linkUp = true) ∧ (u.red.grant = false) ∧ (good)) ∧
   (let d : DieId := .b
    let role : Fin 80 := 3
    let buf : List (BitVec 8) := (leBytes 4 7 ++ [0, 0, 4, 0] ++ leBytes 4 (crc32c [1, 2, 3, 4]).toNat ++ [0, 0, 0, 0, 1, 2, 3, 4])
    let law : CairnState := ({} : CairnState)
    let rest : List (Nat × List (BitVec 8) × CairnState) := []
    let err : List (BitVec 8) := [0, 0, 0, 0, 0, 0, 0, 0, 1]
    let s : State := (live.upd .a fun d => { d with red := { d.red with cairnTx := [(3, leBytes 4 7 ++ [0, 0, 4, 0] ++ leBytes 4 (crc32c [1, 2, 3, 4]).toNat ++ [0, 0, 0, 0, 1, 2, 3, 4], {})] } })
    let u := s.die d
    let p := s.die d.peer
    let got := buf.zipIdx.map fun (x : BitVec 8 × Nat) => x.1 ^^^ err.getD x.2 0
    let len := fieldAt got 6 2
    let good : Prop := len + 16 ≤ got.length ∧ crc32c (sliceBytes got 16 len) = BitVec.ofNat 32 (fieldAt got 8 4)
    (p.red.cairnTx = (role.val, buf, law) :: rest) ∧ (u.red.linkUp = true) ∧ (u.red.grant = false) ∧ (¬ good)) ∧
   (let d : DieId := .b
    let s : State := live
    let p := s.die d.peer
    (p.red.cairnTx = [])) ∧
   (let d : DieId := .b
    let w : Fin 4 := 2
    let s : State := (live.upd .a fun d => { d with regions := vset d.regions 2 { state := .solving, period := 9, tauJ := 3, warmWritten := false, plan := none }, sram := ⟨[(storeBase 2 + 0x3F4000 + 5, 9)]⟩ })
    let u := s.die d
    let p := s.die d.peer
    let listens : Prop := u.red.grant = false ∧ u.red.linkUp = true ∧ p.red.grant = true
    let y := p.region w
    (listens) ∧ (y.warmWritten = false)) ∧
   (let d : DieId := .b
    let s : State := (live.upd .a fun d => { d with lanes := vset d.lanes 2 { head2 with lastSof := 99 }, joints := vset d.joints 5 { used := true, pos := 77 }, red := { d.red with confirmReq := true } })
    let u := s.die d
    let p := s.die d.peer
    let listens : Prop := u.red.grant = false ∧ u.red.linkUp = true ∧ p.red.grant = true
    (listens)) ∧
   (let d : DieId := .a
    let s : State := live
    let u := s.die d
    let p := s.die d.peer
    (u.red.grant = true ∨ u.red.linkUp = false ∨ p.red.grant = false)) ∧
   (let d : DieId := .a
    let r : ErrRec := ({ sev := .stop, uid := 5, code := 6, cyc := 7 })
    let recs : List ErrRec := []
    let s : State := (live.upd .b fun d => { d with err := { d.err with forward := [{ sev := .stop, uid := 5, code := 6, cyc := 7 }] } })
    let u := s.die d
    let p := s.die d.peer
    (p.err.forward = r :: recs) ∧ (u.red.grant = true) ∧ (u.red.linkUp = true)) ∧
   (let d : DieId := .a
    let s : State := live
    let p := s.die d.peer
    (p.err.forward = [])) ∧
   (let s : State := live
    (s.safeOk = true) ∧ (s.gatesOk = true) ∧ (s.a.red.grant = true ∨ s.b.red.grant = true)) ∧
   (let s : State := (live.both fun d => { d with red := { d.red with linkUp := false } })
    (s.safeOk = true) ∧ (s.gatesOk = true) ∧ (s.a.awake domD2d = true) ∧ (s.b.awake domD2d = true)) ∧
   (let s : State := ((live.both fun d => { d with red := { d.red with linkUp := false } }).upd .b fun d => d.updDom domD2d fun m => { m with state := .off })
    (s.safeOk = true) ∧ (s.gatesOk = true) ∧ (s.a.awake domD2d = false ∨ s.b.awake domD2d = false)) := by
  refine ⟨?_, ?_, ?_, ?_, ?_, ?_, ?_, ?_, ?_, ?_, ?_⟩ <;> (try dsimp only [Die.readable, Die.busReadable]) <;> decide +kernel

/-- The hypotheses of each clause of `SafetyInputs` can be met. -/
theorem wit_SafetyInputs :
   (let d : DieId := .a
    let k : Fin 4 := 2
    let n : Nat := 5
    let s : State := (sfe 0xFF live fun x => { x with en := false })
    let e := (s.ticksIn n).elim s s.elapse
    let u := e.die d
    let x := u.safeIn k
    (x.en = false ∨ u.awake domSafe = false)) ∧
   (let d : DieId := .a
    let k : Fin 4 := 2
    let a : Bool := true
    let b : Bool := true
    let n : Nat := 5
    let s : State := (sfe 0xFF live fun x => { x with state := .load })
    let e := (s.ticksIn n).elim s s.elapse
    let u := e.die d
    let x := u.safeIn k
    let pinA : Bool := a && u.ballUsed (.safeIn k false)
    let pinB : Bool := b && u.ballUsed (.safeIn k true)
    let filtered (i : Nat) (pin was : Bool) : Bool :=
      if 125000 ≤ u.real - (if bit u.safe.pins i = pin then (u.safe.pinAt[i]?).getD 0 else (s.die d).real) then pin else was
    let fa : Bool := filtered (2 * k.val) pinA x.filA
    let fb : Bool := filtered (2 * k.val + 1) pinB x.filB
    let on : Prop := x.en = true ∧ u.awake domSafe = true
    (on) ∧ (fa = true) ∧ (fb = true) ∧ (x.state = .load ∨ x.state = .stop ∨ x.state = .disc ∨ x.state = .latched)) ∧
   (let d : DieId := .a
    let k : Fin 4 := 2
    let a : Bool := true
    let b : Bool := true
    let n : Nat := 5
    let s : State := (sfe 0xFF live fun x => { x with state := .clear })
    let e := (s.ticksIn n).elim s s.elapse
    let u := e.die d
    let x := u.safeIn k
    let pinA : Bool := a && u.ballUsed (.safeIn k false)
    let pinB : Bool := b && u.ballUsed (.safeIn k true)
    let filtered (i : Nat) (pin was : Bool) : Bool :=
      if 125000 ≤ u.real - (if bit u.safe.pins i = pin then (u.safe.pinAt[i]?).getD 0 else (s.die d).real) then pin else was
    let fa : Bool := filtered (2 * k.val) pinA x.filA
    let fb : Bool := filtered (2 * k.val + 1) pinB x.filB
    let on : Prop := x.en = true ∧ u.awake domSafe = true
    (on) ∧ (fa = true) ∧ (fb = true) ∧ (x.state = .clear)) ∧
   (let d : DieId := .a
    let k : Fin 4 := 2
    let a : Bool := false
    let b : Bool := true
    let n : Nat := 5
    let s : State := (sfe 0 (arm2 (fun x => x) fun x => { x with stop := 2 }) fun x => { x with state := .clear, arms := 2, stop := 2 })
    let e := (s.ticksIn n).elim s s.elapse
    let u := e.die d
    let x := u.safeIn k
    let pinA : Bool := a && u.ballUsed (.safeIn k false)
    let pinB : Bool := b && u.ballUsed (.safeIn k true)
    let filtered (i : Nat) (pin was : Bool) : Bool :=
      if 125000 ≤ u.real - (if bit u.safe.pins i = pin then (u.safe.pinAt[i]?).getD 0 else (s.die d).real) then pin else was
    let fa : Bool := filtered (2 * k.val) pinA x.filA
    let fb : Bool := filtered (2 * k.val + 1) pinB x.filB
    let on : Prop := x.en = true ∧ u.awake domSafe = true
    (on) ∧ (fa = false ∨ fb = false) ∧ (x.state = .load ∨ x.state = .clear ∨ x.state = .latched)) ∧
   (let d : DieId := .a
    let k : Fin 4 := 2
    let a : Bool := false
    let b : Bool := true
    let n : Nat := 5
    let s : State := (sfe 0xF0 live fun x => { x with state := .wait, waitA := true })
    let e := (s.ticksIn n).elim s s.elapse
    let u := e.die d
    let x := u.safeIn k
    let pinA : Bool := a && u.ballUsed (.safeIn k false)
    let pinB : Bool := b && u.ballUsed (.safeIn k true)
    let filtered (i : Nat) (pin was : Bool) : Bool :=
      if 125000 ≤ u.real - (if bit u.safe.pins i = pin then (u.safe.pinAt[i]?).getD 0 else (s.die d).real) then pin else was
    let fa : Bool := filtered (2 * k.val) pinA x.filA
    let fb : Bool := filtered (2 * k.val + 1) pinB x.filB
    let on : Prop := x.en = true ∧ u.awake domSafe = true
    (on) ∧ (x.state = .wait) ∧ ((if x.waitA then fb else fa) = true)) ∧
   (let d : DieId := .a
    let k : Fin 4 := 2
    let a : Bool := false
    let b : Bool := false
    let n : Nat := 5
    let s : State := (sfe 0 live fun x => { x with state := .wait, waitA := true })
    let e := (s.ticksIn n).elim s s.elapse
    let u := e.die d
    let x := u.safeIn k
    let pinA : Bool := a && u.ballUsed (.safeIn k false)
    let pinB : Bool := b && u.ballUsed (.safeIn k true)
    let filtered (i : Nat) (pin was : Bool) : Bool :=
      if 125000 ≤ u.real - (if bit u.safe.pins i = pin then (u.safe.pinAt[i]?).getD 0 else (s.die d).real) then pin else was
    let fa : Bool := filtered (2 * k.val) pinA x.filA
    let fb : Bool := filtered (2 * k.val + 1) pinB x.filB
    let on : Prop := x.en = true ∧ u.awake domSafe = true
    (on) ∧ (x.state = .wait) ∧ ((if x.waitA then fb else fa) = false)) ∧
   (let d : DieId := .a
    let k : Fin 4 := 2
    let a : Bool := false
    let b : Bool := true
    let n : Nat := 5
    let s : State := (sfe 0 live fun x => { x with state := .disc })
    let e := (s.ticksIn n).elim s s.elapse
    let u := e.die d
    let x := u.safeIn k
    let pinA : Bool := a && u.ballUsed (.safeIn k false)
    let pinB : Bool := b && u.ballUsed (.safeIn k true)
    let filtered (i : Nat) (pin was : Bool) : Bool :=
      if 125000 ≤ u.real - (if bit u.safe.pins i = pin then (u.safe.pinAt[i]?).getD 0 else (s.die d).real) then pin else was
    let fa : Bool := filtered (2 * k.val) pinA x.filA
    let fb : Bool := filtered (2 * k.val + 1) pinB x.filB
    let on : Prop := x.en = true ∧ u.awake domSafe = true
    (on) ∧ (fa = false ∨ fb = false) ∧ (x.state = .stop ∨ x.state = .disc)) ∧
   (let d : DieId := .a
    let k : Fin 4 := 2
    let n : Nat := 2
    let s : State := (sfe 0 live fun x => { x with state := .wait, waitAt := 200002, discMs := 0 })
    ((s.ticksTo d (Die.dueDisc k)) = some n) ∧ (((s.die d).safeIn k).en = true) ∧ (((s.die d).safeIn k).state = .wait)) ∧
   (let d : DieId := .a
    let k : Fin 4 := 2
    let s : State := (sfe 0 live fun x => { x with state := .stop })
    (((s.die d).safeIn k).state ≠ .wait)) ∧
   (let d : DieId := .a
    let mask : BitVec 4 := 4
    let s : State := (onA fun d => d.updSafe 2 fun _ => { en := true, state := .latched })
    (∀ j : Fin 4, bit mask j = true → ((s.die d).safeIn j).state = .latched) ∧ ((s.die d).reached 35 = true)) ∧
   (let d : DieId := .a
    let mask : BitVec 4 := 6
    let s : State := (onA fun d => d.updSafe 2 fun _ => { en := true, state := .latched })
    (∃ j : Fin 4, bit mask j = true ∧ ((s.die d).safeIn j).state ≠ .latched) ∧ ((s.die d).reached 35 = true)) ∧
   (let d : DieId := .a
    let a : Bool := false
    let b : Bool := true
    let s : State := (arm2 (fun x => x) fun x => { x with stop := 3 })
    (a ≠ b) ∧ ((s.die d).safe.mismatch = false)) ∧
   (let d : DieId := .a
    let a : Bool := true
    let b : Bool := true
    let s : State := (onA fun d => { d with safe := { d.safe with mismatch := true } })
    (a = b ∨ (s.die d).safe.mismatch = true)) := by
  refine ⟨?_, ?_, ?_, ?_, ?_, ?_, ?_, ?_, ?_, ?_, ?_, ?_, ?_⟩ <;> (try dsimp only [Die.readable, Die.busReadable]) <;> decide +kernel

/-- The hypotheses of each clause of `MonitorAndLog` can be met. -/
theorem wit_MonitorAndLog :
   (let d : DieId := .a
    let temp : Vector (BitVec 16) 8 := (Vector.replicate 8 320)
    let ticks : Nat := 0
    let s : State := (onA fun d => { d with mon := { d.mon with avsV := 750 } })
    let u := s.die d
    let comes (last : Mon → Option Nat) : Prop := s.ticksTo d (Die.dueStep last) = some ticks
    let top := Config.gradeE
    let hot : Bool := temp.toList.any fun t => decide ((if top then 115 * 16 else 100 * 16) ≤ t.toInt)
    (comes Mon.sampleAt) ∧ (u.awake domKeep = true) ∧ (hot = false)) ∧
   (let d : DieId := .a
    let temp : Vector (BitVec 16) 8 := (vset (Vector.replicate 8 320) 3 1850)
    let ticks : Nat := 0
    let s : State := (onA fun d => { d with mon := { d.mon with avsV := 750 } })
    let u := s.die d
    let m := u.mon
    let comes (last : Mon → Option Nat) : Prop := s.ticksTo d (Die.dueStep last) = some ticks
    let top := Config.gradeE
    let hot : Bool := temp.toList.any fun t => decide ((if top then 115 * 16 else 100 * 16) ≤ t.toInt)
    (comes Mon.sampleAt) ∧ (u.awake domKeep = true) ∧ (hot = true) ∧ (m.inTempFatal = false)) ∧
   (let d : DieId := .a
    let ticks : Nat := 0
    let s : State := (onA fun d => { d with mon := { d.mon with avsV := 750, margin := Vector.replicate 16 39, vSwMax := 50 } })
    let u := s.die d
    let m := u.mon
    let comes (last : Mon → Option Nat) : Prop := s.ticksTo d (Die.dueStep last) = some ticks
    let least := m.margin.toList.foldl (fun a v => min a v.toNat) 1023
    let low : Int := max 650 (600 + 5 * m.vSwMin.toNat)
    (comes Mon.avsAt) ∧ (u.clk.sel = true) ∧ (m.marginMin.toNat ≤ least) ∧ (low ≤ 850)) ∧
   (let d : DieId := .a
    let ticks : Nat := 0
    let s : State := (onA fun d => { d with mon := { d.mon with avsV := 750, margin := Vector.replicate 16 9 } })
    let u := s.die d
    let m := u.mon
    let comes (last : Mon → Option Nat) : Prop := s.ticksTo d (Die.dueStep last) = some ticks
    let least := m.margin.toList.foldl (fun a v => min a v.toNat) 1023
    let low : Int := max 650 (600 + 5 * m.vSwMin.toNat)
    (comes Mon.avsAt) ∧ (u.clk.sel = true) ∧ (least < m.marginMin.toNat) ∧ (low ≤ 850) ∧ (m.inMarginFatal = false)) ∧
   (let d : DieId := .a
    let ticks : Nat := 0
    let s : State := live
    let u := s.die d
    let comes (last : Mon → Option Nat) : Prop := s.ticksTo d (Die.dueStep last) = some ticks
    (comes Mon.avsAt) ∧ (u.clk.sel = true)) ∧
   (let d : DieId := .a
    let s : State := (onA fun d => { d with clk := { d.clk with sel := false } })
    let u := s.die d
    (u.clk.sel = false)) ∧
   (let d : DieId := .a
    let s : State := (onA fun d => { d with mon := { d.mon with ceilingSteps := 10 } })
    let u := s.die d
    let m := u.mon
    (10 ≤ m.ceilingSteps) ∧ (m.ceilingDone = false)) ∧
   (let d : DieId := .a
    let s : State := (onA fun d => { d with mon := { d.mon with ceilingSteps := 9 } })
    let u := s.die d
    let m := u.mon
    (m.ceilingSteps < 10 ∨ m.ceilingDone = true)) ∧
   (let d : DieId := .a
    let ticks : Nat := 0
    let s : State := (onA fun d => { d with mon := { d.mon with avsV := 750, iCore := 20000, pwrCap := 1499, duty := 1 } })
    let u := s.die d
    let m := u.mon
    let comes (last : Mon → Option Nat) : Prop := s.ticksTo d (Die.dueStep last) = some ticks
    let nobodyWaits (u : Die) : Prop := ∀ k : Fin 4, (u.region k).run.all (fun x => x.started || !x.due) = true
    let power := m.avsV.toNat * m.iCore / 10000 + m.pwrCapOfs.toNat
    let cap := m.pwrCap.toNat
    (comes Mon.capAt) ∧ (u.clk.sel = true) ∧ (cap ≠ 0) ∧ (power < 65536) ∧ (nobodyWaits u)) ∧
   (let d : DieId := .a
    let s : State := (onA fun d => { d with err := { d.err with ring := [{ sev := .stop, uid := 5, code := 6, cyc := 7 }] } })
    ((s.die d).reached 27 = true)) ∧
   (let d : DieId := .a
    let s : State := (onA fun d => { d with err := { d.err with first := 5, fatalOwn := true } })
    ((s.die d).reached 27 = true)) ∧
   (let d : DieId := .a
    let s : State := (onA fun d => { d with err := { d.err with cntLost := 9 } })
    ((s.die d).reached 27 = true)) ∧
   (let d : DieId := .a
    let s : State := (onA fun d => { d with err := { d.err with foghorn := true, first := 3 <<< 61 } })
    let u := s.die d
    let noCause : Prop := (∀ k : Fin 4, (u.safeIn k).state ≠ .disc) ∧ u.safe.mismatch = false ∧ u.err.first.toNat / 2 ^ 61 ≠ 4
    (noCause) ∧ ((s.die d).reached 27 = true)) ∧
   (let d : DieId := .a
    let s : State := (onA fun d => { d with err := { d.err with foghorn := true, first := 4 <<< 61 } })
    let u := s.die d
    let noCause : Prop := (∀ k : Fin 4, (u.safeIn k).state ≠ .disc) ∧ u.safe.mismatch = false ∧ u.err.first.toNat / 2 ^ 61 ≠ 4
    (¬ noCause) ∧ ((s.die d).reached 27 = true)) ∧
   (let d : DieId := .a
    let hi : BitVec 32 := 0x60011CEF
    let s : State := live
    let sev := hi.toNat / 2 ^ 29
    let code := hi.toNat % 256
    let unit := hi.extractLsb' 8 16
    let bad : Prop := code < 0xF0 ∨ 4 ≤ sev ∨ validUid unit = false
    (bad) ∧ ((s.die d).reached 27 = true)) ∧
   (let d : DieId := .a
    let hi : BitVec 32 := 0x20001CF5
    let s : State := live
    let u := s.die d
    let sev := hi.toNat / 2 ^ 29
    let code := hi.toNat % 256
    let unit := hi.extractLsb' 8 16
    let bad : Prop := code < 0xF0 ∨ 4 ≤ sev ∨ validUid unit = false
    (¬ bad) ∧ (u.err.ring.length < 1024) ∧ (sev < 3) ∧ ((s.die d).reached 27 = true)) ∧
   (let d : DieId := .a
    let hi : BitVec 32 := 0x60001CF5
    let s : State := (onA fun d => { d with err := { d.err with ring := List.replicate 1024 { sev := .stop, uid := 5, code := 6, cyc := 7 } } })
    let u := s.die d
    let sev := hi.toNat / 2 ^ 29
    let code := hi.toNat % 256
    let unit := hi.extractLsb' 8 16
    let bad : Prop := code < 0xF0 ∨ 4 ≤ sev ∨ validUid unit = false
    (¬ bad) ∧ (1024 ≤ u.err.ring.length) ∧ (sev = 3) ∧ (u.err.first = 0) ∧ (u.red.grant = true) ∧ ((s.die d).reached 27 = true)) := by
  refine ⟨?_, ?_, ?_, ?_, ?_, ?_, ?_, ?_, ?_, ?_, ?_, ?_, ?_, ?_, ?_, ?_, ?_⟩ <;> (try dsimp only [Die.readable, Die.busReadable]) <;> first | decide +kernel | (generalize Config.gradeE = g; cases g <;> decide +kernel)

/-- The hypotheses of each clause of `ImageLoads` can be met. -/
theorem wit_ImageLoads :
   (let d : DieId := .a
    let src : BitVec 2 := 1
    let s : State := live
    let u := s.die d
    let m := u.img
    (src = 1) ∧ (u.clk.sel = true) ∧ (m.state = .empty ∨ m.state = .running) ∧ ((s.die d).reached 1 = true)) ∧
   (let d : DieId := .a
    let src : BitVec 2 := 0
    let s : State := live
    let u := s.die d
    let m := u.img
    let still : Prop := ∀ j : Fin 128, (u.jnt j).used = true → (u.jnt j).cfg.arm < 16 → (u.jnt j).stopped = true ∨ ((u.jnt j).atRest = true ∧ (u.jnt j).source = 0)
    (src = 0) ∧ (u.clk.sel = true) ∧ (u.qspi.busy = false) ∧ (m.state = .empty ∨ m.state = .running ∧ still) ∧ ((s.die d).reached 1 = true)) ∧
   (let d : DieId := .a
    let src : BitVec 2 := 2
    let s : State := live
    let u := s.die d
    let m := u.img
    (u.clk.sel = false ∨ 2 ≤ src.toNat ∨ (m.state ≠ .empty ∧ m.state ≠ .running) ∨ (src = 0 ∧ u.qspi.busy = true)) ∧ ((s.die d).reached 1 = true)) ∧
   (let d : DieId := .a
    let f : LoadFail := ({ rule := 493, result := 1 })
    let s : State := (chk fun x => x)
    let u := s.die d
    let m := u.img
    let b := u.imgSource
    (m.state = .check) ∧ (u.imgComplete = true) ∧ (u.pass1 b = some f)) ∧
   (let d : DieId := .a
    let s : State := (chk fun x => { x with src := 1 })
    let u := s.die d
    let m := u.img
    (m.state ≠ .check ∨ u.imgComplete = false)) ∧
   (let d : DieId := .a
    let i : Nat := 20
    let s : State := (((plc fun x => { x with power := [{ dom := 20, req := 2, woa := false }] })).upd .a fun d => d.updDom 20 fun m => { m with state := .unavailable })
    let u := s.die d
    let m := u.img
    let pass2 : Prop := m.state = .place ∧ u.time.cycRun = false ∧ u.imgComplete = true ∧ u.powerPending m.power = false
    (pass2) ∧ (u.powerFailed m.power = some i)) ∧
   (let d : DieId := .a
    let s : State := (plc fun x => x)
    let u := s.die d
    let m := u.img
    let b := u.imgSource
    let pass2 : Prop := m.state = .place ∧ u.time.cycRun = false ∧ u.imgComplete = true ∧ u.powerPending m.power = false
    let same : Prop := imgDigest b = m.digest1 ∧ (imgSecs b).map (fun s => crc32c s.body) = m.crcs1
    (pass2) ∧ (u.powerFailed m.power = none) ∧ (partsOf (imgSecs b) = none ∨ ¬ same)) ∧
   (let d : DieId := .a
    let len : BitVec 19 := 5
    let s : State := (onA fun d => { d with img := { d.img with pushReady := false } })
    let u := s.die d
    let m := u.img
    (m.pushReady = false ∨ len = 0 ∨ 262144 < len.toNat) ∧ ((s.die d).reached 1 = true)) ∧
   (let d : DieId := .a
    let len : BitVec 19 := 5
    let s : State := (chk fun x => { x with pushReady := true, src := 1 })
    let u := s.die d
    let m := u.img
    (m.pushReady = true) ∧ (m.src = 1) ∧ (m.state = .check) ∧ (0 < len.toNat) ∧ (len.toNat ≤ 262144) ∧ ((s.die d).reached 1 = true)) ∧
   (let d : DieId := .a
    let n : Nat := 50
    let s : State := ((chk fun x => { x with pushReady := true, src := 1 }).upd .a fun d => { d with real := 24999950 })
    let u := s.die d
    let m := u.img
    (s.ticksTo d Die.duePush = some n) ∧ (m.state = .check)) ∧
   (let d : DieId := .a
    let n : Nat := 50
    let s : State := ((plc fun x => { x with pushReady := true }).both fun d => { d with real := 24999950, time := { d.time with cycRun := false } })
    let u := s.die d
    let m := u.img
    (s.ticksTo d Die.duePush = some n) ∧ (m.state = .place)) ∧
   (let d : DieId := .a
    let s : State := (chk fun x => x)
    let u := s.die d
    let m := u.img
    (m.state = .check) ∧ ((s.die d).reached 1 = true)) ∧
   (let d : DieId := .a
    let s : State := stg
    let u := s.die d
    let m := u.img
    (m.state = .staged) ∧ ((s.die d).reached 1 = true)) ∧
   (let d : DieId := .a
    let s : State := (plc fun x => x)
    let u := s.die d
    let m := u.img
    (m.state = .place ∨ m.state = .applying) ∧ ((s.die d).reached 1 = true)) ∧
   (let d : DieId := .a
    let s : State := (onA fun d => { d with img := { d.img with cnt := Vector.replicate 3 7 } })
    ((s.die d).reached 1 = true)) := by
  refine ⟨?_, ?_, ?_, ?_, ?_, ?_, ?_, ?_, ?_, ?_, ?_, ?_, ?_, ?_, ?_⟩ <;> (try dsimp only [Die.readable, Die.busReadable]) <;> decide +kernel

/-- The hypotheses of each clause of `ImageUpdates` can be met. -/
theorem wit_ImageUpdates :
   (let d : DieId := .a
    let x : ImgSec := ({ idx := 0, type := 6, inst := 0, ofs := 160, addr := 0x40, body := [1, 2, 3, 4] })
    let s : State := stg
    let u := s.die d
    let o := s.die d.peer
    let m := u.img
    let taking (x : Die) : Prop := x.red.tk = .armed ∨ x.red.tk = .shadow ∨ x.red.tk = .waitoff ∨ x.red.handingOver ≠ none ∨ x.red.takes ≠ []
    let ready : Prop := m.state = .staged ∧ o.img.state = .staged ∧ o.img.stagedId = m.stagedId ∧ u.red.linkUp = true ∧ ¬ taking u ∧ ¬ taking o
    (u.reached 1 = true) ∧ (ready)) ∧
   (let d : DieId := .a
    let x : ImgSec := ({ idx := 0, type := 6, inst := 0, ofs := 160, addr := 0x40, body := [1, 2, 3, 4] })
    let s : State := (stg.upd .b fun d => { d with img := { d.img with stagedId := [2] } })
    let u := s.die d
    let o := s.die d.peer
    let m := u.img
    let taking (x : Die) : Prop := x.red.tk = .armed ∨ x.red.tk = .shadow ∨ x.red.tk = .waitoff ∨ x.red.handingOver ≠ none ∨ x.red.takes ≠ []
    let ready : Prop := m.state = .staged ∧ o.img.state = .staged ∧ o.img.stagedId = m.stagedId ∧ u.red.linkUp = true ∧ ¬ taking u ∧ ¬ taking o
    (u.reached 1 = true) ∧ (¬ ready)) ∧
   (let d : DieId := .a
    let x : ImgSec := ({ idx := 0, type := 6, inst := 0, ofs := 160, addr := 0x40, body := [1, 2, 3, 4] })
    let s : State := ((arm2 (fun x => { x with source := 2, cfg := { x.cfg with cluster := 0, engine := 0 } }) fun x => x).both fun d => { d with img := { d.img with state := .applying, staged := upd1, applyK := 6 } })
    let u := s.die d
    let taking (x : Die) : Prop := x.red.tk = .armed ∨ x.red.tk = .shadow ∨ x.red.tk = .waitoff ∨ x.red.handingOver ≠ none ∨ x.red.takes ≠ []
    let due : Prop := s.a.img.state = .applying ∧ s.b.img.state = .applying ∧
      (let h := if s.a.red.grant = false ∧ s.b.red.grant = true then s.b else s.a
       h.time.cyc + 1 = h.img.applyK) ∧ ¬ taking s.a ∧ ¬ taking s.b
    let own (u : Die) := imgSecs u.img.staged
    let named (u : Die) : List Nat := (own u).flatMap u.secArms
    let still (u : Die) (a : Nat) : Prop := ∀ j : Fin 128, (u.jnt j).used = true → (u.jnt j).cfg.arm = a → (u.jnt j).stopped = true ∨ ((u.jnt j).atRest = true ∧ (u.jnt j).source = 0)
    let holder := if s.a.red.grant = false ∧ s.b.red.grant = true then s.b else s.a
    (due) ∧ (∃ a ∈ named holder, ¬ still holder a)) ∧
   (let d : DieId := .a
    let x : ImgSec := ({ idx := 0, type := 6, inst := 0, ofs := 160, addr := 0x40, body := [1, 2, 3, 4] })
    let s : State := (apl [] 6)
    let u := s.die d
    let taking (x : Die) : Prop := x.red.tk = .armed ∨ x.red.tk = .shadow ∨ x.red.tk = .waitoff ∨ x.red.handingOver ≠ none ∨ x.red.takes ≠ []
    let due : Prop := s.a.img.state = .applying ∧ s.b.img.state = .applying ∧
      (let h := if s.a.red.grant = false ∧ s.b.red.grant = true then s.b else s.a
       h.time.cyc + 1 = h.img.applyK) ∧ ¬ taking s.a ∧ ¬ taking s.b
    let own (u : Die) := imgSecs u.img.staged
    (due) ∧ (own s.a = []) ∧ (own s.b = [])) ∧
   (let d : DieId := .a
    let e : Fin 80 := 0
    let x : ImgSec := ({ idx := 0, type := 6, inst := 0, ofs := 160, addr := 0x40, body := [1, 2, 3, 4] })
    let s : State := (apl upd1 6)
    let u := s.die d
    let taking (x : Die) : Prop := x.red.tk = .armed ∨ x.red.tk = .shadow ∨ x.red.tk = .waitoff ∨ x.red.handingOver ≠ none ∨ x.red.takes ≠ []
    let due : Prop := s.a.img.state = .applying ∧ s.b.img.state = .applying ∧
      (let h := if s.a.red.grant = false ∧ s.b.red.grant = true then s.b else s.a
       h.time.cyc + 1 = h.img.applyK) ∧ ¬ taking s.a ∧ ¬ taking s.b
    let own (u : Die) := imgSecs u.img.staged
    let named (u : Die) : List Nat := (own u).flatMap u.secArms
    let still (u : Die) (a : Nat) : Prop := ∀ j : Fin 128, (u.jnt j).used = true → (u.jnt j).cfg.arm = a → (u.jnt j).stopped = true ∨ ((u.jnt j).atRest = true ∧ (u.jnt j).source = 0)
    let holder := if s.a.red.grant = false ∧ s.b.red.grant = true then s.b else s.a
    (due) ∧ (∀ a ∈ named holder, still holder a) ∧ (own u = [x]) ∧ (x.type = 6) ∧ (u.holder x.inst = some e) ∧ (x.inst < 80)) ∧
   (let s : State := (apl [] 7)
    let holder := if s.a.red.grant = false ∧ s.b.red.grant = true then s.b else s.a
    (s.a.img.state ≠ .applying ∨ s.b.img.state ≠ .applying ∨ holder.time.cyc + 1 ≠ holder.img.applyK)) ∧
   (let d : DieId := .b
    let f : LoadFail := ({ rule := 493, result := 1 })
    let s : State := (stg.upd .b fun d => { d with img := { d.img with state := .running } })
    let u := s.die d
    let o := s.die d.peer
    let m := u.img
    (u.red.linkUp = true) ∧ (o.img.state = .staged) ∧ (m.state = .running) ∧ (u.pass1 o.img.staged = some f)) ∧
   (let d : DieId := .a
    let s : State := live
    let u := s.die d
    let o := s.die d.peer
    let m := u.img
    (u.red.linkUp = false ∨ o.img.state ≠ .staged ∨ m.state ≠ .running)) := by
  refine ⟨?_, ?_, ?_, ?_, ?_, ?_, ?_, ?_⟩ <;> (try dsimp only [Die.readable, Die.busReadable]) <;> decide +kernel

/-- The hypotheses of each clause of `PinResets` can be met. -/
theorem wit_PinResets :
   (let d : DieId := .a
    let s : State := (jnt5 fun x => { x with pos := 77 })
    let u := s.die d
    (u.boot.phase ≠ .reset)) ∧
   (let d : DieId := .a
    let s : State := (onA fun d => { d with boot := { d.boot with phase := .reset }, rst := { d.rst with por := true } })
    let u := s.die d
    (u.boot.phase = .reset)) ∧
   (let d : DieId := .a
    let s : State := (jnt5 fun x => { x with pos := 77 })
    let u := s.die d
    (u.boot.phase ≠ .reset)) ∧
   (let d : DieId := .a
    let s : State := (onA fun d => { d with boot := { d.boot with phase := .reset }, rst := { d.rst with wrst := true, cause := 1 } })
    let u := s.die d
    (u.boot.phase = .reset)) ∧
   (let d : DieId := .a
    let s : State := (onA fun d => { d with boot := { d.boot with phase := .reset }, rst := { d.rst with por := true } })
    let u := s.die d
    let holds (r : ResetPins) : Bool := r.por || r.wrst || vget r.low 0 || vget r.low 1 || vget r.low 2
    let porOff : ResetPins := { u.rst with por := false }
    (u.rst.por = true) ∧ (u.boot.phase = .reset) ∧ (holds porOff = false)) ∧
   (let d : DieId := .a
    let s : State := (onA fun d => { d with boot := { d.boot with phase := .reset }, rst := { d.rst with por := true, low := #v[false, true, false] } })
    let u := s.die d
    let holds (r : ResetPins) : Bool := r.por || r.wrst || vget r.low 0 || vget r.low 1 || vget r.low 2
    let porOff : ResetPins := { u.rst with por := false }
    (u.rst.por = true) ∧ (holds porOff = true)) ∧
   (let d : DieId := .a
    let s : State := (onA fun d => { d with boot := { d.boot with phase := .reset }, rst := { d.rst with wrst := true, cause := 1 } })
    let u := s.die d
    let holds (r : ResetPins) : Bool := r.por || r.wrst || vget r.low 0 || vget r.low 1 || vget r.low 2
    let wrstOff : ResetPins := { u.rst with wrst := false }
    (u.rst.wrst = true) ∧ (u.boot.phase = .reset) ∧ (holds wrstOff = false)) ∧
   (let d : DieId := .a
    let s : State := (onA fun d => { d with boot := { d.boot with phase := .reset }, rst := { d.rst with wrst := true, por := true } })
    let u := s.die d
    let holds (r : ResetPins) : Bool := r.por || r.wrst || vget r.low 0 || vget r.low 1 || vget r.low 2
    let wrstOff : ResetPins := { u.rst with wrst := false }
    (u.rst.wrst = true) ∧ (holds wrstOff = true)) ∧
   (let d : DieId := .a
    let k : Fin 3 := 1
    let s : State := (onA fun d => { d with boot := { d.boot with phase := .reset }, rst := { d.rst with low := #v[false, true, false] } })
    let u := s.die d
    let holds (r : ResetPins) : Bool := r.por || r.wrst || vget r.low 0 || vget r.low 1 || vget r.low 2
    let up : ResetPins := { u.rst with low := vset u.rst.low k false }
    (vget u.rst.low k = true) ∧ (u.boot.phase = .reset) ∧ (holds up = false)) ∧
   (let d : DieId := .a
    let k : Fin 3 := 1
    let s : State := (onA fun d => { d with boot := { d.boot with phase := .reset }, rst := { d.rst with low := #v[true, true, false] } })
    let u := s.die d
    let holds (r : ResetPins) : Bool := r.por || r.wrst || vget r.low 0 || vget r.low 1 || vget r.low 2
    let up : ResetPins := { u.rst with low := vset u.rst.low k false }
    (vget u.rst.low k = true) ∧ (holds up = true)) := by
  refine ⟨?_, ?_, ?_, ?_, ?_, ?_, ?_, ?_, ?_, ?_⟩ <;> (try dsimp only [Die.readable, Die.busReadable]) <;> decide +kernel

/-- The hypotheses of each clause of `BootSequence` can be met. -/
theorem wit_BootSequence :
   (let d : DieId := .a
    let s : State := (boo .rom fun d => d)
    let u := s.die d
    (u.boot.phase = .rom)) ∧
   (let d : DieId := .a
    let s : State := (boo .rom fun d => d)
    let u := s.die d
    (u.boot.phase = .rom) ∧ (u.boot.src = false) ∧ (readDir u.qspi.flash = none)) ∧
   (let d : DieId := .a
    let s : State := (boo .rom fun d => { d with boot := { d.boot with src := true } })
    let u := s.die d
    let fw := u.boot.fwBuf
    let len := fieldAt fw 8 4
    let pushed : Prop := 64 ≤ fw.length ∧ (len ≤ fw.length ∨ 400000 < len)
    (u.boot.phase = .rom) ∧ (u.boot.src = true) ∧ (¬ pushed)) ∧
   (let d : DieId := .a
    let s : State := (boo .rom fun d => { d with boot := { d.boot with src := true, fwBuf := List.replicate 64 0 } })
    let u := s.die d
    let fw := u.boot.fwBuf
    let len := fieldAt fw 8 4
    let pushed : Prop := 64 ≤ fw.length ∧ (len ≤ fw.length ∨ 400000 < len)
    (u.boot.phase = .rom) ∧ (u.boot.src = true) ∧ (pushed) ∧ (u.fwCheck fw ≠ 0)) ∧
   (let d : DieId := .a
    let s : State := (boo .firmware fun d => d)
    let u := s.die d
    (u.boot.phase ≠ .rom)) ∧
   (let d : DieId := .a
    let s : State := (boo .firmware fun d => { d with real := 4999999990, time := { d.time with cycRun := false } })
    let u := s.die d
    let n := u.boot.wdAt + 5000000000 - u.real
    (u.boot.phase = .firmware) ∧ (s.ticksIn n = some n)) ∧
   (let d : DieId := .a
    let s : State := (boo .firmware fun d => d)
    let u := s.die d
    let n := u.boot.wdAt + 5000000000 - u.real
    (u.boot.phase = .firmware) ∧ (s.ticksIn n = none)) ∧
   (let d : DieId := .a
    let s : State := live
    let u := s.die d
    (u.boot.phase ≠ .firmware)) ∧
   (let d : DieId := .a
    let src : Source := .keeper
    let s : State := (boo .firmware fun d => { d with boot := { d.boot with tries := 2, lastFail := 9, borPending := true } })
    let u := s.die d
    (src = .keeper) ∧ (u.boot.phase = .firmware) ∧ (u.err.fatalOwn = false) ∧ ((s.die d).reached 0 = true)) ∧
   (let d : DieId := .a
    let src : Source := .pcie
    let s : State := (boo .firmware fun d => d)
    (src ≠ .keeper) ∧ ((s.die d).reached 0 = true)) ∧
   (let d : DieId := .a
    let src : Source := .keeper
    let s : State := (boo .firmware fun d => d)
    let u := s.die d
    (src = .keeper) ∧ (u.boot.phase = .firmware) ∧ ((s.die d).reached 0 = true)) ∧
   (let d : DieId := .a
    let src : Source := .keeper
    let s : State := live
    let u := s.die d
    (src = .keeper) ∧ (u.boot.phase ≠ .firmware) ∧ ((s.die d).reached 0 = true)) ∧
   (let d : DieId := .a
    let s : State := (boo .minimal fun d => { d with boot := { d.boot with tries := 3 } })
    let u := s.die d
    (u.boot.phase = .minimal) ∧ ((s.die d).reached 0 = true)) ∧
   (let d : DieId := .a
    let s : State := live
    let u := s.die d
    (u.boot.phase ≠ .minimal) ∧ ((s.die d).reached 0 = true)) ∧
   (let d : DieId := .a
    let s : State := (boo .failed fun d => { d with boot := { d.boot with tries := 2 } })
    let u := s.die d
    (u.boot.phase = .failed)) ∧
   (let d : DieId := .a
    let s : State := live
    let u := s.die d
    (u.boot.phase ≠ .failed)) := by
  refine ⟨?_, ?_, ?_, ?_, ?_, ?_, ?_, ?_, ?_, ?_, ?_, ?_, ?_, ?_, ?_, ?_⟩ <;> (try dsimp only [Die.readable, Die.busReadable]) <;> decide +kernel

/-- The hypotheses of each clause of `SecurityCommands` can be met. -/
theorem wit_SecurityCommands :
   (let d : DieId := .a
    let s : State := live
    let u := s.die d
    let x := u.sec
    let idle : Prop := x.state = .idle
    (idle) ∧ ((s.die d).reached 1 = true)) ∧
   (let d : DieId := .a
    let s : State := (onA fun d => { d with sec := { d.sec with state := .token } })
    let u := s.die d
    let x := u.sec
    let idle : Prop := x.state = .idle
    (¬ idle) ∧ ((s.die d).reached 1 = true)) ∧
   (let d : DieId := .a
    let s : State := (onA fun d => { d with sec := { d.sec with state := .attest, leaves := some 1023, claimed := 4 } })
    let u := s.die d
    let x := u.sec
    let fresh : Bool := decide (x.leaves = none) || x.leaves.any fun q => decide (1024 ≤ q)
    let signs : Prop := x.state = .attest ∨ x.state = .claim
    (signs) ∧ (fresh = false)) ∧
   (let d : DieId := .a
    let s : State := (onA fun d => { d with sec := { d.sec with state := .claim, claimed := 4 } })
    let u := s.die d
    let x := u.sec
    let fresh : Bool := decide (x.leaves = none) || x.leaves.any fun q => decide (1024 ≤ q)
    let signs : Prop := x.state = .attest ∨ x.state = .claim
    (signs) ∧ (fresh = true) ∧ (x.claimed < 1024)) ∧
   (let d : DieId := .a
    let s : State := (onA fun d => { d with sec := { d.sec with state := .claim, claimed := 4 } })
    let u := s.die d
    let x := u.sec
    let fresh : Bool := decide (x.leaves = none) || x.leaves.any fun q => decide (1024 ≤ q)
    let signs : Prop := x.state = .attest ∨ x.state = .claim
    (signs) ∧ (fresh = true) ∧ (x.claimed < 1024)) ∧
   (let d : DieId := .a
    let s : State := (onA fun d => { d with sec := { d.sec with state := .attest, claimed := 1024 } })
    let u := s.die d
    let x := u.sec
    let fresh : Bool := decide (x.leaves = none) || x.leaves.any fun q => decide (1024 ≤ q)
    let signs : Prop := x.state = .attest ∨ x.state = .claim
    (signs) ∧ (fresh = true) ∧ (1024 ≤ x.claimed)) ∧
   (let d : DieId := .a
    let s : State := live
    let u := s.die d
    let x := u.sec
    let idle : Prop := x.state = .idle
    (idle) ∧ ((s.die d).reached 1 = true)) ∧
   (let d : DieId := .a
    let s : State := (onA fun d => { d with sec := { d.sec with state := .token } })
    let u := s.die d
    let x := u.sec
    let t := x.tokenBuf.read 0 0 5440
    (x.state = .token) ∧ (u.tokenCheck t ≠ 0)) ∧
   (let d : DieId := .a
    let s : State := live
    let u := s.die d
    let x := u.sec
    (x.state ≠ .token)) ∧
   (let d : DieId := .a
    let s : State := (onA fun d => { d with boot := { d.boot with fwSvn := 7 }, img := { d.img with svn := 6 }, sec := { d.sec with fused := 2, svnTarget := 6 } })
    let u := s.die d
    let x := u.sec
    let target := x.svnTarget.toNat
    let allowed : Prop := x.fused < target ∧ target ≤ 64 ∧ target ≤ u.boot.fwSvn.toNat ∧ target ≤ u.img.svn.toNat
    let idle : Prop := x.state = .idle
    (idle) ∧ (allowed) ∧ ((s.die d).reached 1 = true)) ∧
   (let d : DieId := .a
    let s : State := (onA fun d => { d with boot := { d.boot with fwSvn := 7 }, img := { d.img with svn := 6 }, sec := { d.sec with fused := 2, svnTarget := 7 } })
    let u := s.die d
    let x := u.sec
    let target := x.svnTarget.toNat
    let allowed : Prop := x.fused < target ∧ target ≤ 64 ∧ target ≤ u.boot.fwSvn.toNat ∧ target ≤ u.img.svn.toNat
    let idle : Prop := x.state = .idle
    (idle) ∧ (¬ allowed) ∧ ((s.die d).reached 1 = true)) ∧
   (let d : DieId := .a
    let n : Nat := 4
    let s : State := (onA fun d => { d with sec := { d.sec with state := .burn, fused := 2, svnTarget := 6 } })
    let u := s.die d
    let x := u.sec
    let target := x.svnTarget.toNat
    (x.state = .burn) ∧ (target - x.fused ≤ n)) ∧
   (let d : DieId := .a
    let n : Nat := 3
    let s : State := (onA fun d => { d with sec := { d.sec with state := .burn, fused := 2, svnTarget := 6 } })
    let u := s.die d
    let x := u.sec
    let target := x.svnTarget.toNat
    (x.state = .burn) ∧ (n < target - x.fused)) ∧
   (let d : DieId := .a
    let s : State := (onA fun d => { d with sec := { d.sec with nonInv := true, inv := true } })
    ((s.die d).reached 1 = true)) ∧
   (let d : DieId := .a
    let s : State := (onA fun d => { d with sec := { d.sec with cnt := Vector.replicate 5 7 } })
    ((s.die d).reached 1 = true)) := by
  refine ⟨?_, ?_, ?_, ?_, ?_, ?_, ?_, ?_, ?_, ?_, ?_, ?_, ?_, ?_, ?_⟩ <;> (try dsimp only [Die.readable, Die.busReadable]) <;> decide +kernel

/-- The hypotheses of each clause of `PowerDomains` can be met. -/
theorem wit_PowerDomains :
   (let d : DieId := .a
    let i : Fin 36 := 0
    let s : State := live
    let u := s.die d
    let m := vget u.pwr.doms i
    let never : Prop := i = 0 ∨ m.state = .waking ∨ m.state = .unavailable
    let noClock : Prop := domNeedsPll i = true ∧ u.clk.sel = false
    (never ∨ noClock) ∧ ((s.die d).reached 0 = true)) ∧
   (let d : DieId := .a
    let i : Fin 36 := 5
    let s : State := (dmn 5 fun m => { m with state := .unavailable })
    let u := s.die d
    let m := vget u.pwr.doms i
    let never : Prop := i = 0 ∨ m.state = .waking ∨ m.state = .unavailable
    let held : Prop := u.domInUse i = true ∨ u.domHoldsRole i = true ∨ (i = 27 ∧ u.awake domKeep = true) ∨ (i = 1 ∧ u.othersOn domKeep = true)
    (never ∨ held) ∧ ((s.die d).reached 0 = true)) ∧
   (let d : DieId := .a
    let i : Fin 36 := 5
    let s : State := (dmn 5 fun m => { m with state := .ret, resuming := true, stalled := [acc5] })
    let u := s.die d
    let m := vget u.pwr.doms i
    (m.resuming = true) ∧ (m.stalled ≠ []) ∧ ((s.die d).reached 0 = true)) ∧
   (let d : DieId := .a
    let i : Fin 36 := 5
    let s : State := live
    let u := s.die d
    let m := vget u.pwr.doms i
    let noClock : Prop := domNeedsPll i = true ∧ u.clk.sel = false
    (i ≠ 0) ∧ (¬ noClock) ∧ (m.state = .on) ∧ ((s.die d).reached 0 = true)) ∧
   (let d : DieId := .a
    let i : Fin 36 := 5
    let s : State := (dmn 5 fun m => { m with state := .off, closed := false, req := 0 })
    let u := s.die d
    let m := vget u.pwr.doms i
    let inCore : Bool := u.awake domFab && u.awake domKeep
    let noClock : Prop := domNeedsPll i = true ∧ u.clk.sel = false
    (i ≠ 0) ∧ (¬ noClock) ∧ (inCore = true) ∧ (u.pwr.lp = false) ∧ (m.state = .off) ∧ ((s.die d).reached 0 = true)) ∧
   (let d : DieId := .a
    let i : Fin 36 := 5
    let s : State := (dmn 5 fun m => { m with state := .ret, req := 1 })
    let u := s.die d
    let m := vget u.pwr.doms i
    let inCore : Bool := u.awake domFab && u.awake domKeep
    let noClock : Prop := domNeedsPll i = true ∧ u.clk.sel = false
    (i ≠ 0) ∧ (¬ noClock) ∧ (inCore = true) ∧ (u.pwr.lp = false) ∧ (m.state = .ret) ∧ ((s.die d).reached 0 = true)) ∧
   (let d : DieId := .a
    let i : Fin 36 := 32
    let s : State := (irc fun d => { d with pwr := { d.pwr with doms := Vector.replicate 36 {}, lp := true, lpReq := true }, clk := {} })
    let u := s.die d
    let m := vget u.pwr.doms i
    let noClock : Prop := domNeedsPll i = true ∧ u.clk.sel = false
    let fab := vget u.pwr.doms 27
    let keep := vget u.pwr.doms 1
    (i ≠ 0) ∧ (i ≠ 1) ∧ (i ≠ 27) ∧ (¬ noClock) ∧ (u.pwr.wakeQueue = []) ∧ (fab.state = .off) ∧ (keep.state = .off) ∧ (m.state = .off) ∧ (fab.resuming = false ∧ keep.resuming = false ∧ m.resuming = false) ∧ ((s.die d).reached 0 = true)) ∧
   (let d : DieId := .a
    let i : Fin 36 := 5
    let s : State := live
    let u := s.die d
    let m := vget u.pwr.doms i
    let never : Prop := i = 0 ∨ m.state = .waking ∨ m.state = .unavailable
    let held : Prop := u.domInUse i = true ∨ u.domHoldsRole i = true ∨ (i = 27 ∧ u.awake domKeep = true) ∨ (i = 1 ∧ u.othersOn domKeep = true)
    (¬ never) ∧ (¬ held) ∧ (m.state = .on) ∧ (i ≠ 1) ∧ (i ≠ 26) ∧ (i ≠ 32) ∧ ((s.die d).reached 0 = true)) ∧
   (let d : DieId := .a
    let i : Fin 36 := 26
    let s : State := (sep1 fun x => x)
    let u := s.die d
    let m := vget u.pwr.doms i
    let held : Prop := u.domInUse i = true ∨ u.domHoldsRole i = true ∨ (i = 27 ∧ u.awake domKeep = true) ∨ (i = 1 ∧ u.othersOn domKeep = true)
    (i = 26) ∧ (¬ held) ∧ (m.state = .on) ∧ ((s.die d).reached 0 = true)) ∧
   (let d : DieId := .a
    let i : Fin 36 := 32
    let s : State := live
    let u := s.die d
    let m := vget u.pwr.doms i
    let held : Prop := u.domInUse i = true ∨ u.domHoldsRole i = true ∨ (i = 27 ∧ u.awake domKeep = true) ∨ (i = 1 ∧ u.othersOn domKeep = true)
    (i = 32) ∧ (¬ held) ∧ (m.state = .on) ∧ ((s.die d).reached 0 = true)) ∧
   (let d : DieId := .a
    let i : Fin 36 := 1
    let s : State := (irc fun d => { d with sec := { d.sec with leaves := some 0 } })
    let u := s.die d
    let m := vget u.pwr.doms i
    let never : Prop := i = 0 ∨ m.state = .waking ∨ m.state = .unavailable
    let held : Prop := u.domInUse i = true ∨ u.domHoldsRole i = true ∨ (i = 27 ∧ u.awake domKeep = true) ∨ (i = 1 ∧ u.othersOn domKeep = true)
    (i = 1) ∧ (¬ never) ∧ (¬ held) ∧ (m.state = .on) ∧ ((s.die d).reached 0 = true)) ∧
   (let d : DieId := .a
    let i : Fin 36 := 1
    let s : State := (irc fun d => d)
    let u := s.die d
    let m := vget u.pwr.doms i
    let never : Prop := i = 0 ∨ m.state = .waking ∨ m.state = .unavailable
    let held : Prop := u.domInUse i = true ∨ u.domHoldsRole i = true ∨ (i = 27 ∧ u.awake domKeep = true) ∨ (i = 1 ∧ u.othersOn domKeep = true)
    let fab := vget u.pwr.doms 27
    (i = 1) ∧ (¬ never) ∧ (¬ held) ∧ (m.state = .on) ∧ (fab.state = .on) ∧ ((s.die d).reached 0 = true)) ∧
   (let d : DieId := .a
    let i : Fin 36 := 5
    let s : State := live
    let u := s.die d
    let m := vget u.pwr.doms i
    let never : Prop := i = 0 ∨ m.state = .waking ∨ m.state = .unavailable
    let held : Prop := u.domInUse i = true ∨ u.domHoldsRole i = true ∨ (i = 27 ∧ u.awake domKeep = true) ∨ (i = 1 ∧ u.othersOn domKeep = true)
    (¬ never) ∧ (¬ held) ∧ (m.resuming = false ∨ m.stalled = []) ∧ (m.state = .on ∨ m.state = .ret) ∧ (i ≠ 1) ∧ ((s.die d).reached 0 = true)) ∧
   (let d : DieId := .a
    let i : Fin 36 := 5
    let s : State := (dmn 5 fun m => { m with state := .off })
    let u := s.die d
    let m := vget u.pwr.doms i
    let held : Prop := u.domInUse i = true ∨ u.domHoldsRole i = true ∨ (i = 27 ∧ u.awake domKeep = true) ∨ (i = 1 ∧ u.othersOn domKeep = true)
    (i ≠ 0) ∧ (¬ held) ∧ (m.state = .off) ∧ (m.resuming = false) ∧ ((s.die d).reached 0 = true)) ∧
   (let d : DieId := .a
    let i : Fin 36 := 5
    let s : State := (wkg 5)
    let u := s.die d
    let m := vget u.pwr.doms i
    (i ≠ 0) ∧ (u.boot.phase ≠ .starting) ∧ (u.img.state = .empty) ∧ (u.pwr.wakeQueue = []) ∧ (m.state = .waking) ∧ (m.closed = true)) ∧
   (let d : DieId := .a
    let i : Fin 36 := 5
    let s : State := live
    let u := s.die d
    let m := vget u.pwr.doms i
    (u.boot.phase ≠ .starting) ∧ (¬ (m.state = .waking ∧ m.closed = true))) ∧
   (let d : DieId := .a
    let i : Fin 36 := 5
    let ticks : Nat := 50
    let s : State := ((dmn 5 fun m => { m with state := .waking, closed := true, attempts := 3 }).upd .a fun d => { d with real := 499950 })
    let u := s.die d
    let m := vget u.pwr.doms i
    (s.ticksTo d (Die.dueWakeTimeout i) = some ticks) ∧ (i ≠ 0) ∧ (m.state = .waking) ∧ (m.closed = true) ∧ (m.attempts.toNat < 4)) ∧
   (let d : DieId := .a
    let i : Fin 36 := 5
    let ticks : Nat := 50
    let s : State := ((dmn 5 fun m => { m with state := .waking, closed := true, attempts := 4 }).upd .a fun d => { d with real := 499950 })
    let u := s.die d
    let m := vget u.pwr.doms i
    (s.ticksTo d (Die.dueWakeTimeout i) = some ticks) ∧ (i ≠ 0) ∧ (i ≠ 1) ∧ (i ≠ 27) ∧ (i ≠ 32 ∨ u.boot.src = false) ∧ (m.state = .waking) ∧ (m.closed = true) ∧ (4 ≤ m.attempts.toNat)) ∧
   (let d : DieId := .a
    let i : Fin 36 := 27
    let ticks : Nat := 50
    let s : State := (((boo .starting fun d => d).upd .a fun d => d.updDom 27 fun m => { m with state := .waking, closed := true, attempts := 4 }).upd .a fun d => { d with real := 499950 })
    let u := s.die d
    let m := vget u.pwr.doms i
    (s.ticksTo d (Die.dueWakeTimeout i) = some ticks) ∧ (i = 1 ∨ i = 27) ∧ (u.boot.phase = .starting) ∧ (m.state = .waking) ∧ (m.closed = true) ∧ (4 ≤ m.attempts.toNat)) ∧
   (let d : DieId := .a
    let i : Fin 36 := 32
    let ticks : Nat := 50
    let s : State := (((boo .firmware fun d => { d with boot := { d.boot with src := true } }).upd .a fun d => d.updDom 32 fun m => { m with state := .waking, closed := true, attempts := 4 }).upd .a fun d => { d with real := 499950 })
    let u := s.die d
    let m := vget u.pwr.doms i
    (s.ticksTo d (Die.dueWakeTimeout i) = some ticks) ∧ (i = 32) ∧ (u.boot.src = true) ∧ (u.boot.phase = .firmware) ∧ (m.state = .waking) ∧ (m.closed = true) ∧ (4 ≤ m.attempts.toNat)) ∧
   (let d : DieId := .a
    let i : Fin 36 := 0
    let ticks : Nat := 0
    let s : State := (boo .starting fun d => d)
    let u := s.die d
    (s.ticksTo d (Die.dueWakeTimeout i) = some ticks) ∧ (i = 0) ∧ (u.boot.phase = .starting)) ∧
   (let d : DieId := .a
    let i : Fin 36 := 5
    let s : State := live
    let u := s.die d
    let m := vget u.pwr.doms i
    (i ≠ 0) ∧ (¬ (m.state = .waking ∧ m.closed = true))) ∧
   (let d : DieId := .a
    let i : Fin 36 := 5
    let ticks : Nat := 50
    let s : State := ((dmn 5 fun m => { m with state := .waking, closed := false, attempts := 2 }).upd .a fun d => { d with real := 24950 })
    let u := s.die d
    let m := vget u.pwr.doms i
    (s.ticksTo d (Die.dueWakeRetry i) = some ticks) ∧ (m.state = .waking) ∧ (m.closed = false)) ∧
   (let d : DieId := .a
    let i : Fin 36 := 5
    let s : State := live
    let u := s.die d
    let m := vget u.pwr.doms i
    (¬ (m.state = .waking ∧ m.closed = false))) ∧
   (let d : DieId := .a
    let i : Fin 36 := 5
    let s : State := (dmn 5 fun m => { m with state := .ret, resuming := true })
    let u := s.die d
    let m := vget u.pwr.doms i
    (m.state = .ret) ∧ (m.resuming = true) ∧ (m.stalled = []) ∧ (u.pwr.wakeQueue = []) ∧ (i ≠ 26) ∧ (i ≠ 32)) ∧
   (let d : DieId := .a
    let i : Fin 36 := 5
    let a : Stalled := acc5
    let s : State := (dmn 5 fun m => { m with state := .ret, resuming := true, stalled := [acc5] })
    let u := s.die d
    let m := vget u.pwr.doms i
    let off := a.addr.toNat
    let n := accessLen a.len a.data
    (a.src = .pcie) ∧ (a.initiator = .pcie) ∧ (a.bar2 = true) ∧ (a.data = none) ∧ (2 ≤ i.val ∧ i.val ≤ 17 ∧ n = 8 ∧ off % 8 = 0 ∧ bar2Dom off = some i.val) ∧ (u.eccBad = []) ∧ (m.state = .ret) ∧ (m.resuming = true) ∧ (m.stalled = [a]) ∧ (u.pwr.wakeQueue = [])) ∧
   (let d : DieId := .a
    let i : Fin 36 := 5
    let s : State := live
    let u := s.die d
    let m := vget u.pwr.doms i
    (¬ (m.state = .ret ∧ m.resuming = true)) ∧ (m.state ≠ .on ∨ (m.stalled = [] ∧ i ≠ 26 ∧ i ≠ 32))) ∧
   (let d : DieId := .a
    let i : Fin 36 := 5
    let s : State := (dmn 5 fun m => { m with state := .off })
    let u := s.die d
    let m := vget u.pwr.doms i
    let noClock : Prop := domNeedsPll i = true ∧ u.clk.sel = false
    (i ≠ 0) ∧ (m.state ≠ .on) ∧ (u.pwr.logValid = false) ∧ (m.state ≠ .ret ∨ m.woa = false ∨ noClock)) ∧
   (let d : DieId := .a
    let i : Fin 36 := 5
    let s : State := ((dmn 5 fun m => { m with state := .off }).upd .a fun d => { d with pwr := { d.pwr with logValid := true } })
    let u := s.die d
    let m := vget u.pwr.doms i
    let noClock : Prop := domNeedsPll i = true ∧ u.clk.sel = false
    (i ≠ 0) ∧ (m.state ≠ .on) ∧ (u.pwr.logValid = true) ∧ (m.state ≠ .ret ∨ m.woa = false ∨ noClock)) ∧
   (let d : DieId := .a
    let i : Fin 36 := 0
    let s : State := live
    let u := s.die d
    let m := vget u.pwr.doms i
    let noClock : Prop := domNeedsPll i = true ∧ u.clk.sel = false
    (i = 0 ∨ m.state = .on ∨ (m.state = .ret ∧ m.woa = true ∧ ¬ noClock))) ∧
   (let d : DieId := .a
    let i : Fin 36 := 5
    let a : Stalled := acc5
    let s : State := (dmn 5 fun m => { m with state := .ret, woa := true })
    let u := s.die d
    let m := vget u.pwr.doms i
    let inCore : Bool := u.awake domFab && u.awake domKeep
    let noClock : Prop := domNeedsPll i = true ∧ u.clk.sel = false
    let off := a.addr.toNat
    let n := accessLen a.len a.data
    (a.src = .pcie) ∧ (a.initiator = .pcie) ∧ (a.bar2 = true) ∧ (a.chan = 0) ∧ (1 ≤ n ∧ off % 8 + n ≤ 8 ∧ bar2Dom (off / 8 * 8) = some i.val) ∧ (u.fwRun = true ∧ u.host.perst = false ∧ u.awake domPcie = true ∧ inCore = true ∧ u.pwr.lp = false) ∧ (m.state = .ret) ∧ (m.woa = true) ∧ (¬ noClock)) ∧
   (let d : DieId := .a
    let i : Fin 36 := 5
    let a : Stalled := acc5
    let later : List Stalled := [acc5]
    let ticks : Nat := 50
    let s : State := ((dmn 5 fun m => { m with state := .ret, resuming := true, stalled := [acc5, acc5] }).upd .a fun d => { d with real := 12450 })
    let u := s.die d
    let m := vget u.pwr.doms i
    (s.ticksTo d (Die.dueWoa i) = some ticks) ∧ (m.stalled = a :: later) ∧ (a.src = .pcie) ∧ (a.initiator = .pcie) ∧ (i ≠ 0) ∧ (m.state ≠ .on) ∧ (u.pwr.logValid = false)) ∧
   (let d : DieId := .a
    let i : Fin 36 := 5
    let s : State := live
    let u := s.die d
    let m := vget u.pwr.doms i
    (m.stalled = [])) := by
  refine ⟨?_, ?_, ?_, ?_, ?_, ?_, ?_, ?_, ?_, ?_, ?_, ?_, ?_, ?_, ?_, ?_, ?_, ?_, ?_, ?_, ?_, ?_, ?_, ?_, ?_, ?_, ?_, ?_, ?_, ?_, ?_, ?_, ?_⟩ <;> (try dsimp only [Die.readable, Die.busReadable]) <;> decide +kernel

/-- The hypotheses of each clause of `PowerAndClocks` can be met. -/
theorem wit_PowerAndClocks :
   (let d : DieId := .a
    let s : State := (irc fun d => { d with pwr := { d.pwr with doms := vmap d.pwr.doms fun _ m => { m with state := .ret } } })
    let u := s.die d
    let p := u.pwr
    let parked : Prop := ∀ i : Fin 36, i ≠ 0 → ((vget p.doms i).state = .off ∨ (vget p.doms i).state = .ret) ∧ (vget p.doms i).resuming = false
    (p.lp = false) ∧ (parked) ∧ ((s.die d).reached 0 = true)) ∧
   (let d : DieId := .a
    let s : State := (irc fun d => d)
    let u := s.die d
    let p := u.pwr
    let parked : Prop := ∀ i : Fin 36, i ≠ 0 → ((vget p.doms i).state = .off ∨ (vget p.doms i).state = .ret) ∧ (vget p.doms i).resuming = false
    (p.lp = false) ∧ (¬ parked) ∧ ((s.die d).reached 0 = true)) ∧
   (let d : DieId := .a
    let s : State := (irc fun d => { d with pwr := { d.pwr with lp := true } })
    let u := s.die d
    let p := u.pwr
    (p.lp = true) ∧ ((s.die d).reached 0 = true)) ∧
   (let d : DieId := .a
    let s : State := (onA fun d => { d with pwr := { d.pwr with logAddr := 5, logDom := 6, logInit := 2, logValid := true } })
    ((s.die d).reached 0 = true)) ∧
   (let d : DieId := .a
    let s : State := (onA fun d => { d with pwr := { d.pwr with cnt := Vector.replicate 4 7 } })
    ((s.die d).reached 0 = true)) ∧
   (let d : DieId := .a
    let b : BitVec 8 := 0xC1
    let s : State := (irc fun d => { d with clk := {}, host := { d.host with smbAddr := 0x60 }, pwr := { d.pwr with lp := true, lpReq := true } })
    let u := s.die d
    let p := u.pwr
    (p.lp = true) ∧ (b.extractLsb' 1 7 = u.host.smbAddr)) ∧
   (let d : DieId := .a
    let b : BitVec 8 := 0xC4
    let s : State := (irc fun d => { d with clk := {}, host := { d.host with smbAddr := 0x60 }, pwr := { d.pwr with lp := true, lpReq := true } })
    let u := s.die d
    let p := u.pwr
    (p.lp = false ∨ b.extractLsb' 1 7 ≠ u.host.smbAddr)) ∧
   (let d : DieId := .a
    let s : State := (irc fun d => d)
    let u := s.die d
    let c := u.clk
    (c.pllRunning = false) ∧ ((s.die d).reached 0 = true)) ∧
   (let d : DieId := .a
    let s : State := live
    let u := s.die d
    let c := u.clk
    (c.pllRunning = true) ∧ ((s.die d).reached 0 = true)) ∧
   (let d : DieId := .a
    let s : State := live
    ((s.die d).reached 0 = true)) ∧
   (let d : DieId := .a
    let s : State := (irc fun d => { d with clk := { d.clk with pllRunning := true } })
    let u := s.die d
    let c := u.clk
    (c.pllRunning = true)) ∧
   (let d : DieId := .a
    let s : State := (irc fun d => d)
    let u := s.die d
    let c := u.clk
    (c.pllRunning = false)) ∧
   (let d : DieId := .a
    let s : State := (irc fun d => { d with real := 499990, clk := { d.clk with pllEn := true, pllRunning := true, attempts := 3 } })
    let u := s.die d
    let c := u.clk
    let n := c.since + 500000 - u.real
    (s.ticksIn n = some n) ∧ (c.pllRunning = true) ∧ (c.lock = false) ∧ (c.attempts.toNat < 4)) ∧
   (let d : DieId := .a
    let s : State := (irc fun d => { d with real := 499990, boot := { d.boot with phase := .firmware, tries := 1 }, clk := { d.clk with pllEn := true, pllRunning := true, attempts := 4 } })
    let u := s.die d
    let c := u.clk
    let n := c.since + 500000 - u.real
    (s.ticksIn n = some n) ∧ (c.pllRunning = true) ∧ (c.lock = false) ∧ (4 ≤ c.attempts.toNat)) ∧
   (let d : DieId := .a
    let s : State := live
    let u := s.die d
    let c := u.clk
    let n := c.since + 500000 - u.real
    (c.pllRunning = false ∨ c.lock = true ∨ s.ticksIn n = none)) ∧
   (let d : DieId := .a
    let s : State := (irc fun d => { d with real := 24990, clk := { d.clk with pllEn := true, attempts := 3 } })
    let u := s.die d
    let c := u.clk
    let m := c.since + 25000 - u.real
    (s.ticksIn m = some m) ∧ (c.pllRunning = false) ∧ (c.pllEn = true) ∧ (c.pllFail = false) ∧ (0 < c.attempts.toNat ∧ c.attempts.toNat < 4)) ∧
   (let d : DieId := .a
    let s : State := live
    let u := s.die d
    let c := u.clk
    let m := c.since + 25000 - u.real
    (c.pllRunning = true ∨ c.pllEn = false ∨ s.ticksIn m = none)) ∧
   (let d : DieId := .a
    let s : State := (irc fun d => { d with clk := { d.clk with pllEn := true, pllRunning := true, lock := true } })
    let u := s.die d
    let c := u.clk
    (c.lock = true) ∧ (c.sel = false) ∧ ((s.die d).reached 0 = true)) ∧
   (let d : DieId := .a
    let s : State := (irc fun d => { d with clk := { d.clk with pllEn := true, pllRunning := true } })
    let u := s.die d
    let c := u.clk
    (c.lock = false) ∧ ((s.die d).reached 0 = true)) ∧
   (let d : DieId := .a
    let s : State := live
    let u := s.die d
    let c := u.clk
    (c.lock = true) ∧ (c.sel = true) ∧ ((s.die d).reached 0 = true)) ∧
   (let d : DieId := .a
    let s : State := live
    let u := s.die d
    let user : Prop := ∃ i : Fin 36, domNeedsPll i = true ∧ u.awake i = true
    (user) ∧ ((s.die d).reached 0 = true)) ∧
   (let d : DieId := .a
    let s : State := (irc fun d => { d with clk := { d.clk with sel := true, lock := true } })
    let u := s.die d
    let user : Prop := ∃ i : Fin 36, domNeedsPll i = true ∧ u.awake i = true
    (¬ user) ∧ ((s.die d).reached 0 = true)) ∧
   (let d : DieId := .a
    let s : State := live
    let u := s.die d
    let c := u.clk
    (c.sel = true)) ∧
   (let d : DieId := .a
    let s : State := (irc fun d => d)
    let u := s.die d
    let c := u.clk
    (c.sel = false)) := by
  refine ⟨?_, ?_, ?_, ?_, ?_, ?_, ?_, ?_, ?_, ?_, ?_, ?_, ?_, ?_, ?_, ?_, ?_, ?_, ?_, ?_, ?_, ?_, ?_, ?_⟩ <;> (try dsimp only [Die.readable, Die.busReadable]) <;> decide +kernel

/-- The hypotheses of each clause of `HostAccess` can be met. -/
theorem wit_HostAccess :
   (let d : DieId := .a
    let src : Source := .pcie
    let off : BitVec 32 := 0x20
    let v : BitVec 32 := 300
    let s : State := live
    let u := s.die d
    let up : Prop := u.awake domPcie = true ∧ u.awake domFab = true ∧ u.host.perst = false
    let byHost : Prop := up ∧ (src = .pcie ∧ u.fwRun = true ∨ src = .pcieRecovery)
    let o := off.toNat
    let us : BitVec 10 := v.extractLsb' 0 10
    (byHost) ∧ (o = 0x20) ∧ (us.toNat ≤ 1000)) ∧
   (let d : DieId := .a
    let src : Source := .pcie
    let off : BitVec 32 := 0x20
    let v : BitVec 32 := 1001
    let s : State := live
    let u := s.die d
    let up : Prop := u.awake domPcie = true ∧ u.awake domFab = true ∧ u.host.perst = false
    let byHost : Prop := up ∧ (src = .pcie ∧ u.fwRun = true ∨ src = .pcieRecovery)
    let o := off.toNat
    let us : BitVec 10 := v.extractLsb' 0 10
    (byHost) ∧ (o = 0x20) ∧ (1000 < us.toNat)) ∧
   (let d : DieId := .a
    let src : Source := .pcie
    let off : BitVec 32 := 0x24
    let s : State := (hst fun h => { h with noLink := true, timeout := true, unmapped := true, badAccess := true })
    let u := s.die d
    let up : Prop := u.awake domPcie = true ∧ u.awake domFab = true ∧ u.host.perst = false
    let byHost : Prop := up ∧ (src = .pcie ∧ u.fwRun = true ∨ src = .pcieRecovery)
    let o := off.toNat
    (byHost) ∧ (o = 0x24)) ∧
   (let d : DieId := .a
    let src : Source := .pcie
    let off : BitVec 32 := 0x3000
    let v : BitVec 32 := 0xFDA3
    let s : State := live
    let u := s.die d
    let up : Prop := u.awake domPcie = true ∧ u.awake domFab = true ∧ u.host.perst = false
    let byHost : Prop := up ∧ (src = .pcie ∧ u.fwRun = true ∨ src = .pcieRecovery)
    let o := off.toNat
    (byHost) ∧ (o = 0x3000) ∧ (u.awake domKeep = true) ∧ (v.extractLsb' 4 2 ≠ 3#2)) ∧
   (let d : DieId := .a
    let src : Source := .pcie
    let off : BitVec 32 := 0x4090
    let v : BitVec 32 := 16777216
    let s : State := live
    let u := s.die d
    let up : Prop := u.awake domPcie = true ∧ u.awake domFab = true ∧ u.host.perst = false
    let byHost : Prop := up ∧ (src = .pcie ∧ u.fwRun = true ∨ src = .pcieRecovery)
    let o := off.toNat
    (byHost) ∧ (o = 0x4090) ∧ ((vget u.dma 2).busy = false) ∧ ((v.extractLsb' 0 25).toNat ≤ 16777216)) ∧
   (let d : DieId := .a
    let src : Source := .pcie
    let be : BitVec 4 := 7
    let s : State := live
    let u := s.die d
    let up : Prop := u.awake domPcie = true ∧ u.awake domFab = true ∧ u.host.perst = false
    let byHost : Prop := up ∧ (src = .pcie ∧ u.fwRun = true ∨ src = .pcieRecovery)
    (byHost) ∧ (be ≠ 0xF)) ∧
   (let d : DieId := .a
    let src : Source := .pcie
    let off : BitVec 32 := 0x30
    let s : State := live
    let u := s.die d
    let up : Prop := u.awake domPcie = true ∧ u.awake domFab = true ∧ u.host.perst = false
    let byHost : Prop := up ∧ (src = .pcie ∧ u.fwRun = true ∨ src = .pcieRecovery)
    let o := off.toNat
    (byHost) ∧ (o = 0x30)) ∧
   (let d : DieId := .a
    let src : Source := .pcie
    let off : BitVec 32 := 0x712344
    let s : State := live
    let u := s.die d
    let up : Prop := u.awake domPcie = true ∧ u.awake domFab = true ∧ u.host.perst = false
    let serves : Prop := up ∧ u.fwRun = true
    let o := off.toNat
    (serves) ∧ (src = .pcie) ∧ (0x700000 ≤ o ∧ o < 0x800000) ∧ (o % 4 = 0)) ∧
   (let d : DieId := .a
    let src : Source := .pcie
    let off : BitVec 32 := 0x2000000
    let s : State := ((dmn 26 fun m => { m with state := .off }).upd .a fun d => { d with pwr := { d.pwr with logValid := true } })
    let u := s.die d
    let up : Prop := u.awake domPcie = true ∧ u.awake domFab = true ∧ u.host.perst = false
    let serves : Prop := up ∧ u.fwRun = true
    let o := off.toNat
    (serves) ∧ (src = .pcie) ∧ (o = 0x2000000) ∧ (u.pwr.logValid = true) ∧ ((vget u.pwr.doms 26).state = .off)) ∧
   (let d : DieId := .a
    let src : Source := .pcie
    let s : State := (boo .minimal fun d => d)
    let u := s.die d
    let up : Prop := u.awake domPcie = true ∧ u.awake domFab = true ∧ u.host.perst = false
    (src = .pcie) ∧ (up) ∧ (u.fwRun = false)) ∧
   (let d : DieId := .a
    let src : Source := .pcie
    let s : State := (hst fun h => { h with perst := true })
    let u := s.die d
    (src = .pcie) ∧ (u.host.perst = true)) ∧
   (let d : DieId := .a
    let off : BitVec 32 := 0x2040A3C
    let data : List (BitVec 8) := [1, 2, 3, 4, 5, 6, 7, 8, 9]
    let s : State := ((onA fun d => { d with sec := { d.sec with inv := true } }))
    let u := s.die d
    let up : Prop := u.awake domPcie = true ∧ u.awake domFab = true ∧ u.host.perst = false
    let serves : Prop := up ∧ u.fwRun = true
    let o := off.toNat
    let plain (k : Nat) : Prop := ∀ w ∈ wordsOf o k, (bar2Dom w).map (fun i => u.awake i) = some true
    let free (k : Nat) : Prop := ∀ w ∈ wordsOf o k, (bar2Locked w = false ∨ u.sec.inv = true) ∧ u.solveReads w = false
    (serves) ∧ (plain data.length) ∧ (free data.length) ∧ (u.eccBad = [])) ∧
   (let d : DieId := .a
    let off : BitVec 32 := 0x123
    let n : Nat := 12
    let s : State := (onA fun d => { d with sram := ⟨[(0x125, 7)]⟩ })
    let u := s.die d
    let up : Prop := u.awake domPcie = true ∧ u.awake domFab = true ∧ u.host.perst = false
    let serves : Prop := up ∧ u.fwRun = true
    let o := off.toNat
    let plain (k : Nat) : Prop := ∀ w ∈ wordsOf o k, (bar2Dom w).map (fun i => u.awake i) = some true
    (serves) ∧ (plain n) ∧ (u.eccBad = [])) ∧
   (let d : DieId := .a
    let off : BitVec 32 := 0x120
    let n : Nat := 8
    let s : State := (onA fun d => { d with eccBad := [0x120], sram := ⟨[(0x125, 7)]⟩ })
    let u := s.die d
    let up : Prop := u.awake domPcie = true ∧ u.awake domFab = true ∧ u.host.perst = false
    let serves : Prop := up ∧ u.fwRun = true
    let o := off.toNat
    let plain (k : Nat) : Prop := ∀ w ∈ wordsOf o k, (bar2Dom w).map (fun i => u.awake i) = some true
    (serves) ∧ (plain n) ∧ (n = 8) ∧ (o % 8 = 0) ∧ (o ∈ u.eccBad)) ∧
   (let d : DieId := .a
    let off : BitVec 32 := 0x120
    let data : List (BitVec 8) := [1, 2]
    let s : State := (onA fun d => { d with eccBad := [0x120] })
    let u := s.die d
    let up : Prop := u.awake domPcie = true ∧ u.awake domFab = true ∧ u.host.perst = false
    let serves : Prop := up ∧ u.fwRun = true
    let o := off.toNat
    let plain (k : Nat) : Prop := ∀ w ∈ wordsOf o k, (bar2Dom w).map (fun i => u.awake i) = some true
    (serves) ∧ (plain data.length) ∧ (data ≠ [] ∧ data.length ≤ 8 ∧ o % 8 = 0) ∧ (bar2Locked o = true ∧ u.sec.inv = false ∨ data.length < 8 ∧ o ∈ u.eccBad)) ∧
   (let d : DieId := .a
    let off : BitVec 32 := 0x1804000
    let data : List (BitVec 8) := [1, 2, 3, 4, 5, 6, 7, 8]
    let s : State := solving
    let u := s.die d
    let up : Prop := u.awake domPcie = true ∧ u.awake domFab = true ∧ u.host.perst = false
    let serves : Prop := up ∧ u.fwRun = true
    let o := off.toNat
    let plain (k : Nat) : Prop := ∀ w ∈ wordsOf o k, (bar2Dom w).map (fun i => u.awake i) = some true
    (serves) ∧ (plain data.length) ∧ (data.length = 8 ∧ o % 8 = 0) ∧ (u.solveReads o = true)) ∧
   (let d : DieId := .a
    let off : BitVec 32 := 0x700000
    let n : Nat := 8
    let s : State := live
    let u := s.die d
    let up : Prop := u.awake domPcie = true ∧ u.awake domFab = true ∧ u.host.perst = false
    let serves : Prop := up ∧ u.fwRun = true
    let o := off.toNat
    (serves) ∧ (bar2Dom o = none) ∧ (n = 8) ∧ (o % 8 = 0)) ∧
   (let d : DieId := .a
    let s : State := (boo .minimal fun d => d)
    let u := s.die d
    let up : Prop := u.awake domPcie = true ∧ u.awake domFab = true ∧ u.host.perst = false
    (up) ∧ (u.fwRun = false)) ∧
   (let d : DieId := .a
    let off : BitVec 32 := 0x20
    let v : BitVec 32 := 300
    let s : State := live
    let u := s.die d
    let p := s.die d.peer
    let up : Prop := u.awake domPcie = true ∧ u.awake domFab = true ∧ u.host.perst = false
    let serves : Prop := up ∧ u.fwRun = true
    let o := off.toNat
    let local' : Prop := u.red.grant = true ∧ (d = .a ∨ p.red.grant = false)
    let us : BitVec 10 := v.extractLsb' 0 10
    (serves) ∧ (local') ∧ (o = 0x20) ∧ (u.host.held = []) ∧ (us.toNat ≤ 1000)) ∧
   (let d : DieId := .a
    let off : BitVec 32 := 0x20
    let s : State := live
    let u := s.die d
    let p := s.die d.peer
    let up : Prop := u.awake domPcie = true ∧ u.awake domFab = true ∧ u.host.perst = false
    let serves : Prop := up ∧ u.fwRun = true
    let o := off.toNat
    let local' : Prop := u.red.grant = true ∧ (d = .a ∨ p.red.grant = false)
    (serves) ∧ (local') ∧ (o = 0x20) ∧ (u.host.held = [])) ∧
   (let d : DieId := .b
    let off : BitVec 32 := 0x20
    let v : BitVec 32 := 300
    let s : State := live
    let u := s.die d
    let p := s.die d.peer
    let up : Prop := u.awake domPcie = true ∧ u.awake domFab = true ∧ u.host.perst = false
    let serves : Prop := up ∧ u.fwRun = true
    let o := off.toNat
    let far : Prop := u.red.grant = false ∧ p.red.grant = true
    let us : BitVec 10 := v.extractLsb' 0 10
    (serves) ∧ (far) ∧ (u.red.linkUp = true) ∧ (o = 0x20) ∧ (u.host.held = []) ∧ (us.toNat ≤ 1000) ∧ (p.awake domFab = true)) ∧
   (let d : DieId := .b
    let off : BitVec 32 := 0x20
    let s : State := live
    let u := s.die d
    let p := s.die d.peer
    let up : Prop := u.awake domPcie = true ∧ u.awake domFab = true ∧ u.host.perst = false
    let serves : Prop := up ∧ u.fwRun = true
    let o := off.toNat
    let far : Prop := u.red.grant = false ∧ p.red.grant = true
    (serves) ∧ (far) ∧ (u.red.linkUp = true) ∧ (o = 0x20) ∧ (u.host.held = [])) ∧
   (let d : DieId := .a
    let off : BitVec 32 := 0x20
    let s : State := (nobody fun h => { h with held := [cvw] })
    let u := s.die d
    let p := s.die d.peer
    let up : Prop := u.awake domPcie = true ∧ u.awake domFab = true ∧ u.host.perst = false
    let serves : Prop := up ∧ u.fwRun = true
    let o := off.toNat
    let none' : Prop := u.red.grant = false ∧ p.red.grant = false
    (serves) ∧ (none') ∧ (o = 0x20)) ∧
   (let d : DieId := .b
    let off : BitVec 32 := 0x20
    let s : State := (live.upd .b fun d => { d with red := { d.red with linkUp := false } })
    let u := s.die d
    let p := s.die d.peer
    let up : Prop := u.awake domPcie = true ∧ u.awake domFab = true ∧ u.host.perst = false
    let serves : Prop := up ∧ u.fwRun = true
    let o := off.toNat
    let far : Prop := u.red.grant = false ∧ p.red.grant = true
    (serves) ∧ (far) ∧ (u.red.linkUp = false) ∧ (o = 0x20) ∧ (u.host.held = [])) ∧
   (let d : DieId := .a
    let off : BitVec 32 := 0xE00000
    let s : State := live
    let u := s.die d
    let up : Prop := u.awake domPcie = true ∧ u.awake domFab = true ∧ u.host.perst = false
    let serves : Prop := up ∧ u.fwRun = true
    let o := off.toNat
    (serves) ∧ (cellMap o = none)) ∧
   (let d : DieId := .a
    let off : BitVec 32 := 0x20
    let v : BitVec 32 := 300
    let data : List (BitVec 8) := [1, 2, 3, 4, 5, 6, 7, 8, 9]
    let a : CvAccess := cvw
    let later : List CvAccess := [cvr]
    let s : State := (hst fun h => { h with held := [cvw, cvr] })
    let u := s.die d
    let p := s.die d.peer
    let local' : Prop := u.red.grant = true ∧ (d = .a ∨ p.red.grant = false)
    let us : BitVec 10 := v.extractLsb' 0 10
    (local') ∧ (u.awake domFab = true) ∧ (u.host.held = a :: later) ∧ (a = { off := 0x20, data := some v }) ∧ (us.toNat ≤ 1000)) ∧
   (let d : DieId := .a
    let s : State := (nobody fun h => { h with held := [cvw, cvr] })
    let u := s.die d
    let p := s.die d.peer
    let none' : Prop := u.red.grant = false ∧ p.red.grant = false
    (none' ∨ u.host.held = [])) ∧
   (let d : DieId := .a
    let n : Nat := 500
    let a : CvAccess := cvr
    let later : List CvAccess := [cvr]
    let s : State := (nobody fun h => { h with held := [cvr, cvr], holdUs := 2 })
    let u := s.die d
    (s.ticksTo d Die.dueHold = some n) ∧ (u.host.held = a :: later)) ∧
   (let d : DieId := .a
    let s : State := live
    let u := s.die d
    (u.host.held = [])) ∧
   (let d : DieId := .a
    let s : State := (hst fun h => { h with held := [cvr], msix := Vector.replicate 64 { addr := 5 } })
    let u := s.die d
    let up : Prop := u.awake domPcie = true ∧ u.awake domFab = true ∧ u.host.perst = false
    (up)) ∧
   (let d : DieId := .a
    let s : State := (hst fun h => { h with perst := true })
    let u := s.die d
    let up : Prop := u.awake domPcie = true ∧ u.awake domFab = true ∧ u.host.perst = false
    (¬ up)) ∧
   (let d : DieId := .a
    let s : State := (hst fun h => { h with linkUp := true, held := [cvr], msix := Vector.replicate 64 { addr := 5 } })
    let u := s.die d
    (u.host.linkUp = true)) ∧
   (let d : DieId := .a
    let s : State := live
    let u := s.die d
    (u.host.linkUp = false)) := by
  refine ⟨?_, ?_, ?_, ?_, ?_, ?_, ?_, ?_, ?_, ?_, ?_, ?_, ?_, ?_, ?_, ?_, ?_, ?_, ?_, ?_, ?_, ?_, ?_, ?_, ?_, ?_, ?_, ?_, ?_, ?_, ?_, ?_, ?_⟩ <;> (try dsimp only [Die.readable, Die.busReadable]) <;> decide +kernel

/-- The hypotheses of each clause of `HostSmbus` can be met. -/
theorem wit_HostSmbus :
   (let d : DieId := .a
    let off : BitVec 32 := 0x1000
    let s : State := (boo .minimal fun d => { d with boot := { d.boot with tries := 3, cause := 2, lastFail := 4 } })
    let u := s.die d
    let o := off.toNat
    let answers : Prop := u.boot.phase ≠ .reset ∧ u.pwr.lp = false
    (answers) ∧ (o = 0x1000)) ∧
   (let d : DieId := .a
    let off : BitVec 32 := 0x20
    let s : State := live
    let u := s.die d
    let o := off.toNat
    let answers : Prop := u.boot.phase ≠ .reset ∧ u.pwr.lp = false
    (answers) ∧ (u.awake domFab = true) ∧ (o = 0x20)) ∧
   (let d : DieId := .a
    let off : BitVec 32 := 0x20
    let v : BitVec 32 := 300
    let s : State := live
    let u := s.die d
    let o := off.toNat
    let answers : Prop := u.boot.phase ≠ .reset ∧ u.pwr.lp = false
    let us : BitVec 10 := v.extractLsb' 0 10
    (answers) ∧ (u.awake domFab = true) ∧ (o = 0x20) ∧ (us.toNat ≤ 1000)) ∧
   (let d : DieId := .a
    let off : BitVec 32 := 0x20
    let v : BitVec 32 := 300
    let s : State := (hst fun h => { h with noLink := true, unmapped := true })
    let u := s.die d
    let o := off.toNat
    let answers : Prop := u.boot.phase ≠ .reset ∧ u.pwr.lp = false
    let us : BitVec 10 := v.extractLsb' 0 10
    (answers) ∧ (u.awake domFab = true) ∧ (o = 0x20) ∧ (us.toNat ≤ 1000)) ∧
   (let d : DieId := .a
    let off : BitVec 32 := 0x20
    let v : BitVec 32 := 1001
    let s : State := (hst fun h => { h with noLink := true })
    let u := s.die d
    let o := off.toNat
    let answers : Prop := u.boot.phase ≠ .reset ∧ u.pwr.lp = false
    let us : BitVec 10 := v.extractLsb' 0 10
    (answers) ∧ (u.awake domFab = true) ∧ (o = 0x20) ∧ (1000 < us.toNat)) ∧
   (let d : DieId := .a
    let s : State := live
    let u := s.die d
    let answers : Prop := u.boot.phase ≠ .reset ∧ u.pwr.lp = false
    (answers)) ∧
   (let d : DieId := .a
    let count : Nat := 5
    let n : Nat := 36
    let s : State := live
    let u := s.die d
    let answers : Prop := u.boot.phase ≠ .reset ∧ u.pwr.lp = false
    (answers) ∧ (count ≠ 5 ∨ n % 4 ≠ 0 ∨ n = 0 ∨ 32 < n)) ∧
   (let d : DieId := .a
    let count : Nat := 5
    let s : State := live
    let u := s.die d
    let answers : Prop := u.boot.phase ≠ .reset ∧ u.pwr.lp = false
    (answers) ∧ (count ≠ 8)) ∧
   (let d : DieId := .a
    let off : BitVec 32 := 0x8000
    let s : State := live
    let u := s.die d
    let o := off.toNat
    let answers : Prop := u.boot.phase ≠ .reset ∧ u.pwr.lp = false
    (answers) ∧ (0x8000 ≤ o ∧ o < 0xA000 ∨ 0x3000000 ≤ o ∧ o < 0x4000000) ∧ (o % 4 = 0) ∧ (u.awake domFab = true) ∧ (u.awake domPcie = true)) ∧
   (let d : DieId := .a
    let off : BitVec 32 := 0x700010
    let s : State := (hst fun h => { h with badAccess := true })
    let u := s.die d
    let o := off.toNat
    let answers : Prop := u.boot.phase ≠ .reset ∧ u.pwr.lp = false
    (answers) ∧ (0x700000 ≤ o) ∧ (o < 0x800000) ∧ (o % 4 = 0) ∧ (u.host.badAccess = true)) ∧
   (let d : DieId := .a
    let off : BitVec 32 := 0x2000000
    let s : State := ((dmn 26 fun m => { m with state := .off }).upd .a fun d => { d with pwr := { d.pwr with logValid := true } })
    let u := s.die d
    let o := off.toNat
    let answers : Prop := u.boot.phase ≠ .reset ∧ u.pwr.lp = false
    (answers) ∧ (o = 0x2000000) ∧ ((vget u.pwr.doms 26).state = .off) ∧ (u.pwr.logValid = true)) ∧
   (let d : DieId := .a
    let off : BitVec 32 := 0x100004
    let s : State := (boo .reset fun d => { d with pwr := { d.pwr with holdCause := 3 } })
    let u := s.die d
    let o := off.toNat
    let heldInReset : Prop := u.boot.phase = .reset ∧ u.pwr.holdCause ≠ 0
    (heldInReset) ∧ (o = 0x100004)) ∧
   (let d : DieId := .a
    let off : BitVec 32 := 0x1000
    let s : State := (boo .reset fun d => { d with pwr := { d.pwr with holdCause := 3 } })
    let u := s.die d
    let o := off.toNat
    let heldInReset : Prop := u.boot.phase = .reset ∧ u.pwr.holdCause ≠ 0
    (heldInReset) ∧ (o ≠ 0x100004)) ∧
   (let d : DieId := .a
    let s : State := (boo .reset fun d => d)
    let u := s.die d
    let heldInReset : Prop := u.boot.phase = .reset ∧ u.pwr.holdCause ≠ 0
    (u.boot.phase = .reset ∨ u.pwr.lp = true) ∧ (¬ heldInReset)) ∧
   (let d : DieId := .a
    let s : State := (hst fun h => { h with smbStatus := 4 })
    let u := s.die d
    let answers : Prop := u.boot.phase ≠ .reset ∧ u.pwr.lp = false
    (answers)) ∧
   (let d : DieId := .a
    let s : State := live
    let u := s.die d
    let answers : Prop := u.boot.phase ≠ .reset ∧ u.pwr.lp = false
    (answers)) := by
  refine ⟨?_, ?_, ?_, ?_, ?_, ?_, ?_, ?_, ?_, ?_, ?_, ?_, ?_, ?_, ?_, ?_⟩ <;> (try dsimp only [Die.readable, Die.busReadable]) <;> decide +kernel

/-- The hypotheses of each clause of `HostQspiDma` can be met. -/
theorem wit_HostQspiDma :
   (let d : DieId := .a
    let code : BitVec 3 := 2
    let len : BitVec 9 := 12
    let s : State := (qsp fun q => { q with busy := true })
    let u := s.die d
    let q := u.qspi
    let isOp : Prop := code = 2 ∧ len.toNat ≤ 256 ∨ code = 3 ∧ len.toNat ≤ 256 ∨ len = 0 ∧ (code = 1 ∨ code = 4 ∨ code = 5)
    let taken : Prop := q.busy = true ∨ (u.boot.phase = .rom ∧ u.boot.src = false) ∨ (u.img.state = .check ∨ u.img.state = .place) ∧ u.img.src = 0
    (isOp) ∧ (taken) ∧ ((s.die d).reached 1 = true)) ∧
   (let d : DieId := .a
    let len : BitVec 9 := 257
    let s : State := live
    (256 < len.toNat) ∧ ((s.die d).reached 1 = true)) ∧
   (let d : DieId := .a
    let code : BitVec 3 := 2
    let len : BitVec 9 := 12
    let s : State := (qsp fun q => { q with addr := 0x1234567 })
    let u := s.die d
    let q := u.qspi
    let a := if q.addr4 then q.addr.toNat else q.addr.toNat % 0x1000000
    let isOp : Prop := code = 2 ∧ len.toNat ≤ 256 ∨ code = 3 ∧ len.toNat ≤ 256 ∨ len = 0 ∧ (code = 1 ∨ code = 4 ∨ code = 5)
    let taken : Prop := q.busy = true ∨ (u.boot.phase = .rom ∧ u.boot.src = false) ∨ (u.img.state = .check ∨ u.img.state = .place) ∧ u.img.src = 0
    let empty : Prop := (code = 2 ∨ code = 3) ∧ len = 0
    let crosses : Prop := code = 3 ∧ 256 < a % 256 + len.toNat
    (isOp) ∧ (¬ taken) ∧ (¬ empty) ∧ (¬ crosses) ∧ ((s.die d).reached 1 = true)) ∧
   (let d : DieId := .a
    let code : BitVec 3 := 2
    let len : BitVec 9 := 0
    let s : State := live
    let u := s.die d
    let q := u.qspi
    let isOp : Prop := code = 2 ∧ len.toNat ≤ 256 ∨ code = 3 ∧ len.toNat ≤ 256 ∨ len = 0 ∧ (code = 1 ∨ code = 4 ∨ code = 5)
    let taken : Prop := q.busy = true ∨ (u.boot.phase = .rom ∧ u.boot.src = false) ∨ (u.img.state = .check ∨ u.img.state = .place) ∧ u.img.src = 0
    let empty : Prop := (code = 2 ∨ code = 3) ∧ len = 0
    let noRec : Prop := u.boot.recWait = []
    (isOp) ∧ (¬ taken) ∧ (empty) ∧ (noRec) ∧ ((s.die d).reached 1 = true)) ∧
   (let d : DieId := .a
    let code : BitVec 3 := 3
    let len : BitVec 9 := 12
    let s : State := (qsp fun q => { q with addr := 0x45F5 })
    let u := s.die d
    let q := u.qspi
    let a := if q.addr4 then q.addr.toNat else q.addr.toNat % 0x1000000
    let isOp : Prop := code = 2 ∧ len.toNat ≤ 256 ∨ code = 3 ∧ len.toNat ≤ 256 ∨ len = 0 ∧ (code = 1 ∨ code = 4 ∨ code = 5)
    let taken : Prop := q.busy = true ∨ (u.boot.phase = .rom ∧ u.boot.src = false) ∨ (u.img.state = .check ∨ u.img.state = .place) ∧ u.img.src = 0
    let crosses : Prop := code = 3 ∧ 256 < a % 256 + len.toNat
    let noRec : Prop := u.boot.recWait = []
    (isOp) ∧ (¬ taken) ∧ (crosses) ∧ (noRec) ∧ ((s.die d).reached 1 = true)) ∧
   (let d : DieId := .a
    let s : State := (qsp fun q => { q with busy := true, runOp := 1 })
    let u := s.die d
    let q := u.qspi
    let noRec : Prop := u.boot.recWait = []
    let runs (n : BitVec 3) : Prop := q.busy = true ∧ q.runOp = n ∧ noRec
    (runs 1)) ∧
   (let d : DieId := .a
    let s : State := (qsp fun q => { q with busy := true, runOp := 2, runAddr := 5, runLen := 4, flash := ⟨[(6, 7)]⟩ })
    let u := s.die d
    let q := u.qspi
    let noRec : Prop := u.boot.recWait = []
    let runs (n : BitVec 3) : Prop := q.busy = true ∧ q.runOp = n ∧ noRec
    (runs 2) ∧ (q.runLen ≤ 256)) ∧
   (let d : DieId := .a
    let s : State := (qsp fun q => { q with busy := true, runOp := 3, runAddr := 5, runLen := 4, data := Vector.replicate 256 0x5A, flash := ⟨[(16, 7)]⟩ })
    let u := s.die d
    let q := u.qspi
    let noRec : Prop := u.boot.recWait = []
    let runs (n : BitVec 3) : Prop := q.busy = true ∧ q.runOp = n ∧ noRec
    (runs 3) ∧ (q.runLen ≤ 256)) ∧
   (let d : DieId := .a
    let s : State := (qsp fun q => { q with busy := true, runOp := 4, runAddr := 0x3005, flash := ⟨[(0x2FFF, 7), (0x3010, 7), (0x4000, 7)]⟩ })
    let u := s.die d
    let q := u.qspi
    let noRec : Prop := u.boot.recWait = []
    let runs (n : BitVec 3) : Prop := q.busy = true ∧ q.runOp = n ∧ noRec
    (runs 4 ∨ runs 5)) ∧
   (let d : DieId := .a
    let ticks : Nat := 50
    let s : State := ((qsp fun q => { q with busy := true, runOp := 3, runAddr := 5, runLen := 4 }).upd .a fun d => { d with real := 2499950 })
    let u := s.die d
    let q := u.qspi
    let noRec : Prop := u.boot.recWait = []
    let runs (n : BitVec 3) : Prop := q.busy = true ∧ q.runOp = n ∧ noRec
    (runs 3 ∨ runs 4 ∨ runs 5) ∧ (s.ticksTo d Die.dueQspi = some ticks)) ∧
   (let d : DieId := .a
    let s : State := (qsp fun q => { q with busy := true, runOp := 2 })
    let u := s.die d
    let q := u.qspi
    let noRec : Prop := u.boot.recWait = []
    let runs (n : BitVec 3) : Prop := q.busy = true ∧ q.runOp = n ∧ noRec
    (runs 1 ∨ runs 2)) ∧
   (let d : DieId := .a
    let s : State := live
    let u := s.die d
    let q := u.qspi
    (q.busy = false)) ∧
   (let d : DieId := .a
    let c : Fin 4 := 2
    let src : Bool := true
    let dst : Bool := true
    let s : State := (dm2 fun x => x)
    let u := s.die d
    let x := vget u.dma c
    (x.busy = true ∨ src = true ∧ dst = true) ∧ ((s.die d).reached 27 = true)) ∧
   (let d : DieId := .a
    let c : Fin 4 := 2
    let src : Bool := true
    let dst : Bool := false
    let s : State := (dm2 fun x => x)
    let u := s.die d
    let x := vget u.dma c
    (x.busy = false) ∧ (¬ (src = true ∧ dst = true)) ∧ (x.len = 0) ∧ ((s.die d).reached 27 = true)) ∧
   (let d : DieId := .a
    let c : Fin 4 := 2
    let src : Bool := false
    let dst : Bool := true
    let s : State := (dm2 fun x => { x with len := 5 })
    let u := s.die d
    let x := vget u.dma c
    (x.busy = false) ∧ (¬ (src = true ∧ dst = true)) ∧ (x.len ≠ 0) ∧ ((s.die d).reached 27 = true)) ∧
   (let d : DieId := .a
    let s : State := (dm2 fun x => { x with busy := true })
    ((s.die d).reached 27 = true)) ∧
   (let d : DieId := .a
    let c : Fin 4 := 2
    let s : State := (dm2 fun x => { x with busy := true, len := 5, srcLo := 0x100, dstLo := 0x203 })
    let u := s.die d
    let x := vget u.dma c
    let moves : Prop := x.busy = true ∧ u.dmaStalled c = false ∧ x.moved = 0 ∧ x.aborting = false
    let from' := x.src
    let to' := x.dst
    let k := x.len.toNat
    let inFab (w : Nat) : Prop := w + k ≤ 0x680000
    let free : Prop := u.eccBad = [] ∧ u.awake domFab = true
    (moves) ∧ (x.fromHost = false) ∧ (x.toHost = false) ∧ (free) ∧ (inFab from') ∧ (inFab to') ∧ (from' + k ≤ to' ∨ to' + k ≤ from')) ∧
   (let d : DieId := .a
    let c : Fin 4 := 2
    let bytes : List (BitVec 8) := [1, 2, 3, 4, 5]
    let s : State := (dm2 fun x => { x with busy := true, len := 5, fromHost := true, dstLo := 0x203 })
    let u := s.die d
    let x := vget u.dma c
    let moves : Prop := x.busy = true ∧ u.dmaStalled c = false ∧ x.moved = 0 ∧ x.aborting = false
    let to' := x.dst
    let k := x.len.toNat
    let inFab (w : Nat) : Prop := w + k ≤ 0x680000
    let free : Prop := u.eccBad = [] ∧ u.awake domFab = true
    (moves) ∧ (x.fromHost = true) ∧ (x.toHost = false) ∧ (free) ∧ (inFab to') ∧ (bytes.length = k)) ∧
   (let d : DieId := .a
    let c : Fin 4 := 2
    let s : State := (dm2 fun x => { x with busy := true, len := 5, toHost := true, srcLo := 0x100, dstHi := 3 })
    let u := s.die d
    let x := vget u.dma c
    let moves : Prop := x.busy = true ∧ u.dmaStalled c = false ∧ x.moved = 0 ∧ x.aborting = false
    let from' := x.src
    let k := x.len.toNat
    let inFab (w : Nat) : Prop := w + k ≤ 0x680000
    let free : Prop := u.eccBad = [] ∧ u.awake domFab = true
    (moves) ∧ (x.fromHost = false) ∧ (x.toHost = true) ∧ (free) ∧ (inFab from') ∧ (0 < k)) ∧
   (let d : DieId := .a
    let c : Fin 4 := 2
    let s : State := (dm2 fun x => { x with busy := true, len := 5, srcLo := 0x700000 })
    let u := s.die d
    let x := vget u.dma c
    let moves : Prop := x.busy = true ∧ u.dmaStalled c = false ∧ x.moved = 0 ∧ x.aborting = false
    let from' := x.src
    let k := x.len.toNat
    (moves) ∧ (x.fromHost = false) ∧ (bar2Dom from' = none) ∧ (0 < k)) ∧
   (let d : DieId := .a
    let c : Fin 4 := 2
    let s : State := (dm2 fun x => { x with busy := true, len := 5, fromHost := true, dstLo := 0x203 })
    let u := s.die d
    let x := vget u.dma c
    let moves : Prop := x.busy = true ∧ u.dmaStalled c = false ∧ x.moved = 0 ∧ x.aborting = false
    let k := x.len.toNat
    (moves) ∧ (x.fromHost = true) ∧ (0 < k)) ∧
   (let d : DieId := .a
    let c : Fin 4 := 2
    let s : State := ((dm2 fun x => { x with busy := true, len := 5, srcLo := 0x02040000 }).upd .a fun d => ({ d with pwr := { d.pwr with logValid := true } }).updDom 3 fun m => { m with state := .off })
    let u := s.die d
    let x := vget u.dma c
    let moves : Prop := x.busy = true ∧ u.dmaStalled c = false ∧ x.moved = 0 ∧ x.aborting = false
    let from' := x.src
    let k := x.len.toNat
    (moves) ∧ (x.fromHost = false) ∧ (u.pwr.logValid = true) ∧ ((bar2Dom from').map (fun i => (u.dom i).state) = some .off) ∧ (0 < k)) ∧
   (let d : DieId := .a
    let c : Fin 4 := 2
    let stop : Nat := 0
    let s : State := (dm2 fun x => { x with busy := true, aborting := true, len := 5, srcLo := 0x100, dstLo := 0x203 })
    let u := s.die d
    let x := vget u.dma c
    let k := x.len.toNat
    (x.busy = true) ∧ (u.dmaStalled c = false) ∧ (x.moved = 0) ∧ (x.aborting = true) ∧ (stop = 0) ∧ (0 < k)) ∧
   (let d : DieId := .a
    let c : Fin 4 := 2
    let s : State := (dm2 fun x => x)
    let u := s.die d
    let x := vget u.dma c
    (x.busy = false)) := by
  refine ⟨?_, ?_, ?_, ?_, ?_, ?_, ?_, ?_, ?_, ?_, ?_, ?_, ?_, ?_, ?_, ?_, ?_, ?_, ?_, ?_, ?_, ?_, ?_, ?_⟩ <;> (try dsimp only [Die.readable, Die.busReadable]) <;> decide +kernel

/-! Witnesses of the other statements. -/

/-- A command answers a state in which a condition holds. -/
def after (c : Instr) (s : State) (p : State → Bool) : Bool :=
  match exec c s with
  | .next t => p t
  | _ => false
/-- Die A serves over the command, and what an interrupt reports changes. -/
def newly (c : Instr) (s : State) (p : Die → Die → Bool) : Bool :=
  s.a.served && after c s fun t => t.a.served && p s.a t.a
theorem wit_EngineSpecial :
    (let s := mem0 0x100 0x200 0x40
     ([.amov .p 4 0xFFFF0, .amov .m 4 0xFFFF0, .amov .b 4 0xFFFF0, .amov .l 4 0xFFFF0, .sig 0xBEEF, .nop, .time 1] ++
       ([4, 12, 20, 28] ++ (List.range 8).map (32 + ·)).map (fun c => EngOp.mfs 1 (BitVec.ofNat 6 c)) ++
       ([4, 12, 20, 28] ++ (List.range 4).map (32 + ·)).map (fun c => EngOp.mts (BitVec.ofNat 6 c) 2)).all fun i => s.a.issues 0 i) = true := by
  decide +kernel
theorem wit_EnginePointer :
    (0 : BitVec 20) = 0 ∧ ((0x40 : BitVec 20) ≠ 0 ∧ (0xFFFC0 : BitVec 20).toNat + (0x40 : BitVec 20).toNat ≤ 2 ^ 20) := by decide
theorem wit_StepSettles :
    (live.safePair && match step live with | .next t => t.safePair | _ => false) = true := by decide +kernel
theorem wit_TimeTicks :
    (0 ≤ 4 * 2 ^ 32 + (TimeUnit.rate {}).toInt) ∧ (Die.cold .a).clkPer = false ∧ (liveDie .a).clkPer = true ∧ live.pending = [] := by
  decide +kernel
/-- An antecedent of each clause about interrupts, each met by one command. -/
theorem wit_Interrupts_red : newly .d2dLinkDown live (fun u v => u.red.degraded != v.red.degraded) = true := by
  decide +kernel
theorem wit_Interrupts_lane : newly (.mbRestart .a 2) (mb2 fun x => { x with state := .stopped })
    (fun u v => (vget u.lanes 2).state != (vget v.lanes 2).state) = true := by decide +kernel
theorem wit_Interrupts_can : newly (.canInit .a 1 false) (can1 fun c => { c with st := .init, cfg := { c.cfg with init := true } })
    (fun u v => (vget u.cans 1).st != (vget v.cans 1).st) = true := by decide +kernel
theorem wit_Interrupts_axis : newly (.bridgeFault 3 true) (axin fun x => { x with state := .moving, vt := 9 })
    (fun u v => !(vget u.axes 3).bridgeFlt && (vget v.axes 3).bridgeFlt) = true := by decide +kernel
theorem wit_Interrupts_port : newly (.listenTimeout .a 3) (ssi3 fun x => { x with state := .run, cfg := { x.cfg with mode := 3, errLimit := 0 }, goodNs := 1000 })
    (fun u v => decide ((vget u.encs 3).state ≠ .fault) && decide ((vget v.encs 3).state = .fault)) = true := by decide +kernel
theorem wit_Interrupts_region : newly (.solveDeadline .a 2 .start 0) (rgn2w 0x13 200 fun r => { r with period := 7, state := .idle, tj := 1000 })
    (fun u v => decide ((vget u.regions 2).state ≠ .tail) && decide ((vget v.regions 2).state = .tail)) = true := by decide +kernel
theorem wit_Interrupts_monitor : newly (.sepOverrun .a) (sep1 fun x => { x with phaseR := true })
    (fun u v => !u.sep.overrun && v.sep.overrun) = true := by decide +kernel
theorem wit_Interrupts_image : newly (.imgPass1Done .a) (chk fun x => x)
    (fun u v => !u.img.done && v.img.done) = true := by decide +kernel

/-! The clauses that need an image, firmware or token which passes its checks: whatever passes meets them. -/
theorem wit_BootSequence_firmware (fw : List Byte) (n : 64 ≤ fw.length) (l : fieldAt fw 8 4 ≤ fw.length) :
    let u := (boo .rom fun d => { d with boot := { d.boot with src := true, fwBuf := fw } }).die .a
    u.fwCheck fw = 0 → u.boot.phase = .rom ∧ u.boot.src = true ∧ u.boot.fwBuf = fw ∧
      (64 ≤ fw.length ∧ (fieldAt fw 8 4 ≤ fw.length ∨ 400000 < fieldAt fw 8 4)) ∧ u.fwCheck fw = 0 :=
  fun h => ⟨rfl, rfl, rfl, ⟨n, .inl l⟩, h⟩
/-- An image that the host has pushed, in CHECK. -/
def pushed (b : List Byte) (f : ImageUnit → ImageUnit) : State := chk fun x => f { x with src := 1, buf := b }
theorem push_complete (u : Die) (b : List Byte) (n : 128 ≤ b.length) (l : imgTotal b ≤ b.length) (h : u.img.buf = b) :
    u.imgComplete = true := by
  subst h
  simp [Die.imgComplete, n, l]
theorem wit_ImageLoads_image (b : List Byte) (n : 128 ≤ b.length) (l : imgTotal b ≤ b.length) :
    let u := (pushed b id).die .a
    u.pass1 b = none → u.img.state = .check ∧ u.imgSource = b ∧ u.imgComplete = true ∧ u.pass1 u.imgSource = none ∧
      u.img.secs = [] ∧ u.time.cycRun = true := by
  exact fun h => ⟨rfl, rfl, push_complete _ b n l rfl, h, rfl, rfl⟩
theorem wit_ImageLoads_place (b : List Byte) (n : 128 ≤ b.length) (l : imgTotal b ≤ b.length) (p : Parts)
    (h : partsOf (imgSecs b) = some p) :
    let u := (plc fun x => { x with src := 1, buf := b, digest1 := imgDigest b, crcs1 := (imgSecs b).map fun s => crc32c s.body }).die .a
    (u.img.state = .place ∧ u.time.cycRun = false ∧ u.imgComplete = true ∧ u.powerPending u.img.power = false) ∧
      u.powerFailed u.img.power = none ∧ partsOf (imgSecs u.imgSource) = some p ∧
      (imgDigest u.imgSource = u.img.digest1 ∧ (imgSecs u.imgSource).map (fun s => crc32c s.body) = u.img.crcs1) := by
  exact ⟨⟨rfl, rfl, push_complete _ b n l rfl, rfl⟩, rfl, h, rfl, rfl⟩
theorem wit_ImageUpdates_staged (b : List Byte) (k : imgKind b ≠ 0) :
    let s := live.both fun d => { d with img := { d.img with state := if d.id = .a then .running else .staged, staged := b } }
    (s.die .a).pass1 b = none → (s.die .a).red.linkUp = true ∧ (s.die .b).img.state = .staged ∧ (s.die .a).img.state = .running ∧
      (s.die .b).img.staged = b ∧ (s.die .a).pass1 b = none ∧ imgKind b ≠ 0 :=
  fun h => ⟨rfl, rfl, rfl, rfl, h, k⟩
theorem wit_SecurityCommands_token (m : Memory) :
    let u := (onA fun d => { d with sec := { d.sec with state := .token, tokenBuf := m } }).die .a
    let t := m.read 0 0 5440
    u.tokenCheck t = 0 → u.sec.state = .token ∧ u.sec.tokenBuf.read 0 0 5440 = t ∧ u.tokenCheck t = 0 :=
  fun h => ⟨rfl, rfl, h⟩

end Sys2Proof.Tests
end

section
/-! PROOFS. Instructions of a loop engine (chapter 10): an instruction whose effect is on its own engine alone, and
the exact arithmetic of the accumulator group (R305, R334-R337). -/

namespace Sys2Proof.Machine

/-! An engine rewritten twice, or by what it holds -/

theorem Die.updEng_updEng (e : Fin 80) (f f' : Engine → Engine) (d : Die) :
    (d.updEng e f).updEng e f' = d.updEng e fun g => f' (f g) := by
  simp [Die.updEng, vupd, vget, vset]

theorem Die.updEng_self (e : Fin 80) (f : Engine → Engine) (d : Die) (h : f (d.engine e) = d.engine e) :
    d.updEng e f = d := by
  rw [Die.updEng_congr e f (fun g => g) d h]
  simp [Die.updEng, vupd, vget, vset]

theorem vset_vget {α : Type} {n : Nat} (v : Vector α n) (i : Fin n) : vset v i (vget v i) = v := by
  simp [vset, vget]

/-! An instruction that acts on its own engine -/

/-- Control after an instruction that does not wait: to the target of a jump, or to the next index. -/
def Engine.move : Option (BitVec 12) → Engine → Engine
  | some t, g => g.jump t
  | none, g => g.advance

theorem Engine.move_rest (r : Option (BitVec 12)) (g : Engine) : (g.move r).rest = g.rest := by
  cases r with
  | none => exact g.advance_rest
  | some t => exact g.jump_rest t

/-- An instruction that rewrites its engine by `f` and does not wait leaves its engine so rewritten, and moved. -/
theorem Die.runEng_move {e : Fin 80} {op : EngOp} {d : Die} {f : Engine → Engine} {r : Option (BitVec 12)}
    (h : d.issues e op = true) (hend : ∀ c, op ≠ .endRun c)
    (hop : (d.fetched e op).engOp e op = .ok ((d.fetched e op).updEng e f, r)) (hw : ∀ g, (f g).wait = g.wait) :
    d.runEng e op = (d.fetched e op).updEng e fun g => (f g).move r := by
  have wait : (((d.fetched e op).updEng e f).engine e).wait = .none := by
    rw [Die.updEng_eng, hw]; exact Die.fetched_wait h
  cases r with
  | none => exact (Die.runEng_next e op d _ h hop wait hend).trans (Die.updEng_updEng ..)
  | some t => exact (Die.runEng_jump e op d _ t h hop wait hend).trans (Die.updEng_updEng ..)

/-- Memory stays, and engine `e` is the one found, but for hazards and counters, rewritten by `f` and moved. -/
def Die.rewrites (e : Fin 80) (f : Engine → Engine) (r : Option (BitVec 12)) (d v : Die) : Prop :=
  v.sram = d.sram ∧ ∃ hz cnt rec, v.engine e = (f { d.engine e with hz := hz, cnt := cnt, eccRec := rec }).move r

/-- The command of an instruction whose effect is to rewrite its engine. -/
theorem engStep_rewrites {i : Instr} {id : DieId} {e : Fin 80} {op : EngOp} {hyp : Die → Prop}
    (f : Die → Engine → Engine) (r : Option (BitVec 12))
    (hx : ∀ s, exec i s = onDie id (Die.runEng e op) s) (hend : ∀ c, op ≠ .endRun c)
    (hrest : ∀ d g, (f d g).rest = g.rest) (hw : ∀ d g, (f d g).wait = g.wait)
    (hop : ∀ d : Die, d.issues e op = true → hyp d →
      (d.fetched e op).engOp e op = .ok ((d.fetched e op).updEng e (f d), r)) :
    EngStep i id e op hyp fun d v => Die.rewrites e (f d) r d v := by
  have run : ∀ d : Die, d.issues e op = true → hyp d →
      d.runEng e op = (d.fetched e op).updEng e fun g => (f d g).move r :=
    fun d hd hh => Die.runEng_move hd hend (hop d hd hh) (hw d)
  refine engStep_of hx (fun d hd hh => ?_) (fun d hd hh => ?_) fun _ _ _ _ _ _ _ _ _ _ _ _ h => h
  · rw [run d hd hh]
    exact (d.fetched_same e op).trans (.upd e _ _ fun g => (Engine.move_rest r _).trans (hrest d g))
  · rw [run d hd hh]
    obtain ⟨hz, cnt, rec, eq⟩ := d.fetched_engine e op
    exact ⟨d.fetched_sram e op, hz, cnt, rec, by rw [Die.updEng_eng, eq]⟩

/-- What an instruction leaves may be said in weaker terms. -/
theorem EngStep.imp {i : Instr} {id : DieId} {e : Fin 80} {op : EngOp} {hyp : Die → Prop}
    {post post' : Die → Die → Prop} (h : EngStep i id e op hyp post)
    (weaker : ∀ d v, d.issues e op = true → hyp d → post d v → post' d v) : EngStep i id e op hyp post' := by
  intro s hs hh
  obtain ⟨t, run, only, frame, hp⟩ := h s hs hh
  exact ⟨t, run, only, frame, weaker _ _ hs hh hp⟩

/-- An engine with registers `g` that goes to the next index has taken them. -/
theorem Die.rewrites_takes {e : Fin 80} {f : Engine → Engine} {g : EngRegs} {d v : Die}
    (hf : ∀ hz cnt rec, f { d.engine e with hz := hz, cnt := cnt, eccRec := rec } =
      { d.engine e with regs := g, hz := hz, cnt := cnt, eccRec := rec })
    (hw : (d.engine e).wait = .none) (h : Die.rewrites e f none d v) : v.sram = d.sram ∧ Die.takesRegs e g d v := by
  obtain ⟨sram, hz, cnt, rec, hv⟩ := h
  refine ⟨sram, ?_⟩
  have takes := Die.advance_takes e d
    (d.updEng e fun _ => { d.engine e with regs := g, hz := hz, cnt := cnt, eccRec := rec }) g
    (by rw [Die.updEng_eng]) (by rw [Die.updEng_eng]; exact ⟨rfl, rfl, rfl, hw⟩)
    (by rw [Die.updEng_eng]) (by rw [Die.updEng_eng]) (by rw [Die.updEng_eng])
  have hv : v.engine e = Engine.advance { d.engine e with regs := g, hz := hz, cnt := cnt, eccRec := rec } :=
    hv.trans (congrArg Engine.advance (hf hz cnt rec))
  unfold Die.takesRegs Die.regsBecome Die.goesOn at takes ⊢
  rw [Die.updEng_eng, Die.updEng_eng] at takes
  rwa [hv]

/-! Exact arithmetic: narrowing, shifts, and fitted results (R305, R330) -/

/-- The rounding of the model is the narrowing of R305. -/
theorem narrowInt_eq (trunc : Bool) (a : Int) (s : Nat) : narrowInt trunc a s = narrowed trunc a s := by
  have cast : ((2 ^ s : Nat) : Int) = 2 ^ s := Int.natCast_pow 2 s
  have floor : Int.fdiv a (2 ^ s) = a / 2 ^ s :=
    Int.fdiv_eq_ediv_of_nonneg a (Int.le_of_lt (Int.pow_pos (by decide)))
  unfold narrowInt roundDiv narrowed
  cases trunc with
  | true =>
    simp only [cast, floor, if_true, Bool.not_true, Bool.false_and, Bool.false_eq_true, if_false]
  | false =>
    have rem : a - a / 2 ^ s * 2 ^ s = a % 2 ^ s := by rw [Int.emod_def, Int.mul_comm]
    simp only [cast, floor, rem, Bool.not_false, Bool.true_and, Bool.false_eq_true, if_false]
    cases s with
    | zero =>
      simp only [Int.pow_zero, Int.emod_one, Nat.lt_irrefl, decide_false, Bool.false_and, Bool.false_eq_true, if_false]
      rfl
    | succ n =>
      have two : (2 : Int) ^ (n + 1) = 2 * 2 ^ n := by rw [Int.pow_succ, Int.mul_comm]
      simp only [two, Nat.add_sub_cancel, Nat.succ_pos, decide_true, Bool.true_and, Bool.or_eq_true,
        Bool.and_eq_true, decide_eq_true_eq]
      (repeat' split) <;> omega

/-- An arithmetic shift to the right divides toward minus infinity. -/
theorem sshiftRight_eq_ofInt {w : Nat} (v : BitVec w) (n : Nat) :
    v.sshiftRight n = BitVec.ofInt w (v.toInt / 2 ^ n) := by
  rw [BitVec.sshiftRight, Int.shiftRight_eq_div_pow, Int.natCast_pow]; rfl

theorem EngRegs.putFit_eq (xd : Fin 16) (r : Int) (g : EngRegs) : g.putFit xd r = g.withFit xd r := by
  unfold EngRegs.putFit EngRegs.fit32
  rw [EngRegs.fitTo_eq 32 (.inl rfl)]
  rfl

/-- An accumulator that takes a fitted result, with Z and N. -/
theorem EngRegs.putA_setZNacc_fit72 (a : Fin 4) (r : Int) (g : EngRegs) :
    ((g.fit72 r).2.setZNacc (g.fit72 r).1).putA a (g.fit72 r).1 = g.withAcc true a r := by
  unfold EngRegs.fit72
  rw [EngRegs.fitTo_eq 72 (.inr rfl)]
  rfl

/-- An accumulator that takes a fitted result, without Z and N. -/
theorem EngRegs.putA_fit72 (a : Fin 4) (r : Int) (g : EngRegs) :
    (g.fit72 r).2.putA a (g.fit72 r).1 = g.withAcc false a r := by
  unfold EngRegs.fit72
  rw [EngRegs.fitTo_eq 72 (.inr rfl)]
  rfl

theorem engMuln_eq (xd xa xb : Fin 16) (sh : BitVec 6) (trunc : Bool) (g : EngRegs) :
    engMuln xd xa xb sh trunc g = g.withFit xd (narrowed trunc ((g.gx xa).toInt * (g.gx xb).toInt) sh.toNat) := by
  rw [← narrowInt_eq]
  exact EngRegs.putFit_eq ..

theorem engNrw_eq (xd : Fin 16) (acc : Fin 4) (sh : BitVec 6) (trunc : Bool) (g : EngRegs) :
    engNrw xd acc sh trunc g = g.withFit xd (narrowed trunc (g.ga acc).toInt sh.toNat) := by
  rw [← narrowInt_eq]
  exact EngRegs.putFit_eq ..

theorem engMac_eq (neg z : Bool) (acc : Fin 4) (xa xb : Fin 16) (g : EngRegs) :
    engMac neg z acc xa xb g = g.withAcc true acc (g.plus z neg acc ((g.gx xa).toInt * (g.gx xb).toInt)) :=
  EngRegs.putA_setZNacc_fit72 ..

theorem engAdda_eq (neg : Bool) (acc accs : Fin 4) (g : EngRegs) :
    engAdda neg acc accs g = g.withAcc true acc ((g.ga acc).toInt + signed neg (g.ga accs).toInt) :=
  EngRegs.putA_setZNacc_fit72 ..

theorem engMova_eq (neg : Bool) (acc : Fin 4) (xa : Fin 16) (sh : BitVec 6) (g : EngRegs) :
    engMova neg acc xa sh g = g.withAcc false acc (signed neg ((g.gx xa).toInt * 2 ^ sh.toNat)) :=
  (EngRegs.putA_fit72 ..).trans (by rw [Int.natCast_pow]; rfl)

theorem engShla_eq (acc : Fin 4) (sh : BitVec 6) (g : EngRegs) :
    engShla acc sh g = g.withAcc true acc ((g.ga acc).toInt * 2 ^ sh.toNat) :=
  (EngRegs.putA_setZNacc_fit72 ..).trans (by rw [Int.natCast_pow]; rfl)

theorem engShra_eq (acc : Fin 4) (sh : BitVec 6) (g : EngRegs) :
    engShra acc sh g = { g with acc := vset g.acc acc (BitVec.ofInt 72 ((g.ga acc).toInt / 2 ^ sh.toNat)),
                                flg := g.flg.zn (BitVec.ofInt 72 ((g.ga acc).toInt / 2 ^ sh.toNat)) } := by
  rw [← sshiftRight_eq_ofInt]
  rfl

/-- The unit of an engine that issues is ACTIVE or DRAINING, so EMODE and a replay alone decide (R305, R306). -/
theorem Die.fetched_engTrunc {e : Fin 80} {op : EngOp} {d : Die} (h : d.issues e op = true) :
    (d.fetched e op).engTrunc e = (d.engine e).truncates := by
  have unit : (d.fetched e op).unit 0 e = d.unit 0 e := by
    have except := congrArg (fun u : Die => u.unit 0 e) (d.fetched_same e op).except
    exact except
  obtain ⟨_, _, _, eng⟩ := d.fetched_engine e op
  have serves : (d.unit 0 e).state = .active ∨ (d.unit 0 e).state = .draining := by
    simp only [Die.issues, Die.engRuns, Bool.and_eq_true, Bool.or_eq_true, decide_eq_true_eq] at h
    obtain ⟨⟨⟨⟨_, serves⟩, _⟩, _⟩, _⟩ := h
    exact serves
  unfold Die.engTrunc Engine.truncates
  rw [unit, eng]
  rcases serves with st | st <;> simp [st]

/-- The command of an instruction on registers that rounds as the truncation in force says. -/
theorem engResultOf_trunc {i : Instr} {id : DieId} {e : Fin 80} {op : EngOp} (f : Bool → EngRegs → EngRegs)
    {res : Engine → EngRegs} (hx : ∀ s, exec i s = onDie id (Die.runEng e op) s) (hend : ∀ c, op ≠ .endRun c)
    (hop : ∀ d : Die, d.engOp e op = .ok (d.updRegs e (f (d.engTrunc e)), none))
    (hr : ∀ g, f g.truncates g.regs = res g) : EngResultOf i id e op res := by
  refine (engStep_rewrites (fun d g => { g with regs := f (d.engine e).truncates g.regs }) none hx hend
    (fun _ _ => rfl) (fun _ _ => rfl) fun d hd _ => ?_).imp fun d v hd _ h => ?_
  · rw [hop, Die.fetched_engTrunc hd]
    rfl
  · exact Die.rewrites_takes (fun _ _ _ => by rw [← hr]) (Die.issues_wait hd) h

end Sys2Proof.Machine

open Sys2Proof Sys2Proof.Machine

/-- Settles O3: each instruction rewrites the registers of its engine by a function which the lemmas above say in
the terms of the statement; MULN and NRW read the truncation in force besides. -/
theorem engineAccumulate : Obligations.EngineAccumulate := by
  intro d e xd xa xb acc accs z sh
  refine ⟨?muln, ?mac, ?msu, ?clra, ?mova, ?movna, ?adda, ?suba, ?shra, ?shla, ?cpya, ?expx, ?norm, ?nrw⟩
  case muln =>
    exact engResultOf_trunc (engMuln xd xa xb sh) (fun _ => rfl) (fun _ => EngOp.noConfusion) (fun _ => rfl)
      fun _ => engMuln_eq ..
  case nrw =>
    exact engResultOf_trunc (engNrw xd acc sh) (fun _ => rfl) (fun _ => EngOp.noConfusion) (fun _ => rfl)
      fun _ => engNrw_eq ..
  case mac =>
    exact engResult_of (engMac false z acc xa xb) (fun _ => rfl) (fun _ => EngOp.noConfusion) (fun _ => rfl) _
      fun _ => engMac_eq ..
  case msu =>
    exact engResult_of (engMac true z acc xa xb) (fun _ => rfl) (fun _ => EngOp.noConfusion) (fun _ => rfl) _
      fun _ => engMac_eq ..
  case clra =>
    exact engResult_of (engClra acc) (fun _ => rfl) (fun _ => EngOp.noConfusion) (fun _ => rfl) _ fun _ => rfl
  case mova =>
    exact engResult_of (engMova false acc xa sh) (fun _ => rfl) (fun _ => EngOp.noConfusion) (fun _ => rfl) _
      fun _ => engMova_eq ..
  case movna =>
    exact engResult_of (engMova true acc xa sh) (fun _ => rfl) (fun _ => EngOp.noConfusion) (fun _ => rfl) _
      fun _ => engMova_eq ..
  case adda =>
    exact engResult_of (engAdda false acc accs) (fun _ => rfl) (fun _ => EngOp.noConfusion) (fun _ => rfl) _
      fun _ => engAdda_eq ..
  case suba =>
    exact engResult_of (engAdda true acc accs) (fun _ => rfl) (fun _ => EngOp.noConfusion) (fun _ => rfl) _
      fun _ => engAdda_eq ..
  case shra =>
    exact engResult_of (engShra acc sh) (fun _ => rfl) (fun _ => EngOp.noConfusion) (fun _ => rfl) _
      fun _ => engShra_eq ..
  case shla =>
    exact engResult_of (engShla acc sh) (fun _ => rfl) (fun _ => EngOp.noConfusion) (fun _ => rfl) _
      fun _ => engShla_eq ..
  case cpya =>
    exact engResult_of (engCpya acc accs) (fun _ => rfl) (fun _ => EngOp.noConfusion) (fun _ => rfl) _ fun _ => rfl
  case expx =>
    exact engResult_of (engExpxAcc xd acc) (fun _ => rfl) (fun _ => EngOp.noConfusion) (fun _ => rfl) _ fun _ => rfl
  case norm =>
    exact engResult_of (engNormAcc acc xd) (fun _ => rfl) (fun _ => EngOp.noConfusion) (fun _ => rfl) _ fun _ => rfl
end

section
/-! PROOFS. Branches, calls, returns and hardware loops (R317, R340, R341, R342). -/

namespace Sys2Proof.Machine

/-- The condition codes 0 to 14 as a list are those of the branch (R340). -/
theorem Flg.holds_of_conds {f : Flg} {cond : BitVec 4} {b : Bool} (h : f.conds[cond.toNat]? = some b) :
    f.holds cond.toNat = b := by
  have lt : cond.toNat < 15 := (List.getElem?_eq_some_iff.mp h).1
  generalize cond.toNat = n at h lt
  match n, lt with
  | 0, _ | 1, _ | 2, _ | 3, _ | 4, _ | 5, _ | 6, _ | 7, _ | 8, _ | 9, _ | 10, _ | 11, _ | 12, _ | 13, _ | 14, _ =>
    exact Option.some.inj h

/-- An engine after the two cycles of a taken branch (R340). -/
def Engine.twoMore (g : Engine) : Engine := { g with hz := { g.hz with now := g.hz.now + 2 } }

theorem Die.addCycles_two (e : Fin 80) (d : Die) : d.addCycles e 2 = d.updEng e Engine.twoMore := rfl

/-- What an instruction leaves that jumps: the registers `regs` and the return stack `stack` it has given its engine,
and control at the target. -/
theorem Die.rewrites_jumps {e : Fin 80} {f : Engine → Engine} {t : BitVec 12} {d v : Die} (regs : EngRegs)
    (stack : List (BitVec 12))
    (hf : ∀ hz cnt rec, f { d.engine e with hz := hz, cnt := cnt, eccRec := rec } =
      Engine.twoMore { d.engine e with regs := regs, stack := stack, hz := hz, cnt := cnt, eccRec := rec })
    (hw : (d.engine e).wait = .none) (h : Die.rewrites e f (some t) d v) :
    Die.branches e t d v ∧ (v.engine e).regs = regs ∧ (v.engine e).stack = stack ∧
      Engine.still { d.engine e with stack := stack } (v.engine e) := by
  obtain ⟨sram, hz, cnt, rec, hv⟩ := h
  rw [hf] at hv
  unfold Die.branches
  rw [hv]
  exact ⟨⟨sram, rfl, rfl, rfl⟩, rfl, rfl, rfl, rfl, rfl, hw⟩

/-! Loop levels -/

theorem Engine.setLoop_eq (lvl : Fin 2) (r : Option LoopRec) (g : Engine) : g.setLoop lvl r =
    { g with loop0 := if lvl = 0 then r else g.loop0, loop1 := if lvl = 0 then g.loop1 else r } := by
  unfold Engine.setLoop
  split <;> rfl

@[simp] theorem Engine.setLoop_rest (lvl : Fin 2) (r : Option LoopRec) (g : Engine) :
    (g.setLoop lvl r).rest = g.rest := by rw [Engine.setLoop_eq]; rfl
@[simp] theorem Engine.setLoop_wait (lvl : Fin 2) (r : Option LoopRec) (g : Engine) :
    (g.setLoop lvl r).wait = g.wait := by rw [Engine.setLoop_eq]
@[simp] theorem Engine.setLoop_pc (lvl : Fin 2) (r : Option LoopRec) (g : Engine) :
    (g.setLoop lvl r).pc = g.pc := by rw [Engine.setLoop_eq]
@[simp] theorem Engine.setLoop_regs (lvl : Fin 2) (r : Option LoopRec) (g : Engine) :
    (g.setLoop lvl r).regs = g.regs := by rw [Engine.setLoop_eq]
theorem Engine.still_setLoop (lvl : Fin 2) (r : Option LoopRec) (g g' : Engine) :
    Engine.still g (g'.setLoop lvl r) = Engine.still g g' := by rw [Engine.setLoop_eq]; rfl

@[simp] theorem Engine.loopAt_setLoop_same (lvl : Fin 2) (r : Option LoopRec) (g : Engine) :
    (g.setLoop lvl r).loopAt lvl = r := by
  rw [Engine.setLoop_eq]
  unfold Engine.loopAt
  split <;> simp [*]

@[simp] theorem Engine.loopAt_setLoop_other (lvl : Fin 2) (r : Option LoopRec) (g : Engine) :
    (g.setLoop lvl r).loopAt (1 - lvl) = g.loopAt (1 - lvl) := by
  rw [Engine.setLoop_eq]
  match lvl with
  | 0 => rfl
  | 1 => rfl

/-- The index at hand ends no loop. -/
theorem Engine.advance_inside (g : Engine) (h : ∀ lvl r, g.loopAt lvl = some r → r.last ≠ g.pc) :
    g.advance = { g with pc := g.pc + 1 } := by
  have h0 : ∀ r, g.loop0 = some r → g.pc ≠ r.last := fun r hr => (h 0 r hr).symm
  have h1 : ∀ r, g.loop1 = some r → g.pc ≠ r.last := fun r hr => (h 1 r hr).symm
  unfold Engine.advance
  cases l1 : g.loop1 <;> cases l0 : g.loop0 <;> simp_all

@[simp] theorem Die.fetched_loopAt (e : Fin 80) (op : EngOp) (d : Die) (lvl : Fin 2) :
    ((d.fetched e op).engine e).loopAt lvl = (d.engine e).loopAt lvl := by
  obtain ⟨_, _, _, h⟩ := d.fetched_engine e op
  rw [h]; rfl

@[simp] theorem Die.fetched_pc (e : Fin 80) (op : EngOp) (d : Die) :
    ((d.fetched e op).engine e).pc = (d.engine e).pc := by
  obtain ⟨_, _, _, h⟩ := d.fetched_engine e op
  rw [h]

@[simp] theorem Die.fetched_stack (e : Fin 80) (op : EngOp) (d : Die) :
    ((d.fetched e op).engine e).stack = (d.engine e).stack := by
  obtain ⟨_, _, _, h⟩ := d.fetched_engine e op
  rw [h]

/-! LOOP and LOOPI: LOOPI writes its count and goes on as LOOP (R342) -/

/-- LC of a level takes a count. -/
def Engine.setCount (lvl : Fin 2) (n : W16) (g : Engine) : Engine :=
  { g with regs := { g.regs with lc := vset g.regs.lc lvl n } }

@[simp] theorem Engine.setCount_loopAt (lvl k : Fin 2) (n : W16) (g : Engine) :
    (g.setCount lvl n).loopAt k = g.loopAt k := rfl

@[simp] theorem Engine.setCount_lc (lvl : Fin 2) (n : W16) (g : Engine) :
    vget (g.setCount lvl n).regs.lc lvl = n := vget_vset_same ..

theorem Engine.setCount_self (lvl : Fin 2) (g : Engine) : g.setCount lvl (vget g.regs.lc lvl) = g := by
  unfold Engine.setCount
  rw [vset_vget]

theorem engLoopi_eq (e : Fin 80) (lvl : Fin 2) (cnt last : BitVec 12) (d : Die) (h : (d.engine e).loopAt lvl = none) :
    engLoopi e lvl cnt last d = engLoop e lvl last (d.updEng e (Engine.setCount lvl (cnt.setWidth 16))) := by
  unfold engLoopi
  rw [h]
  rfl

theorem engLoop_setCount (e : Fin 80) (lvl : Fin 2) (last : BitVec 12) (d : Die) :
    engLoop e lvl last d = engLoop e lvl last (d.updEng e (Engine.setCount lvl (vget (d.engine e).regs.lc lvl))) := by
  rw [Die.updEng_self e _ d (Engine.setCount_self lvl _)]

/-- With a count of 0 control passes to the index after the end. -/
theorem engLoop_zero (e : Fin 80) (lvl : Fin 2) (last : BitVec 12) (d : Die) (h : (d.engine e).loopAt lvl = none) :
    engLoop e lvl last (d.updEng e (Engine.setCount lvl 0)) =
      .ok (d.updEng e fun g => (g.setCount lvl 0).twoMore, some (last + 1)) := by
  simp [engLoop, h, Die.addCycles_two, Die.updEng_updEng]

/-- With another count the body begins at the next index. -/
theorem engLoop_count (e : Fin 80) (lvl : Fin 2) (n : W16) (last : BitVec 12) (d : Die)
    (h : (d.engine e).loopAt lvl = none) (hn : n ≠ 0) :
    engLoop e lvl last (d.updEng e (Engine.setCount lvl n)) = .ok (d.updEng e fun g =>
      (g.setCount lvl n).setLoop lvl (some { first := (d.engine e).pc + 1, last := last }), none) := by
  simp only [engLoop, Die.updEng_eng, Engine.setCount_loopAt, Engine.setCount_lc, h, if_neg hn, Die.updEng_updEng]
  rfl

/-- The command of a loop instruction with a count of 0, by LC or by its operand. -/
theorem engStep_loopSkips {i : Instr} {id : DieId} {e : Fin 80} {op : EngOp} {hyp : Die → Prop} {lvl : Fin 2}
    {last : BitVec 12} (hx : ∀ s, exec i s = onDie id (Die.runEng e op) s) (hend : ∀ c, op ≠ .endRun c)
    (hfree : ∀ d : Die, hyp d → (d.engine e).loopAt lvl = none)
    (hop : ∀ d : Die, hyp d →
      (d.fetched e op).engOp e op = engLoop e lvl last ((d.fetched e op).updEng e (Engine.setCount lvl 0))) :
    EngStep i id e op hyp fun u v => Die.branches e (last + 1) u v ∧ Engine.still (u.engine e) (v.engine e) ∧
      (v.engine e).regs = { (u.engine e).regs with lc := vset (u.engine e).regs.lc lvl 0 } := by
  refine (engStep_rewrites (fun _ g => (g.setCount lvl 0).twoMore) (some (last + 1)) hx hend (fun _ _ => rfl)
    (fun _ _ => rfl) fun d _ hh => ?_).imp fun d v hd _ h => ?_
  · rw [hop d hh, engLoop_zero _ _ _ _ ((d.fetched_loopAt e op lvl).trans (hfree d hh))]
  · obtain ⟨branches, regs, _, still⟩ := Die.rewrites_jumps ((d.engine e).setCount lvl 0).regs (d.engine e).stack
      (fun _ _ _ => rfl) (Die.issues_wait hd) h
    exact ⟨branches, still, regs⟩

/-- The body of a new loop is entered where the index at hand lies below its end and ends no other loop. -/
theorem Engine.advance_setLoop {lvl : Fin 2} {first last : BitVec 12} {g : Engine} (hlt : g.pc.toNat < last.toNat)
    (hother : ∀ r, g.loopAt (1 - lvl) = some r → r.last ≠ g.pc) :
    (g.setLoop lvl (some { first := first, last := last })).advance =
      Engine.setLoop lvl (some { first := first, last := last }) { g with pc := g.pc + 1 } := by
  rw [Engine.advance_inside]
  · simp [Engine.setLoop_eq]
  · intro k r hk
    rw [Engine.setLoop_pc]
    have level : k = lvl ∨ k = 1 - lvl := by omega
    rcases level with rfl | rfl
    · rw [Engine.loopAt_setLoop_same] at hk
      obtain rfl := Option.some.inj hk
      rintro rfl
      exact Nat.lt_irrefl _ hlt
    · rw [Engine.loopAt_setLoop_other] at hk
      exact hother r hk

/-- The command of a loop instruction with a count other than 0, by LC or by its operand. -/
theorem engStep_loopEnters {i : Instr} {id : DieId} {e : Fin 80} {op : EngOp} {hyp : Die → Prop} {lvl : Fin 2}
    {last : BitVec 12} (n : Die → W16) (hx : ∀ s, exec i s = onDie id (Die.runEng e op) s)
    (hend : ∀ c, op ≠ .endRun c)
    (hfree : ∀ d : Die, hyp d → (d.engine e).loopAt lvl = none ∧ (d.engine e).pc.toNat < last.toNat ∧
      ∀ r, (d.engine e).loopAt (1 - lvl) = some r → r.last ≠ (d.engine e).pc)
    (hn : ∀ d : Die, hyp d → n d ≠ 0)
    (hop : ∀ d : Die, hyp d →
      (d.fetched e op).engOp e op = engLoop e lvl last ((d.fetched e op).updEng e (Engine.setCount lvl (n d)))) :
    EngStep i id e op hyp fun u v => v.sram = u.sram ∧ Engine.still (u.engine e) (v.engine e) ∧
      (v.engine e).pc = (u.engine e).pc + 1 ∧
      (v.engine e).loopAt lvl = some { first := (u.engine e).pc + 1, last := last } ∧
      (v.engine e).loopAt (1 - lvl) = (u.engine e).loopAt (1 - lvl) ∧
      (v.engine e).regs = { (u.engine e).regs with lc := vset (u.engine e).regs.lc lvl (n u) } := by
  refine (engStep_rewrites (fun d g =>
    (g.setCount lvl (n d)).setLoop lvl (some { first := (d.engine e).pc + 1, last := last })) none hx hend
    (fun _ _ => Engine.setLoop_rest ..) (fun _ _ => Engine.setLoop_wait ..) fun d _ hh => ?_).imp
    fun d v hd hh h => ?_
  · obtain ⟨none, _⟩ := hfree d hh
    rw [hop d hh, engLoop_count _ _ _ _ _ ((d.fetched_loopAt e op lvl).trans none) (hn d hh), d.fetched_pc]
  · obtain ⟨_, hlt, hother⟩ := hfree d hh
    obtain ⟨sram, hz, cnt, rec, hv⟩ := h
    have entered : v.engine e = _ := hv.trans (Engine.advance_setLoop hlt hother)
    rw [entered]
    refine ⟨sram, ?_, Engine.setLoop_pc .., Engine.loopAt_setLoop_same .., Engine.loopAt_setLoop_other ..,
      Engine.setLoop_regs ..⟩
    rw [Engine.still_setLoop]
    exact ⟨rfl, rfl, rfl, Die.issues_wait hd⟩

end Sys2Proof.Machine

open Sys2Proof Sys2Proof.Machine

/-- Settles O7: the effect of each instruction is to rewrite its engine, and control jumps or goes on. -/
theorem engineFlow : Obligations.EngineFlow := by
  intro d e cond target cnt lvl rest
  refine ⟨?taken, ?passed, ?call, ?ret, ?loopZero, ?loopCount, ?loopiZero, ?loopiCount⟩
  case taken =>
    refine (engStep_rewrites (fun _ => Engine.twoMore) (some target) (fun _ => rfl) (fun _ => EngOp.noConfusion)
      (fun _ _ => rfl) (fun _ _ => rfl) fun u _ holds => ?_).imp fun u v hu _ h => ?_
    · exact if_pos (by rw [Die.fetched_regs]; exact Flg.holds_of_conds holds)
    · obtain ⟨branches, regs, _, still⟩ := Die.rewrites_jumps (u.engine e).regs (u.engine e).stack
        (fun _ _ _ => rfl) (Die.issues_wait hu) h
      exact ⟨branches, still, regs⟩
  case passed =>
    refine (engStep_rewrites (fun _ g => g) none (fun _ => rfl) (fun _ => EngOp.noConfusion)
      (fun _ _ => rfl) (fun _ _ => rfl) fun u _ holds => ?_).imp fun u v hu _ h => ?_
    · rw [Die.updEng_self _ _ _ rfl]
      exact if_neg (by rw [Die.fetched_regs, Flg.holds_of_conds holds]; decide)
    · exact Die.rewrites_takes (fun _ _ _ => rfl) (Die.issues_wait hu) h
  case call =>
    refine (engStep_rewrites (fun _ g => { g.twoMore with stack := (g.pc + 1) :: g.stack }) (some target)
      (fun _ => rfl) (fun _ => EngOp.noConfusion) (fun _ _ => rfl) (fun _ _ => rfl) fun u _ room => ?_).imp
      fun u v hu _ h => ?_
    · rw [← Die.fetched_stack e (.call target)] at room
      exact (if_pos room).trans (by rw [Die.addCycles_two, Die.updEng_updEng]; rfl)
    · obtain ⟨branches, regs, stack, _⟩ := Die.rewrites_jumps (u.engine e).regs
        (((u.engine e).pc + 1) :: (u.engine e).stack) (fun _ _ _ => rfl) (Die.issues_wait hu) h
      exact ⟨branches, regs, stack⟩
  case ret =>
    refine (engStep_rewrites (fun _ g => { g.twoMore with stack := rest }) (some target)
      (fun _ => rfl) (fun _ => EngOp.noConfusion) (fun _ _ => rfl) (fun _ _ => rfl) fun u _ top => ?_).imp
      fun u v hu _ h => ?_
    · simp [Die.engOp, engRet, top, Die.addCycles_two, Die.updEng_updEng]
    · obtain ⟨branches, regs, stack, _⟩ := Die.rewrites_jumps (u.engine e).regs rest
        (fun _ _ _ => rfl) (Die.issues_wait hu) h
      exact ⟨branches, regs, stack⟩
  case loopZero =>
    refine engStep_loopSkips (fun _ => rfl) (fun _ => EngOp.noConfusion)
      (fun u ⟨isNone, _⟩ => Option.isNone_iff_eq_none.mp isNone) fun u ⟨_, zero⟩ => ?_
    rw [← zero, ← u.fetched_regs e (.loop lvl target)]
    exact engLoop_setCount ..
  case loopCount =>
    refine engStep_loopEnters (fun u => vget (u.engine e).regs.lc lvl) (fun _ => rfl) (fun _ => EngOp.noConfusion)
      (fun u ⟨⟨isNone, free⟩, _⟩ => ⟨Option.isNone_iff_eq_none.mp isNone, free⟩)
      (fun u ⟨_, nonzero⟩ => nonzero) fun u _ => ?_
    rw [← u.fetched_regs e (.loop lvl target)]
    exact engLoop_setCount ..
  case loopiZero =>
    refine engStep_loopSkips (fun _ => rfl) (fun _ => EngOp.noConfusion)
      (fun u isNone => Option.isNone_iff_eq_none.mp isNone) fun u isNone => ?_
    exact engLoopi_eq e lvl 0 target _ ((u.fetched_loopAt ..).trans (Option.isNone_iff_eq_none.mp isNone))
  case loopiCount =>
    intro nonzero
    refine engStep_loopEnters (fun _ => cnt.setWidth 16) (fun _ => rfl) (fun _ => EngOp.noConfusion)
      (fun u ⟨isNone, free⟩ => ⟨Option.isNone_iff_eq_none.mp isNone, free⟩) (fun _ _ => ?_)
      fun u ⟨isNone, _⟩ => ?_
    · exact fun zero => nonzero (by bv_omega)
    · exact engLoopi_eq e lvl cnt target _ ((u.fetched_loopAt ..).trans (Option.isNone_iff_eq_none.mp isNone))
end

section
/-! PROOFS. The QSPI controller and the DMA engine (R584, R587, R609): what a PROGRAM leaves of the flash and what a
transfer leaves of SRAM, where these memories are canonical, and a PROGRAM on a flash that is not. -/

namespace Sys2Proof.Machine

/-! Bytes read and written -/

@[simp] theorem Memory.length_read (dflt : Byte) (m : Memory) (a n : Nat) : (m.read dflt a n).length = n := by
  induction n generalizing a with
  | zero => rfl
  | succ n ih => rw [Memory.read, List.length_cons, ih]

theorem Memory.getElem_read (dflt : Byte) (m : Memory) (a n i : Nat) (h : i < (m.read dflt a n).length) :
    (m.read dflt a n)[i] = m.get dflt (a + i) := by
  induction n generalizing a i with
  | zero => exact absurd h (Nat.not_lt_zero i)
  | succ n ih =>
    cases i with
    | zero => rfl
    | succ i => exact (ih (a + 1) i (Nat.lt_of_succ_lt_succ h)).trans (by rw [Nat.add_right_comm]; rfl)

/-- Bytes written in a canonical memory read back. -/
theorem Memory.get_write_inside (dflt : Byte) (l : List Byte) (m : Memory) (a i : Nat) (canon : m.wf dflt = true)
    (h : i < l.length) : (m.write dflt a l).get dflt (a + i) = l[i] := by
  induction l generalizing m a i with
  | nil => exact absurd h (Nat.not_lt_zero i)
  | cons v r ih =>
    cases i with
    | zero => exact (get_write_outside dflt r _ (a + 1) a (by omega)).trans (get_put_same dflt v m a canon)
    | succ i =>
      rw [show a + (i + 1) = a + 1 + i by omega]
      exact ih _ (a + 1) i (put_wf dflt v m a canon) (Nat.lt_of_succ_lt_succ h)

/-! PROGRAM (R584) -/

/-- Programming leaves every byte outside. -/
theorem get_flashProgram_outside (l : List Byte) (f : Memory) (a y : Nat) (h : y < a ∨ a + l.length ≤ y) :
    (flashProgram f a l).get 0xFF y = f.get 0xFF y := by
  induction l generalizing f a with
  | nil => rfl
  | cons v r ih =>
    simp only [List.length_cons] at h
    exact (ih _ (a + 1) (by omega)).trans (Memory.get_put_other 0xFF _ f a y (by omega))

/-- In a canonical flash an erased byte takes the value programmed. -/
theorem get_flashProgram_erased (l : List Byte) (f : Memory) (a i : Nat) (canon : f.wf 0xFF = true)
    (h : i < l.length) (erased : f.get 0xFF (a + i) = 0xFF) : (flashProgram f a l).get 0xFF (a + i) = l[i] := by
  induction l generalizing f a i with
  | nil => exact absurd h (Nat.not_lt_zero i)
  | cons v r ih =>
    cases i with
    | zero =>
      have erased : f.get 0xFF a = 0xFF := erased
      calc (flashProgram f a (v :: r)).get 0xFF a
          = (f.put 0xFF a (f.get 0xFF a &&& v)).get 0xFF a := get_flashProgram_outside r _ (a + 1) a (by omega)
        _ = f.get 0xFF a &&& v := Memory.get_put_same 0xFF _ f a canon
        _ = v := by rw [erased]; exact BitVec.allOnes_and
    | succ i =>
      rw [show a + (i + 1) = a + 1 + i by omega] at erased ⊢
      exact ih _ (a + 1) i (Memory.put_wf 0xFF _ f a canon) (Nat.lt_of_succ_lt_succ h)
        ((Memory.get_put_other 0xFF _ f a _ (by omega)).trans erased)

/-- Where no boot record waits, the end of an operation changes the controller's registers alone (R584). -/
theorem Die.qspiEnd_noRec (r : Nat) (d : Die) (noRec : d.boot.recWait = []) :
    d.qspiEnd r = Die.raise 0 d.qspi.done
      { d with qspi := { d.qspi with busy := false, done := true, result := BitVec.ofNat 2 r } } := by
  unfold Die.qspiEnd
  simp only [noRec, List.foldl_nil]
  rw [← noRec]

/-- The controller after a PROGRAM that ended in time (R584). -/
def Qspi.programmed (q : Qspi) : Qspi := { q with
  flash := flashProgram q.flash q.runAddr (q.data.toList.take q.runLen), busy := false, done := true, result := 0 }

theorem Die.qspiOpDone_program (jedec : BitVec 24) (d : Die) (busy : d.qspi.busy = true) (op : d.qspi.runOp = 3)
    (noRec : d.boot.recWait = []) :
    d.qspiOpDone false jedec = Die.raise 0 d.qspi.done { d with qspi := d.qspi.programmed } := by
  have ends : d.qspiOpDone false jedec = Die.qspiEnd 0 { d with qspi := { d.qspi with
      flash := flashProgram d.qspi.flash d.qspi.runAddr (d.qspi.data.toList.take d.qspi.runLen) } } := by
    simp only [Die.qspiOpDone, busy, op]
    rfl
  rw [ends, Die.qspiEnd_noRec]
  · rfl
  · exact noRec

/-- A PROGRAM that ends in time, of a canonical flash: erased bytes take the values of QSPI_DATA, every byte outside is
kept, and nothing else of the machine changes but how the operation ended (R584). -/
theorem program_canonical (id : DieId) (jedec : BitVec 24) (s : State) (busy : (s.die id).qspi.busy = true)
    (op : (s.die id).qspi.runOp = 3) (noRec : (s.die id).boot.recWait = []) (len : (s.die id).qspi.runLen ≤ 256)
    (canon : (s.die id).qspi.flash.wf 0xFF = true) :
    Acts (.qspiOpDone id false jedec) id s s fun u v =>
      v.core = { u.core with qspi := { u.qspi with flash := v.qspi.flash, busy := false, done := true, result := 0 } } ∧
      (∀ i : Fin 256, i.val < u.qspi.runLen → u.qspi.flash.get 0xFF (u.qspi.runAddr + i) = 0xFF →
        v.qspi.flash.get 0xFF (u.qspi.runAddr + i) = vget u.qspi.data i) ∧
      ∀ y, ¬ (u.qspi.runAddr ≤ y ∧ y < u.qspi.runAddr + u.qspi.runLen) →
        v.qspi.flash.get 0xFF y = u.qspi.flash.get 0xFF y := by
  refine acts_of (Die.qspiOpDone false jedec) rfl fun p q o st r n y b z g => ?_
  have length : ((s.die id).qspi.data.toList.take (s.die id).qspi.runLen).length = (s.die id).qspi.runLen := by
    rw [List.length_take, Vector.length_toList]
    exact Nat.min_eq_left len
  have flash : ((s.die id).qspiOpDone false jedec).qspi = (s.die id).qspi.programmed := by
    rw [Die.qspiOpDone_program jedec _ busy op noRec, Die.raise_qspi]
  refine ⟨?registers, fun i hi erased => ?inside, fun y hy => ?outside⟩
  case registers =>
    rw [Die.after_core, flash, Die.qspiOpDone_program jedec _ busy op noRec, Die.raise_core]
    rfl
  case inside =>
    rw [flash]
    exact (get_flashProgram_erased _ _ _ i canon (by omega) erased).trans (by
      rw [List.getElem_take, Vector.getElem_toList]; rfl)
  case outside =>
    rw [flash]
    exact get_flashProgram_outside _ _ _ y (by omega)

/-! A transfer into the SRAM of domain FAB (R586, R587) -/

/-- A byte of FAB SRAM belongs to no region's store. -/
theorem Die.storeRule_fab (a : Nat) (b : Byte) (d : Die) (fab : a < 0x680000) : d.storeRule [(a, b)] = false := by
  have below : ∀ w, decide (storeBase w ≤ a) = false := fun w => decide_eq_false (by unfold storeBase; omega)
  simp only [Die.storeRule, below, List.filter_cons, List.filter_nil, Bool.false_and, Bool.false_eq_true, if_false,
    List.map_nil, List.isEmpty_nil, Bool.not_true, Bool.and_false, List.any_eq_false, not_false_eq_true, implies_true]

/-- A device access to FAB SRAM goes through where the domain is ON and no word has an uncorrectable error. -/
theorem Die.dmaCheck_fab (a : Nat) (write whole : Bool) (d : Die) (fab : a < 0x680000) (ecc : d.eccBad = [])
    (awake : d.awake domFab = true) : d.dmaCheck a write whole = .none := by
  have locked : bar2Locked a = false := by
    simp only [bar2Locked, Bool.or_eq_false_iff, Bool.and_eq_false_iff, decide_eq_false_iff_not]
    omega
  have solve : d.solveReads a = false := by
    rw [Die.solveReads, decide_eq_false (by omega)]; rfl
  unfold Die.dmaCheck bar2Dom
  rw [if_pos fab]
  simp only [awake, locked, solve, ecc, List.contains_nil, Bool.not_true, Bool.false_eq_true, if_false, Bool.false_and,
    Bool.or_self, Bool.and_false]

/-- A byte of a transfer written in SRAM; the last byte of an ECC word writes the word again (R587). -/
def Die.dmaStore (a : Nat) (b : Byte) (d : Die) : Die :=
  let d := { d with sram := d.sram.put 0 a b }
  if a % 8 = 7 then d.healWord (a / 8 * 8) else d

theorem Die.dmaStore_frame (a : Nat) (b : Byte) (d : Die) (ecc : d.eccBad = []) :
    ∃ e, d.dmaStore a b = { d with sram := d.sram.put 0 a b, eccSoft := e } := by
  unfold Die.dmaStore Die.healWord
  split
  · exact ⟨_, by rw [ecc]; rfl⟩
  · exact ⟨d.eccSoft, rfl⟩

/-- The transfer's byte `m` is `b`: host space returned it, or FAB SRAM holds it. -/
def Dma.gives (x : Dma) (host : List Byte) (d : Die) (m : Nat) (b : Byte) : Prop :=
  if x.fromHost then host[m]? = some b else x.src + m < 0x680000 ∧ d.sram.get 0 (x.src + m) = b

/-- One byte moves. -/
theorem Die.dmaMove_succ {x : Dma} {host out : List Byte} {m n : Nat} {b : Byte} {d : Die} (toDevice : x.toHost = false)
    (ecc : d.eccBad = []) (awake : d.awake domFab = true) (fab : x.dst + m < 0x680000) (gives : x.gives host d m b) :
    d.dmaMove x host 0 (n + 1) m out = (d.dmaStore (x.dst + m) b).dmaMove x host 0 n (m + 1) out := by
  have dst := fun whole => d.dmaCheck_fab (x.dst + m) true whole fab ecc awake
  unfold Dma.gives at gives
  rw [Die.dmaMove, Die.dmaNext]
  split at gives
  next fromHost =>
    obtain ⟨here, _⟩ := List.getElem?_eq_some_iff.mp gives
    simp only [fromHost, toDevice, if_true, Bool.false_eq_true, if_false, Nat.sub_zero, here, dst, gives,
      Option.getD_some, d.storeRule_fab _ _ fab]
    rfl
  next fromDevice =>
    obtain ⟨src, byte⟩ := gives
    simp only [fromDevice, toDevice, if_false, Bool.false_eq_true, dst, byte, d.dmaCheck_fab _ _ _ src ecc awake,
      d.storeRule_fab _ _ fab]
    rfl

/-- The source of a transfer is host space, or lies apart from its destination. -/
def Dma.apart (x : Dma) : Prop :=
  x.fromHost = true ∨ x.src + x.len.toNat ≤ x.dst ∨ x.dst + x.len.toNat ≤ x.src

/-- A byte written in the destination leaves what the transfer is to give. -/
theorem Dma.gives_dmaStore {x : Dma} {host : List Byte} {d : Die} {i m : Nat} {b v : Byte} (apart : x.apart)
    (ecc : d.eccBad = []) (hi : i < x.len.toNat) (hm : m < x.len.toNat) (gives : x.gives host d i b) :
    x.gives host (d.dmaStore (x.dst + m) v) i b := by
  unfold Dma.gives at gives ⊢
  split at gives
  next fromHost => rwa [if_pos fromHost]
  next fromDevice =>
    obtain ⟨src, byte⟩ := gives
    rw [if_neg fromDevice]
    refine ⟨src, ?_⟩
    obtain ⟨_, eq⟩ := d.dmaStore_frame (x.dst + m) v ecc
    rw [eq, ← byte]
    refine Memory.get_put_other 0 v d.sram _ _ ?_
    rcases apart with fromHost | apart
    · exact absurd fromHost fromDevice
    · omega

/-- The bytes `l`, the transfer's from its byte `m` on, move into FAB SRAM. -/
theorem Die.dmaMove_fab {x : Dma} {host : List Byte} (toDevice : x.toHost = false) (apart : x.apart)
    (fab : x.dst + x.len.toNat ≤ 0x680000) (l : List Byte) (m : Nat) (d : Die) (fit : m + l.length ≤ x.len.toNat)
    (ecc : d.eccBad = []) (awake : d.awake domFab = true)
    (gives : ∀ i (h : i < l.length), x.gives host d (m + i) l[i]) :
    ∃ e, d.dmaMove x host 0 l.length m [] =
      (m + l.length, [], .none, { d with sram := d.sram.write 0 (x.dst + m) l, eccSoft := e }) := by
  induction l generalizing m d with
  | nil => exact ⟨d.eccSoft, rfl⟩
  | cons b r ih =>
    simp only [List.length_cons] at fit gives ⊢
    rw [Die.dmaMove_succ (m := m) (b := b) toDevice ecc awake (by omega) (gives 0 (by omega))]
    obtain ⟨e, eq⟩ := d.dmaStore_frame (x.dst + m) b ecc
    have next : ∀ i (h : i < r.length), x.gives host (d.dmaStore (x.dst + m) b) (m + 1 + i) r[i] := fun i h => by
      refine Dma.gives_dmaStore apart ecc (by omega) (by omega) ?_
      rw [show m + 1 + i = m + (i + 1) by omega]
      exact gives (i + 1) (by omega)
    obtain ⟨e', moved⟩ := ih (m + 1) _ (by omega) (by rw [eq]; exact ecc) (by rw [eq]; exact awake) next
    have count : m + 1 + r.length = m + (r.length + 1) := by omega
    exact ⟨e', by rw [moved, eq, count, ← Nat.add_assoc x.dst m 1]; rfl⟩

/-- Channel `c` is to move its bytes, from the first one on, into the SRAM of domain FAB, which is ON and has no
uncorrectable error; its source lies apart. -/
structure Die.MovesToFab (c : Fin 4) (d : Die) : Prop where
  busy : (vget d.dma c).busy = true
  runs : d.dmaStalled c = false
  first : (vget d.dma c).moved = 0
  goesOn : (vget d.dma c).aborting = false
  toDevice : (vget d.dma c).toHost = false
  apart : (vget d.dma c).apart
  fab : (vget d.dma c).dst + (vget d.dma c).len.toNat ≤ 0x680000
  ecc : d.eccBad = []
  awake : d.awake domFab = true

/-- A channel after a transfer that moved all its bytes (R587). -/
def Dma.completed (x : Dma) : Dma :=
  { x with busy := false, aborting := false, done := true, status := 0, doneLen := BitVec.ofNat 25 x.len.toNat }

/-- The whole transfer: its bytes `l` are in SRAM, and the channel has ended. -/
theorem Die.dmaDone_fab {c : Fin 4} {d : Die} (moves : d.MovesToFab c) {host l : List Byte} (stop : Nat)
    (len : l.length = (vget d.dma c).len.toNat) (gives : ∀ i (h : i < l.length), (vget d.dma c).gives host d i l[i]) :
    ∃ e, d.dmaDone c host stop = Die.raise 0 (vget d.dma c).done { d with
      sram := d.sram.write 0 (vget d.dma c).dst l, eccSoft := e, dma := vset d.dma c (vget d.dma c).completed } := by
  obtain ⟨busy, runs, first, goesOn, toDevice, apart, fab, ecc, awake⟩ := moves
  have first_gives : ∀ i (h : i < l.length), (vget d.dma c).gives host d (0 + i) l[i] := fun i h => by
    rw [Nat.zero_add]
    exact gives i h
  obtain ⟨e, moved⟩ := Die.dmaMove_fab toDevice apart fab l 0 d (by omega) ecc awake first_gives
  refine ⟨e, ?_⟩
  rw [len, Nat.zero_add, Nat.add_zero] at moved
  simp only [Die.dmaDone, Die.dmaCh, busy, runs, first, goesOn, moved, Bool.not_true, Bool.or_false, Bool.false_eq_true,
    if_false, Nat.sub_zero, List.isEmpty_nil, if_true, Bool.false_and]
  rfl

/-- What such a transfer leaves: SRAM outside its destination and its canonical form are kept, the bytes `l` stand there
where SRAM was canonical, and nothing else of the machine changes but how the transfer ended. -/
theorem acts_dmaDone_fab (id : DieId) (c : Fin 4) (host l : List Byte) (stop : Nat) (s : State)
    (moves : (s.die id).MovesToFab c) (len : l.length = (vget (s.die id).dma c).len.toNat)
    (gives : ∀ i (h : i < l.length), (vget (s.die id).dma c).gives host (s.die id) i l[i]) :
    Acts (.dmaDone id c host stop) id s s fun u v =>
      let x := vget u.dma c
      Die.storesIn x.dst x.len.toNat u v ∧
      (u.sram.wf 0 = true → ∀ i (h : i < l.length), v.sram.get 0 (x.dst + i) = l[i]) ∧
      v.core = { u.core with sram := v.sram, eccSoft := v.eccSoft, dma := vset u.dma c x.completed } := by
  refine acts_of (Die.dmaDone c host stop) rfl fun p q o st r n y b z g => ?_
  obtain ⟨e, done⟩ := Die.dmaDone_fab moves stop len gives
  have sram : ((s.die id).dmaDone c host stop).sram = (s.die id).sram.write 0 (vget (s.die id).dma c).dst l := by
    rw [done, Die.raise_sram]
  refine ⟨⟨fun a outside => ?kept, fun canon => ?form⟩, fun canon i h => ?bytes, ?rest⟩
  case kept =>
    rw [sram]
    exact Memory.get_write_outside 0 l _ _ a (by omega)
  case form =>
    rw [sram]
    exact Memory.write_wf 0 l _ _ canon
  case bytes =>
    rw [sram]
    exact Memory.get_write_inside 0 l _ _ i canon h
  case rest =>
    rw [Die.after_core, done, Die.raise_core, Die.raise_sram, Die.raise_eccSoft]
    rfl

/-- Device to device: the destination holds the bytes of the source where SRAM was canonical (R587). -/
theorem dma_fab_fab (id : DieId) (c : Fin 4) (stop : Nat) (s : State) (moves : (s.die id).MovesToFab c)
    (fromDevice : (vget (s.die id).dma c).fromHost = false)
    (source : (vget (s.die id).dma c).src + (vget (s.die id).dma c).len.toNat ≤ 0x680000) :
    Acts (.dmaDone id c [] stop) id s s fun u v =>
      let x := vget u.dma c
      Die.storesIn x.dst x.len.toNat u v ∧
      (u.sram.wf 0 = true → ∀ i, i < x.len.toNat → v.sram.get 0 (x.dst + i) = u.sram.get 0 (x.src + i)) ∧
      v.core = { u.core with sram := v.sram, eccSoft := v.eccSoft, dma := vset u.dma c x.completed } := by
  obtain ⟨t, run, only, stores, bytes, rest⟩ := acts_dmaDone_fab id c []
    ((s.die id).sram.read 0 (vget (s.die id).dma c).src (vget (s.die id).dma c).len.toNat) stop s moves
    (Memory.length_read ..) fun i h => by
      rw [Memory.length_read] at h
      rw [Dma.gives, fromDevice, Memory.getElem_read]
      exact ⟨by omega, rfl⟩
  refine ⟨t, run, only, stores, fun canon i h => ?_, rest⟩
  have length := Memory.length_read 0 (s.die id).sram (vget (s.die id).dma c).src (vget (s.die id).dma c).len.toNat
  exact (bytes canon i (by omega)).trans (Memory.getElem_read ..)

/-- Host to device: the destination holds the bytes that host space returned where SRAM was canonical (R587). -/
theorem dma_host_fab (id : DieId) (c : Fin 4) (host : List Byte) (stop : Nat) (s : State)
    (moves : (s.die id).MovesToFab c) (fromHost : (vget (s.die id).dma c).fromHost = true)
    (len : host.length = (vget (s.die id).dma c).len.toNat) :
    Acts (.dmaDone id c host stop) id s s fun u v =>
      let x := vget u.dma c
      Die.storesIn x.dst x.len.toNat u v ∧
      (u.sram.wf 0 = true → ∀ i (h : i < host.length), v.sram.get 0 (x.dst + i) = host[i]) ∧
      v.core = { u.core with sram := v.sram, eccSoft := v.eccSoft, dma := vset u.dma c x.completed } :=
  acts_dmaDone_fab id c host host stop s moves len fun i h => by
    rw [Dma.gives, if_pos fromHost]
    exact List.getElem?_eq_getElem h

/-! A flash that is not canonical -/

/-- A flash whose list holds byte 5 twice, first as erased; a canonical list holds no erased byte and none twice (log
entry 19). -/
def flashTwice : Memory := ⟨[(5, 0xFF), (5, 0)]⟩

/-- Die A runs a PROGRAM of one byte 0xFF at address 5 of this flash. -/
def programsTwice : State := State.reset.upd .a fun d => { d with qspi := { d.qspi with
  busy := true, runOp := 3, runAddr := 5, runLen := 1, data := Vector.replicate 256 0xFF, flash := flashTwice } }

/-- The byte reads erased; programming it with 0xFF takes the first entry out of the list, and the second one shows. -/
theorem flashTwice_program :
    flashTwice.get 0xFF 5 = 0xFF ∧ (flashProgram flashTwice 5 [0xFF]).get 0xFF 5 = 0 := by decide

end Sys2Proof.Machine

open Sys2Proof Sys2Proof.Machine

/-- Refutes O55: it asks of every flash, canonical or not, that a PROGRAM leaves the programmed values where the bytes
were erased. A byte that the list of a flash holds twice, first with the erased value, reads as erased, and after a
PROGRAM with 0xFF as the second entry. The clauses about the values that a transfer leaves in SRAM lack the same
premise; with it these clauses hold: `program_canonical`, `dma_fab_fab` and `dma_host_fab`. -/
theorem not_hostQspiDma : ¬ Obligations.HostQspiDma := by
  intro h
  obtain ⟨-, -, -, -, -, -, -, program, -⟩ := h .a 0 0 0 false 0 false false [] 0 0 programsTwice
  obtain ⟨t, run, -, -, programmed, -⟩ := program ⟨rfl, rfl, rfl⟩ (by decide)
  have next : t = programsTwice.settle (programsTwice.upd .a (Die.qspiOpDone false 0)) :=
    (Host.Outcome.next.inj run).symm
  have byte : (t.die .a).qspi.flash.get 0xFF 5 = 0xFF := programmed 0 (by decide) flashTwice_program.1
  rw [next, State.settle_qspi, State.upd_die, Die.qspiOpDone_program 0 _ rfl rfl rfl, Die.raise_qspi] at byte
  exact absurd (byte.symm.trans flashTwice_program.2) (by decide)
end
